-- ==== Sys2Proof/Word.lean ====
section
/-! DEFINITION. The word types of the module and the sparse table that holds every numbered family of units. -/

namespace Sys2Proof

/-- A byte of memory, of a packet or of a record (R4: little-endian throughout). -/
abbrev Byte := BitVec 8

/-- A 64-bit parameter word or register (R58, R90). -/
abbrev W64 := BitVec 64

/-- A sparse table by natural key. Keys rise strictly; a key that is not listed stands for the
family's reset record, which the reading operation names. -/
abbrev Tbl (α : Type) := List (Nat × α)

end Sys2Proof
end

