-- ==== Sys2Proof/Syntax.lean ====
section
/-! DEFINITION. The commands: one constructor of Instr for each row of spec/opcode_table.json, and the
records that the commands carry. The table gives no operand bits; the operands are the model's
(DESIGN CHOICE, log 5): a reference to a command that was read, a unit, a measured value, a message. -/

namespace Sys2Proof

/-- A function of a host port: `fn = 0` is the physical function, `fn = n` virtual function n (R459). -/
structure FnRef where
  port : Fin 2
  fn : Fin 9
  deriving DecidableEq, Repr

/-- Which part of a 64-bit register a posted write covers (R461). -/
inductive Half where
  | full | low | high
  deriving DecidableEq, Repr

/-- How a completion from the host ends a request (R463). -/
inductive HostCpl where
  | ok (bytes : List Byte)
  | unsupported
  | abort
  | poisoned
  deriving DecidableEq, Repr

/-- The outcome of deriving the identity on one hub (R430 steps 3 and 6, R431). -/
inductive IdOutcome where
  | ok | seedMismatch | keyMismatch
  deriving DecidableEq, Repr

/-- A tile of an operation instance of a running program (R92, R390): the operation index, the
slice of the instance (0 for a pavilion operation), the DIM2 and DIM3 indices and the tile
coordinates of the written tensor. -/
structure TileRef where
  op : Nat
  slice : Nat
  d3 : Nat
  d2 : Nat
  row : Nat
  col : Nat
  deriving DecidableEq, Repr

/-- A pass of a matrix engine (R142, R187): the first of the tiles that it stacks, one 128-column block, one stitch,
and the engine (2p + e, R69) with the bank it fills. -/
structure PassRef where
  tile : TileRef
  block : Nat
  stitch : Nat
  eng : Fin 384
  bank : Fin 2
  deriving DecidableEq, Repr

/-- A collective message (R352), with its sender's DEVICE_ID (R331) and its data as element codes. -/
structure CollMsg where
  src : Nat
  job : Nat
  epoch : Nat
  opIndex : Nat
  jobStep : BitVec 16
  shard : Nat
  stripe : Nat
  elemOffset : Nat
  nextSlice : Nat
  data : List Nat
  deriving DecidableEq, Repr

/-- A ledger record (R269), with the flags of R270 as separate fields. -/
structure Rec where
  digest : Nat := 0
  slotPage : Nat := 0
  gradPage : Nat := 0
  length : Nat := 0
  cols : Nat := 0
  version : BitVec 16 := 0
  tensor : Nat := 0
  slice : Nat := 0
  shardId : Nat := 0
  layer : Nat := 0
  valid : Bool := false
  gradNext : Bool := false
  gradCur : Bool := false
  staged : Bool := false
  damaged : Bool := false
  gradLost : Bool := false
  mirrorPending : Bool := false
  migrating : Bool := false
  paired : Bool := false
  frozen : Bool := false
  remapped : Bool := false
  pavilion : Nat := 0
  /-- STATE of R271: 0 IDLE, 1 GATHERING, 2 REDUCED, 3 UPDATING, 4 COMMITTED. -/
  state : Nat := 0
  cur : Bool := false
  cls : Nat := 0
  form : Nat := 0
  sealSeq : BitVec 32 := 0
  twinVersion : BitVec 16 := 0
  commitTime : Nat := 0
  deriving DecidableEq, Repr

/-- A shard in transit: record, current slot bytes and, where sent, the other slot, the gradient and
the hyper-parameter block (R305, R379, R381). -/
structure ShardMsg where
  src : Nat
  srcPav : Nat
  rcd : Rec
  slot : List Byte
  other : List Byte
  grad : List Byte
  hyper : List Byte
  deriving DecidableEq, Repr

/-- TWIN_DIGEST (R380, R383): the group digests of a comparison, with the shard digests of its groups. -/
structure DigestMsg where
  src : Nat
  srcPav : Nat
  /-- A full comparison; else a step-end one. -/
  full : Bool
  /-- The digests are those of the sender's mirrors of the receiver's shards. -/
  ofMine : Bool
  seq : Nat
  groups : List (Nat × Nat)
  shards : List (Nat × Nat)
  deriving DecidableEq, Repr

/-- Messages between twins other than mirror data (R380). -/
inductive TwinMsg where
  /-- A TWIN_PAIR of the other side: its DEVICE_ID, pavilion, partition, JOB_ID of its active layout, identity
  digest and the pavilion it names. -/
  | pair (id pav partition : Nat) (job : Option Nat) (digest toPav : Nat)
  | unpair
  /-- The twin answers again after a suspension (R382). -/
  | alive
  /-- The twin is unreachable (R387, R389). -/
  | lost
  /-- The sender's side of a disagreement (R386): digests of its base where it has one (older slot, gradient,
  hyper-parameters), block digests stored and recomputed, and the ACTION of R388. -/
  | resolve (shard : Nat) (version : BitVec 16) (base : Option (Nat × Nat × Nat)) (blocks recomputed : List Nat)
      (action : Nat)
  /-- Blocks of the kept side with its DIGEST, to be written at byte offsets of the slot (R387). -/
  | keep (shard : Nat) (digest : Nat) (blocks : List (Nat × List Byte))
  /-- TWIN_RESTORE asks for the mirrors of the module `id` (R389), and the mirror side has sent the last one. -/
  | restoreAsk (id pav : Nat)
  | restoreEnd
  deriving DecidableEq, Repr

/-- A training record (R326). -/
structure TrainRec where
  identityDigest : Nat
  grantCode : Nat
  time : Nat
  laneMask : Nat
  routeEpoch : Nat
  deviceId : Nat
  level : Nat
  axis : Nat
  dirPlus : Bool
  joining : Bool
  loopback : Bool
  deriving DecidableEq, Repr

/-- A TIME_SYNC message (R363); fractions in sixteenths of a ns. -/
structure TimeSyncMsg where
  tSend : Nat
  tEcho : Nat
  tDwell : Nat
  rootSeq : BitVec 32
  rootId : Nat
  rootPrio : Nat
  hops : Nat
  sendFrac : Nat
  echoFrac : Nat
  state : Nat
  deriving DecidableEq, Repr

/-- A packet header (R331) with its payload after the header. -/
structure Pkt where
  dest : Nat
  src : Nat
  partition : Nat
  hops : Nat
  plane : Bool
  vc : Bool
  len : Nat
  type : Nat
  payload : List Byte
  deriving DecidableEq, Repr

/-- A received flit (R322): its FSEQ, whether its CRC holds, the peer's acknowledged FSEQ, whether
the peer asks for a replay and from where, and whether it is idle. -/
structure Flit where
  fseq : BitVec 16
  crcOk : Bool
  ack : BitVec 16
  replayFrom : Option (BitVec 16)
  idle : Bool
  deriving DecidableEq, Repr

/-- The code words in error that a read or a patrol meets (R222 to R224): address, and how many of the word's bits, or
of its 16-bit symbols in HBM3E, are wrong (R221). -/
abbrev MemErrors := List (Nat × Nat)

/-- RINGSET_CFG written with ENABLE = 0 on a function: the size fields keep what is written (R6). -/
structure RingOff where
  fn : FnRef
  eqLog2 : BitVec 4
  cqLog2 : BitVec 4
  sqLog2 : BitVec 4
  deriving DecidableEq, Repr

/-- A host read of BAR2: its bytes, and the words in error that it meets. -/
structure BarRead where
  len : Nat
  errs : MemErrors
  deriving DecidableEq, Repr

/-- A loading of a pass: the words in error that its operands meet, and how many single-bit errors its accumulators
correct (R145). -/
structure PassLoad where
  pass : PassRef
  errs : MemErrors
  fixed : Nat
  deriving DecidableEq, Repr

/-- A tile that is read back, and the words in error that the read meets. -/
structure TileRead where
  tile : TileRef
  errs : MemErrors
  deriving DecidableEq, Repr

/-- A descriptor of a command, and the words in error that its source meets. -/
structure DescRead where
  index : Nat
  errs : MemErrors
  deriving DecidableEq, Repr

/-- Why a bridle closes (R338). -/
inductive BridleCause where
  | powerLoss | reset | stepAside | joinFailed | forwarding
  deriving DecidableEq, Repr

/-- The commands of the block, in the order of spec/opcode_table.json. The Gexon rows name by its
serial number a command that COMMAND_READ has read. -/
inductive Instr where
  | ringOpen (id : Nat) | ringClose (id : Nat) | heartbeat (id : Nat)
  | pavilionCreate (id : Nat) | pavilionDestroy (id : Nat) | pavilionStatus (id : Nat)
  | functionReset (id : Nat) | pavilionLend (id : Nat) | pavilionAdopt (id : Nat)
  | move (id : Nat) | offload (id : Nat) | restore (id : Nat)
  | memRepair (id : Nat) | memRetireList (id : Nat)
  | programLoad (id : Nat) | programRun (id : Nat) | programStop (id : Nat)
  | programUnload (id : Nat) | stepRun (id : Nat)
  | shardUpdate (id : Nat) | ledgerQuery (id : Nat) | ledgerRepair (id : Nat)
  | reshapeBegin (id : Nat) | reshapeCommit (id : Nat) | reshapeAbort (id : Nat)
  | reshapeRelease (id : Nat) | layoutQuery (id : Nat)
  | routeLoad (id : Nat) | routeSwap (id : Nat) | fenceSet (id : Nat)
  | linkStatus (id : Nat) | linkJoin (id : Nat) | acceptWiring (id : Nat)
  | bridleStepAside (id : Nat)
  | timeStatus (id : Nat) | barrierAt (id : Nat) | timeRoot (id : Nat)
  | twinPair (id : Nat) | twinUnpair (id : Nat) | twinRestore (id : Nat)
  | digestCompare (id : Nat) | disagreeResolve (id : Nat) | checkRateSet (id : Nat)
  | selftestRun (id : Nat) (failures : List Nat) | calibrate (id : Nat) (failed : Nat)
  | healthReport (id : Nat) | probationSet (id : Nat)
  | powerCap (id : Nat) | thermalStatus (id : Nat)
  | attest (id : Nat) | identityGet (id : Nat)
  | fwStatus (id : Nat) | coreRestart (id : Nat)
  | countersRead (id : Nat) | logRead (id : Nat) | forerunnerNumerics (id : Nat)
  | commandRead (r : FnRef) | deferredCommandStart (p : Fin 8)
  | sqDb (r : FnRef) (value : W64) (half : Half)
  | cqDb (r : FnRef) (value : W64) (half : Half)
  | eqDb (r : FnRef) (value : W64) (half : Half)
  | mirrorWrite (r : FnRef) | mirrorRefresh (r : FnRef) | coalesceTimeout (r : FnRef)
  | ringsetCfgEnable (r : FnRef) (eqLog2 cqLog2 sqLog2 : BitVec 4)
  | ringsetCfgDisable (x : RingOff)
  | freset (r : FnRef) (target : BitVec 16)
  | hostHeartbeat (r : FnRef)
  | estop (r : FnRef) (arm : BitVec 16)
  | load (port : Fin 2) | abandon (port : Fin 2)
  | mboxIdentity (port : Fin 2) | mboxAttest (port : Fin 2) | mboxStartLog (port : Fin 2)
  | registerWrite (r : FnRef) (offset : Nat) (value : W64) (half : Half)
  | bar2Write (r : FnRef) (offset : Nat) (bytes : List Byte) (poisoned : Bool)
  | bar2Read (r : FnRef) (offset : Nat) (x : BarRead)
  | heartbeatLate (port : Fin 2) | hostLost (port : Fin 2) | moduleBeat
  | schedulerTakeover | powerManagementTakeover | securityTakeover
  | standbyCoreFailure (role : Fin 3) | clusterControlRestart (c : Fin 32)
  | firmwareCoreRestarted (role : Fin 3)
  | powerUp (mv : Nat) | resetNAssert | inputBelowStop (mv : Nat) | inputOvervoltage (mv : Nat)
  | evInput (mv : Nat)
  | perst (port : Fin 2) | hotReset (port : Fin 2) | pfFlr (port : Fin 2)
  | vfFlr (port : Fin 2) (n : Fin 8) | vfDisable (port : Fin 2) (numVfs : Nat)
  | d3hotEntry (r : FnRef) | d0Return (r : FnRef) | msixUnmask (r : FnRef) (vec : Fin 64)
  | hostCompletion (port : Fin 2) (tag : Nat) (cpl : HostCpl)
  | completionTimeout (port : Fin 2) (tag : Nat)
  | smbusRead (cmd : Byte)
  | hubSelftest (hub : Fin 2) (pass : Bool) | leadHubTimeout
  | identityDerive (hub : Fin 2) (o : IdOutcome)
  | bundlePullDone | bundleVerify | powerFirmwareStart
  | memoryTrained (failedStacks : BitVec 32) | configApply (failedCores : List (Fin 192))
  | moduleReady | startTimeout
  | islandTargetSet (i : Fin 332) (mhz : Nat) | frequencyChange (i : Fin 332)
  | droopDetect (i : Fin 332) (cycles : Nat) | droopEnd (i : Fin 332) (goodCycles : Nat)
  | thermalCeilingLower (i : Fin 332) (tempC : Nat)
  | thermalCeilingRaise (i : Fin 332) (tempC : Nat)
  | dieShutdown (u : Fin 10) (tempC : Nat)
  | hbmOvertemp (hs : Fin 32) (tempC : Nat)
  | powerBudgetDivision (otherDraw : Nat) | powerMonitorSample (u : Fin 10) (draw : Nat)
  | capTakeEffect | coolantLowFlow (flow : Nat) | thermalHistoryWrite (meanW peakW : Nat)
  | matmul (p : Fin 8) (x : PassLoad) | matmulWgrad (p : Fin 8) (x : PassLoad)
  | elementwise (p : Fin 8) (t : TileRef) | reduce (p : Fin 8) (t : TileRef)
  | normFwd (p : Fin 8) (t : TileRef) | normBwd (p : Fin 8) (t : TileRef)
  | softmaxFwd (p : Fin 8) (t : TileRef) | softmaxBwd (p : Fin 8) (t : TileRef)
  | windowGather (p : Fin 8) (t : TileRef)
  | gatherShards (p : Fin 8) (op : Nat) | reduceScatter (p : Fin 8) (op : Nat)
  | tieSum (p : Fin 8) (t : TileRef)
  | offloadOp (p : Fin 8) (t : TileRef) | restoreOp (p : Fin 8) (x : TileRead)
  | update (p : Fin 8) (op shard : Nat)
  | waitToken (p : Fin 8) (op : Nat) | signalToken (p : Fin 8) (op : Nat)
  | stepMark (p : Fin 8) (op : Nat)
  | tileStart (p : Fin 8) (t : TileRef)
  | shadowLoadDone (eng : Fin 384) | bankDrain (eng : Fin 384) (bank : Fin 2)
  | stitchAdd (eng : Fin 384) (bank : Fin 2) | accUncorrectable (eng : Fin 384) (bank : Fin 2)
  | progressTimeout (p : Fin 8) | barrierInstant (p : Fin 8)
  | sealWrite (p : Fin 8) | shardCommit (p : Fin 8) (shard : Nat) | rollForward (p : Fin 8)
  | chainSum (p : Fin 8) (m : CollMsg) | chainResult (p : Fin 8) (m : CollMsg)
  | gatherPiece (p : Fin 8) (m : CollMsg) | collAck (p : Fin 8) (m : CollMsg)
  | collAbort (p : Fin 8) (m : CollMsg) | collectiveTimeout (p : Fin 8) (op : Nat)
  | packetArrive (l : Fin 6) (k : Pkt) | packetQueueTimeout (l : Fin 6)
  | flitReceive (l : Fin 6) (f : Flit) | replayLimit (l : Fin 6) | linkIdleTimeout (l : Fin 6)
  | linkRetrain (l : Fin 6) | trainingRecordSend (l : Fin 6)
  | trainingRecord (l : Fin 6) (t : TrainRec) | quarantineRetry (l : Fin 6)
  | laneLossOfSignal (l : Fin 6) (lane : Fin 32)
  | laneErrorRate (l : Fin 6) (lane : Fin 32) (events : Nat)
  | laneRecalibrate (l : Fin 6) (lane : Fin 32)
  | laneTestDone (l : Fin 6) (lane : Fin 32) (uncorrectable events : Nat)
  | laneMask (l : Fin 6) (mask : BitVec 32) | laneSwitch (l : Fin 6)
  | timeSyncSend (l : Fin 6) | timeSync (l : Fin 6) (m : TimeSyncMsg)
  | rootLost | timeLock | timeHoldover
  | routeSwapTakeEffect | oldPlaneExpire | fenceTakeEffect
  | reshapeCommitAt (p : Fin 8) | bridleStepAsideAt
  | grantExpire (l : Fin 6) | bridleOpen (axis : Fin 3)
  | bridleClose (axis : Fin 3) (cause : BridleCause)
  | joinTimeout (axis : Fin 3) | loopbackDone (axis : Fin 3) (pass : Bool)
  | hubForwardFail (unit : Fin 3)
  | patrolScrub (place : Nat) (errs : MemErrors) | softRowRepair (page : Nat)
  | retirementRecordWrite
  | descriptorStart (id : Nat) (x : DescRead) | descriptorTimeout (id : Nat)
  | coreFailure (core : Fin 192) (cause : Nat) | standinBegin (c : Fin 32)
  | standinEnd (c : Fin 32)
  | checkRun (c : Fin 32) (t : TileRef) | checkDrop (c : Fin 32) (t : TileRef)
  | arbiterCheck (c : Fin 32) (t : TileRef)
  | mirrorSend (p : Fin 8) (shard : Nat) | mirrorData (p : Fin 8) (m : ShardMsg)
  | mirrorAck (p : Fin 8) (shard : Nat) (version : BitVec 16)
  | mirrorRetry (p : Fin 8) (shard : Nat) | twinSuspend (p : Fin 8)
  | twinSeed (p : Fin 8) (shard : Nat)
  | twinDigest (p : Fin 8) (m : DigestMsg)
  | twinControl (p : Fin 8) (m : TwinMsg) | twinPairTimeout (p : Fin 8)
  | digestComparison (p : Fin 8) | disagreeProcedure (p : Fin 8) (shard : Nat)
  | shardArrival (p : Fin 8) (m : ShardMsg) | reshapeTransferTimeout (p : Fin 8)
  | healthScoreUpdate | probationExpire
  | counterFoldA | counterFoldB | evCounterLost (counter : Nat)
  | dieBridgeFailure (b : Fin 10) | vfEnable (port : Fin 2) (numVfs : Nat)
  | portConfigReady (port : Fin 2) | coolantInletTemperature (deciC : Nat)
  | hbmTemperatureFall (hs : Fin 32) (tempC : Nat)
  | reshapeShardAck (p : Fin 8) (shard : Nat) (ok : Bool)
  deriving DecidableEq, Repr

end Sys2Proof
end

