-- ==== Sys2Proof/Config.lean ====
section
/-! DEFINITION. What one implementation fixes and the manual leaves open, as constants with no body
(log 7, log 8): nothing can be proved of a value of them. -/

namespace Sys2Proof.Config

/-- The free value number k (log 7): the value of a place the manual calls undefined. -/
opaque freeNat : Nat → Nat

/-- What a counter of cycles holds at an instant of the local oscillator: COUNTER_ID, instant, free-value count, and
0 for its 64-bit total or 1 for its raw value (log 12). -/
opaque cycles : Nat → Nat → Nat → Nat → Nat

/-- ML-DSA-65 verification of FIPS 204 in its pure form with an empty context (R433 to R435):
public key, message, signature. The algorithm is not part of the manual (log 8). -/
opaque mldsaVerify : List Byte → List Byte → List Byte → Bool

/-- The hedged ML-DSA-65 signature of the identity key over a body; the number tells two signatures
apart (R447: hedged signing makes them differ). -/
opaque mldsaSign : Nat → List Byte → BitVec 26472

/-- The ML-DSA-65 identity public key of 1,952 bytes derived from the PUF (R430). -/
opaque identityKey : BitVec 15616

/-- The certificate over the identity object, 3,309 bytes (R446). -/
opaque identityCert : BitVec 26472

/-- SERIAL, 16 ASCII bytes (R446). -/
opaque serial : BitVec 128

/-- CERT_KEY_ID (R446). -/
opaque certKeyId : BitVec 16

/-- The root digest held in the boot ROM (R433). -/
opaque romRootDigest : BitVec 128

/-- The boot ROM's release and the digest of its contents (R450). -/
opaque romRelease : BitVec 32
opaque romDigest : BitVec 128

/-- Whether the bank of an HBM3E page has a spare row left after n repairs (R228, R229). -/
opaque spareRow : Nat → Nat → Bool

/-- Where copy c of the step journal of a pavilion lies in the HBM3E firmware region of a gate die: die, pavilion, copy (R281,
R288; log 51). -/
opaque journalAt : Nat → Nat → Nat → Nat

/-- The random source of the security core (R343, R427). -/
opaque random64 : Nat → BitVec 64

/-- Contents of a tensor element that the manual calls undefined (R101, R122): free-value count, tensor, slice,
element index (log 7). -/
opaque freeCode : Nat → Nat → Nat → Nat → Nat

/-- The result of elementary function f at a binary32 code, where the model's evaluation does not settle the
rounding (log 10). -/
opaque elementary : Nat → Nat → Nat

end Sys2Proof.Config
end

