-- ==== Sys2Proof/Machine/Bytes.lean ====
section
/-! DEFINITION. Sparse tables, little-endian byte strings (R4) and canonical byte memories. -/

namespace Sys2Proof.Machine

/-! ### Sparse tables -/

/-- The record of key k, or none when it is not listed. -/
def tfind {α : Type} : Tbl α → Nat → Option α
  | [], _ => none
  | (k, v) :: t, i => if i = k then some v else tfind t i

/-- The record of key k, or the family's reset record. -/
def tget {α : Type} (t : Tbl α) (i : Nat) (d : α) : α := (tfind t i).getD d

/-- Put a record, keeping the keys rising. -/
def tset {α : Type} : Tbl α → Nat → α → Tbl α
  | [], i, v => [(i, v)]
  | (k, w) :: t, i, v =>
    if i < k then (i, v) :: (k, w) :: t
    else if i = k then (i, v) :: t
    else (k, w) :: tset t i v

def tdel {α : Type} (t : Tbl α) (i : Nat) : Tbl α := t.filter (fun e => e.1 != i)

def thas {α : Type} (t : Tbl α) (i : Nat) : Bool := (tfind t i).isSome

/-- Change every listed record. -/
def tmap {α : Type} (f : Nat → α → α) (t : Tbl α) : Tbl α := t.map (fun e => (e.1, f e.1 e.2))

/-! ### Sorting -/

/-- Insert before the first element that does not come before. -/
def insertBy {α : Type} (le : α → α → Bool) (a : α) : List α → List α
  | [] => [a]
  | b :: l => if le a b then a :: b :: l else b :: insertBy le a l
/-- Sort a list; equal elements keep their order. -/
def sortBy {α : Type} (le : α → α → Bool) (l : List α) : List α := l.foldr (insertBy le) []

/-! ### Numbers as bits and bytes -/

/-- Bits [hi:lo] of a number (R4). -/
def bits (x hi lo : Nat) : Nat := (x >>> lo) % 2 ^ (hi + 1 - lo)

/-- Bit i of a number. -/
def bitAt (x i : Nat) : Bool := x.testBit i

/-- A truth value as a bit. -/
def b2n (b : Bool) : Nat := if b then 1 else 0

/-- The n low bytes of a number, least significant first. -/
def leBytes : Nat → Nat → List Byte
  | 0, _ => []
  | n + 1, x => BitVec.ofNat 8 x :: leBytes n (x / 256)

/-- The number that a byte string holds, least significant byte first. -/
def leNat : List Byte → Nat
  | [] => 0
  | b :: t => b.toNat + 256 * leNat t

/-- n bytes of a string from offset o, zero beyond its end. -/
def slice (l : List Byte) (o n : Nat) : List Byte :=
  let t := (l.drop o).take n
  t ++ List.replicate (n - t.length) 0

/-- The little-endian number at bytes o … o + n - 1. -/
def field (l : List Byte) (o n : Nat) : Nat := leNat (slice l o n)

/-- A byte string built from fields of a width in bytes and a value. -/
def pack (l : List (Nat × Nat)) : List Byte := l.flatMap (fun e => leBytes e.1 e.2)

/-- A string cut or filled with zeros to n bytes. -/
def fit (n : Nat) (l : List Byte) : List Byte := slice l 0 n

/-! ### Byte memories in canonical form: addresses rise strictly and no zero is listed (log 1) -/

def cellGet : List Host.Cell → Nat → Byte
  | [], _ => 0
  | (k, v) :: t, a => if a = k then v else cellGet t a

/-- Write one byte; a zero removes the entry. -/
def cellPut : List Host.Cell → Nat → Byte → List Host.Cell
  | [], a, b => if b = 0 then [] else [(a, b)]
  | (k, v) :: t, a, b =>
    if a < k then (if b = 0 then (k, v) :: t else (a, b) :: (k, v) :: t)
    else if a = k then (if b = 0 then t else (a, b) :: t)
    else (k, v) :: cellPut t a b

def cellsGet (m : List Host.Cell) (a : Nat) : Nat → List Byte
  | 0 => []
  | n + 1 => cellGet m a :: cellsGet m (a + 1) n

def cellsPut : List Host.Cell → Nat → List Byte → List Host.Cell
  | m, _, [] => m
  | m, a, b :: t => cellsPut (cellPut m a b) (a + 1) t

/-- Zero a range. -/
def cellsZero (m : List Host.Cell) (a n : Nat) : List Host.Cell :=
  m.filter (fun c => decide (c.1 < a ∨ a + n ≤ c.1))

/-- The canonical form. -/
def cellsWf : List Host.Cell → Bool
  | [] => true
  | [(_, b)] => b != 0
  | (a, b) :: (a', b') :: t => b != 0 && decide (a < a') && cellsWf ((a', b') :: t)

/-! ### Small list helpers -/

/-- Indices of the set bits of an n-bit mask. -/
def maskBits (n m : Nat) : List Nat := (List.range n).filter (fun i => m.testBit i)

/-- The mask with the listed bits set. -/
def bitsMask : List Nat → Nat
  | [] => 0
  | i :: t => (1 <<< i) ||| bitsMask t

def sumNat : List Nat → Nat
  | [] => 0
  | a :: t => a + sumNat t

/-- Add to a list without repeating. -/
def addNew (l : List Nat) (x : Nat) : List Nat := if l.contains x then l else l ++ [x]

/-- Ceiling of a quotient. -/
def cdiv (a b : Nat) : Nat := (a + b - 1) / b

/-- Saturating 16-bit and 32-bit counts. -/
def sat16 (n : Nat) : Nat := min n 0xFFFF
def sat32 (n : Nat) : Nat := min n 0xFFFFFFFF

/-- Whether [a, a+n) and [b, b+m) share an address. -/
def overlaps (a n b m : Nat) : Bool := decide (a < b + m ∧ b < a + n)

/-- Apply a change for each element, left to right. -/
def forEach {σ α : Type} (l : List α) (f : σ → α → σ) (s : σ) : σ := l.foldl f s

end Sys2Proof.Machine
end

