-- ==== Sys2Proof/Machine/State.lean ====
section
/-! DEFINITION. The state of the block as plain data. A field's default is its value after reset (R475: a
module reset loses everything but the flash). A table's unlisted key holds the reset record of its kind. -/

namespace Sys2Proof.Machine

/-- Faults: the model's own stop. No command of the manual stops the machine. -/
inductive Fault where
  /-- For a command whose operand no agent can produce. Raised by no command: every one answers a next state. Safe. -/
  | illFormed
  deriving DecidableEq, Repr

/-- Refusals: a command without a meaning. -/
inductive Refusal where
  /-- Raised by a dispatch arm whose command is not modelled. Safe. -/
  | notModelled (mnemonic : String)
  deriving DecidableEq, Repr

/-- What the module has sent on a port, link or pin. -/
inductive Emission where
  /-- A write into host memory: port, address, bytes (R65, R231). -/
  | hostWrite (port addr : Nat) (bytes : List Byte)
  /-- A read request toward a host: port, tag, address, length (R462). -/
  | hostRead (port tag addr len : Nat)
  /-- An MSI-X message: port, function, vector, and the address and data of the vector's table entry (R66, R465). -/
  | msix (port fn vec addr data : Nat)
  /-- The data of a read of a BAR (R55, R461). -/
  | readData (port fn : Nat) (bytes : List Byte)
  /-- Errors reported through AER (R466). -/
  | unsupported (port fn : Nat)
  | completerAbort (port fn : Nat)
  | advisory (port fn : Nat)
  | completionTimedOut (port fn : Nat)
  | poisonedReceived (port fn : Nat)
  | unexpectedCompletion (port : Nat)
  /-- An SMBus read word, or none where the command is not acknowledged (R487). -/
  | smbus (word : Option Nat)
  /-- Link traffic: logical link index and what was sent. -/
  | training (link : Nat) (t : TrainRec)
  | timeSync (link : Nat) (m : TimeSyncMsg)
  | packet (link : Nat) (k : Pkt)
  | laneMaskSent (link mask : Nat)
  | replayRequest (link : Nat) (fseq : BitVec 16)
  /-- A packet delivered to this module's own units (R332 step 3). -/
  | delivered (k : Pkt)
  /-- Collective and twin messages, by packet TYPE and destination (R351, R380). Reshape migration has no TYPE of its
  own in the manual: 0 stands for it. -/
  | coll (dest type : Nat) (m : CollMsg)
  | shard (dest type : Nat) (m : ShardMsg)
  | mirrorAckSent (dest shard : Nat) (version : BitVec 16)
  | mirrorAgain (dest shard : Nat)
  | twin (dest : Nat) (m : TwinMsg)
  | groupDigests (dest : Nat) (m : DigestMsg)
  | shardAckSent (dest shard : Nat) (ok : Bool)
  deriving DecidableEq, Repr

/-! ### Time (R363 to R366) -/

structure SyncRec where
  heard : Bool := false
  at_ : Nat := 0
  tSend : Nat := 0
  sendFrac : Nat := 0
  nbId : Nat := 0xFFFF
  nbState : Nat := 0
  nbHops : Nat := 0
  rootId : Nat := 0xFFFF
  rootPrio : Nat := 255
  rootSeq : BitVec 32 := 0
  /-- When ROOT_SEQ of this root last advanced on this link. -/
  seqAt : Nat := 0
  /-- The delay has been measured since the link came up. -/
  measured : Bool := false
  delay16 : Int := 0
  offset16 : Int := 0
  /-- When this port last sent a TIME_SYNC. -/
  sentAt : Option Nat := none
  deriving DecidableEq, Repr

structure TimeSt where
  localNs : Nat := 0
  /-- Time for durations (R10): ns of the oscillator before building time runs and ns of building time from then on,
  as they pass; a setting of building time is no time that passes (log 39). -/
  elapsed : Nat := 0
  btime : Nat := 0
  /-- 0 NONE, 1 ACQUIRING, 2 LOCKED, 3 HOLDOVER, 4 ROOT (R366). -/
  state : Nat := 0
  enteredAt : Nat := 0
  /-- When the offset last came within its locking window (R366). -/
  goodSince : Nat := 0
  candidate : Option Nat := none
  ownSeq : BitVec 32 := 0
  rootId : Nat := 0xFFFF
  rootPrio : Nat := 255
  hops : Nat := 0
  parent : Option Nat := none
  offset16 : Int := 0
  ratePpb : Int := 0
  /-- Part of a nanosecond of building time that the rate has gathered, in 10⁻⁹ ns. -/
  part : Nat := 0
  links : Tbl SyncRec := []
  deriving DecidableEq, Repr

/-! ### Islands, power and thermal -/

structure Isle where
  targetMhz : Nat
  /-- Running frequency and both ceilings, in sixteenths of a MHz: a step is one sixteenth of nominal (R41, R476). -/
  run16 : Nat
  therm16 : Nat
  cap16 : Nat
  tempC : Nat := 0
  /-- In a run of lengthened periods (R40). -/
  drooping : Bool := false
  lastDroop : Option Nat := none
  /-- Oscillator time of the last step of the thermal ceiling (R41). -/
  lastThermStep : Option Nat := none
  deriving DecidableEq, Repr

structure UnitTemp where
  low : Nat := 255
  high : Nat := 0
  highAt : Nat := 0
  droops : Nat := 0
  draw : Nat := 0
  hourLow : Nat := 255
  hourHigh : Nat := 0
  /-- Since when the draw has stayed at least 5% below budget (R476). -/
  belowSince : Option Nat := none
  /-- Reported as thermally limited (R489). -/
  limited : Bool := false
  deriving DecidableEq, Repr

structure ThermEntry where
  endTime : Nat
  temps : List (Nat × Nat)
  meanW : Nat
  peakW : Nat
  droop : Nat
  deriving DecidableEq, Repr

structure PendingCap where
  cmd : Nat
  capW : Nat
  windowMs : Nat
  atTime : Nat
  deriving DecidableEq, Repr

structure PowerSt where
  inputMv : Nat := 54000
  resetN : Bool := true
  pwrGood : Bool := false
  overVolt : Bool := false
  evInputPosted : Bool := false
  inputBadSince : Option Nat := none
  capW : Nat := 7200
  cfgCapW : Nat := 7200
  windowMs : Nat := 1000
  pendingCaps : List PendingCap := []
  dieBudget : Nat := 640
  hubBudget : Nat := 230
  capMissed : Bool := false
  inputDeciA : Nat := 0
  meanW : Nat := 0
  peakW : Nat := 0
  inletDeciC : Nat := 0
  outletDeciC : Nat := 0
  flow : Nat := 0xFFFF
  lowFlowSince : Option Nat := none
  lowFlowPosted : Bool := false
  alert : Bool := false
  inletHigh : Bool := false
  inletLow : Bool := false
  /-- Dies 0-7 and hubs 8-9 that have shut down since start (R481). -/
  shut : List Nat := []
  units : Tbl UnitTemp := []
  hbmHot : List Nat := []
  hbmStopped : List Nat := []
  history : List ThermEntry := []
  historyLost : Nat := 0
  lastHour : Nat := 0
  hourDroops : Nat := 0
  /-- Draw of everything but the compute-die stacks, as last measured (R476). -/
  otherDraw : Nat := 0
  deriving DecidableEq, Repr

/-! ### Start, firmware, identity -/

structure ImageInfo where
  type : Nat
  version : Nat
  bytes : Nat
  digest : Nat
  keyIndex : Nat
  offset : Nat
  deriving DecidableEq, Repr

structure Bundle where
  bytes : Nat
  label : Nat
  digest : Nat
  images : List ImageInfo
  capW : Nat
  coreSelftest : Bool
  rateLog2 : Nat
  withhold : Nat
  sectionApplied : Bool
  clusterDisable : Nat
  storeOnly : List Nat
  deriving DecidableEq, Repr

structure BootPort where
  bytesDone : Nat := 0
  error : Nat := 0
  failed : Bool := false
  busy : Bool := false
  bundleAddr : W64 := 0
  bundleBytes : BitVec 32 := 0
  deriving DecidableEq, Repr

structure Mbox where
  out : List Byte := []
  inp : List Byte := []
  respLen : Nat := 0
  reqLen : BitVec 16 := 0
  result : Nat := 0
  request : BitVec 8 := 0
  done : Bool := false
  /-- A request that GO has started and that the security core has not answered. -/
  busy : Bool := false
  /-- REQUEST, REQ_LENGTH and the first bytes of MBOX_OUT as GO found them. -/
  curReq : Nat := 0
  curLen : Nat := 0
  curOut : List Byte := []
  nonce : Option (List Byte) := none
  report : List Byte := []
  deriving DecidableEq, Repr

structure StartRec where
  count : BitVec 32 := 0
  error : Nat := 0
  stage : Nat := 0
  deriving DecidableEq, Repr

structure BootSt where
  stage : Nat := 0
  leadHub : Nat := 0
  hubTested : List (Nat × Bool) := []
  /-- The module has derived its identity on the lead hub (R430). -/
  hasIdentity : Bool := false
  hubResetAt : Nat := 0
  fwRunning : Bool := false
  standbyReady : Bool := false
  /-- Hub holding the roles 0 security, 1 power management, 2 scheduler (R30). -/
  roleHub : List Nat := [0, 0, 0]
  /-- Hub cores (3 × HUB + r) that are failed or restarting. -/
  coreDown : List Nat := []
  /-- Of these, the cores that a reset or CORE_RESTART restarts (cause 2 of EV_FW_RESTART). -/
  resetCores : List Nat := []
  lostRoles : List Nat := []
  attestBlocked : Bool := false
  ccRunning : List Nat := []
  restarts : Nat := 0
  identity : List (Nat × Bool) := []
  signingStopped : Bool := false
  ports : Tbl BootPort := []
  loadPort : Option Nat := none
  loadAt : Nat := 0
  loaded : Bool := false
  stagingDie : Nat := 0
  bundle : Option Bundle := none
  stage9At : Nat := 0
  stage9Local : Nat := 0
  readyLocal : Nat := 0
  everOpened : List Nat := []
  mbox : Tbl Mbox := []
  signCount : Nat := 0
  latchedFreset : List (Nat × Nat × Nat) := []
  latchedEstop : List (Nat × Nat) := []
  deriving DecidableEq, Repr

/-- A retirement record (R227). -/
structure RetRec where
  address : Nat
  time : Nat
  place : Nat
  cause : Nat
  state : Nat
  corrections : Nat
  deriving DecidableEq, Repr

/-- The SPI NOR flash: the only state that a module reset keeps (R475, R429). -/
structure Flash where
  retire : List RetRec := []
  starts : StartRec := {}
  prev : StartRec := {}
  deriving DecidableEq, Repr

/-! ### Host ports and ring sets -/

structure PortSt where
  lastBeat : Nat := 0
  lastBeatLocal : Nat := 0
  latePosted : Bool := false
  lost : Bool := false
  cfgReady : Bool := false
  vfEnable : Bool := false
  numVfs : Nat := 0
  ari : Bool := true
  d3 : List Nat := []
  msixOn : List Nat := []
  fnMasked : List Nat := []
  /-- Vectors whose mask bit is clear; it is set at reset, as the PCI Express standard has it (log 16). -/
  vecOpen : List (Nat × Nat) := []
  vecPending : List (Nat × Nat) := []
  /-- Message address and message data of the MSI-X table's entries, at the keys of `vecKey` (R460). -/
  msixTable : Tbl Nat := []
  /-- Read requests toward this host: tag, command serial (none: bundle pull), address, length, and the oscillator
  time of sending (R462, R463). -/
  requests : List (Nat × Option Nat × Nat × Nat × Nat) := []
  nextTag : Nat := 0
  deriving DecidableEq, Repr

structure HeldTag where
  tag : Nat
  index : Nat
  deriving DecidableEq, Repr

structure RingSet where
  /-- RINGSET_CFG as last written: ENABLE, and its size fields as one number (R6). -/
  enable : Bool := false
  cfgSizes : Nat := 0
  eqLog2 : Nat := 0
  cqLog2 : Nat := 0
  sqLog2 : Nat := 0
  error : Nat := 0
  isOpen : Bool := false
  ready : Bool := false
  busy : Bool := false
  base : Nat := 0
  staging : Nat := 0
  epoch : BitVec 32 := 0
  sqHead : Nat := 0
  sqTail : Nat := 0
  cqHead : Nat := 0
  cqTail : Nat := 0
  eqHead : Nat := 0
  eqTail : Nat := 0
  mirrorAddr : Nat := 0
  cqVector : Nat := 0
  eqVector : Nat := 0
  outMax : Nat := 1024
  coalUs : Nat := 0
  coalCount : Nat := 0
  eventMask : Nat := 0
  reserved : Nat := 0
  eqDropped : Nat := 0
  droppedNew : Nat := 0
  seq : BitVec 64 := 0
  mirrorSeq : BitVec 32 := 0
  mirrorAt : Nat := 0
  dirty : Bool := false
  notifyNew : Nat := 0
  held : Nat := 0
  heldSince : Nat := 0
  eventNew : Nat := 0
  tags : List HeldTag := []
  /-- Serial of a RING_CLOSE that was read and is not rejected: no slot after it is read (R59). -/
  closing : Option Nat := none
  /-- Status and DETAIL with which a started RING_CLOSE that was cut off will complete (R59, R86). -/
  closeEnd : Option (Nat × Nat) := none
  closeHold : Bool := false
  /-- RINGSET_CFG ENABLE = 0 in an open session: freed once its started commands have ended (R90). -/
  draining : Bool := false
  startPosted : Bool := false
  frTarget : Nat := 0
  frStatus : Nat := 0
  deriving DecidableEq, Repr

/-! ### Commands read and not finally completed (R67, R74) -/

inductive Phase where
  | accepted | deferred | started
  deriving DecidableEq, Repr

structure Cmd where
  serial : Nat
  port : Nat
  fn : Nat
  slot : Nat
  opcode : Nat
  tag : Nat
  pavilion : Nat
  target : Nat
  deadline : Nat
  paramRef : Nat
  expert : Bool
  fence : Bool
  deferOk : Bool
  notify : Bool
  params : List Nat
  hot : Bool
  phase : Phase := .accepted
  reserved : Nat := 2
  /-- A deferred command whose step boundary has come (R84). -/
  atBoundary : Bool := false
  startedAt : Nat := 0
  atTime : Nat := 0
  notes : List Nat := []
  /-- Its ring set was freed without RING_CLOSE: no entry is written for it (R74). -/
  orphan : Bool := false
  deriving DecidableEq, Repr

/-! ### Programs (R96 to R111) -/

structure Tensor where
  bindAddr : Nat
  dims : List Nat
  scaleTensor : Nat
  owner : Nat
  tieGroup : Nat
  tieUse : Nat
  format : Nat
  scaleMode : Nat
  rank : Nat
  tileRowsLog2 : Nat
  tileColsLog2 : Nat
  kind : Nat
  cls : Nat
  memory : Nat
  sliceDim : Nat
  sharded : Bool
  saturate : Bool
  clear : Bool
  deriving DecidableEq, Repr

structure Op where
  code : Nat
  acc : Bool
  recompute : Bool
  phase : Bool
  out : Nat
  a : Nat
  b : Nat
  c : Nat
  wait : Nat
  signal : Nat
  layer : Nat
  args : Nat
  deriving DecidableEq, Repr

structure Image where
  digest : Nat
  programId : Nat
  features : Nat
  sliceCount : Nat
  level : Nat
  tensors : List Tensor
  ops : List Op
  tokens : List (Bool × Nat)
  deriving DecidableEq, Repr

structure Handle where
  image : Image
  addr : Nat
  bytes : Nat
  clusterMask : Nat
  /-- 0 native, 1 forerunner, 2 forerunner with MATMUL_ONLY (R182). -/
  mode : Nat
  stepPos : Nat := 0
  constants : List (Nat × Nat × Nat) := []
  deriving DecidableEq, Repr

/-- Contents of one tensor instance: flat element index to code; unlisted elements are undefined. -/
structure TensorData where
  handle : Nat
  tensor : Nat
  slice : Nat
  codes : Tbl Nat := []
  /-- Unlisted elements are +0 (CLEAR = 1) instead of undefined. -/
  zero : Bool := false
  deriving DecidableEq, Repr

/-- The first NaN element of a tile under NAN_RUN_ON: row, column, SOURCE, ACC_LOC, cause, unit and building time of the
finding (R174, R177). -/
structure NanAt where
  row : Nat
  col : Nat
  source : Nat
  accLoc : Nat
  cause : Bool
  place : Nat
  time : Nat
  deriving DecidableEq, Repr

/-- The contents of an operand that an operation instance also writes, as they stood when the instance began: the codes
in ascending flat index (log 42). -/
structure Snap where
  op : Nat
  slice : Nat
  tensor : Nat
  codes : List Nat
  deriving DecidableEq, Repr

structure TileProg where
  tile : TileRef
  startedAt : Nat
  /-- Contents of OUT before the operation, where the operation reads them: row × 1,024 + column and code (R391). -/
  initial : List (Nat × Nat) := []
  /-- RATE_LOG2 of each cluster of the pavilion as the tile started, which a later change leaves alone (R397). -/
  rates : List (Nat × Nat) := []
  nan : Option NanAt := none
  /-- Column block and stitch of every pass that has been started, and the blocks whose final drain is done. -/
  passes : List (Nat × Nat) := []
  /-- Droop count of each core's island when its first pass of the tile started (R394). -/
  droops : List (Nat × Nat) := []
  drained : List Nat := []
  deriving DecidableEq, Repr

/-- A gather, reduce-scatter or update of the running step and its progress. -/
structure Run where
  cmd : Nat
  handle : Nat
  isStep : Bool
  /-- 0 running, 1 at a step boundary, 2 waiting for a barrier instant, 3 waiting for the seal and DONE. -/
  phase : Nat := 0
  iteration : Nat := 0
  iterations : Nat := 1
  stepsAsked : Nat := 0
  stepsDone : Nat := 0
  marks : Nat := 0
  first : Nat := 0
  opsDone : Nat := 0
  tokens : Tbl Nat := []
  inflight : List TileProg := []
  done : List TileRef := []
  finished : List Nat := []
  startedOps : List Nat := []
  progressMs : Nat := 10000
  lastProgress : Nat := 0
  nanRunOn : Bool := false
  notifySteps : Bool := false
  mbSlices : Nat := 1
  gatherAhead : Nat := 2
  stages : Nat := 1
  bwdAscending : Bool := false
  runStart : Nat := 0
  stepStart : Nat := 0
  fwdEnd : Nat := 0
  bwdEnd : Nat := 0
  boundary : Nat := 0
  traps : Nat := 0
  notes : List Nat := []
  stopAtStep : Option (Nat × Nat) := none
  endAtStep : Bool := false
  /-- The last step or iteration asked for has reached its boundary. -/
  lastStep : Bool := false
  /-- Stages in effect at the last step that started (R258). -/
  stepStages : Nat := 1
  snaps : List Snap := []
  deriving DecidableEq, Repr

/-- A trap record (R174), as its 64 bytes read as a little-endian number, and its write sequence. -/
structure TrapLog where
  sticky : Option Nat := none
  ring : Tbl Nat := []
  ringNext : Nat := 0
  /-- LOG_SEQ of the last record: those written since PAVILION_CREATE (R174). -/
  seq : Nat := 0
  written : Nat := 0
  overwritten : Nat := 0
  deriving DecidableEq, Repr

/-- An event (R75) without its ring's SEQ. -/
structure Event where
  code : Nat
  severity : Nat
  pav : Nat
  place : Nat
  time : Nat
  data : List Byte
  deriving DecidableEq, Repr

/-- An event log (R496): sticky entry, ring by sequence, next sequence. -/
structure EventLog where
  sticky : Option (Nat × Event) := none
  ring : Tbl Event := []
  next : Nat := 0
  overwritten : Nat := 0
  deriving DecidableEq, Repr

/-- A step-journal entry (R281). -/
structure JEntry where
  stepSeq : Nat
  sealTime : Nat
  doneTime : Nat := 0
  programId : Nat
  stagedCount : Nat
  commitCount : Nat := 0
  opIndex : Nat
  /-- 1 SEALED, 2 DONE, 3 REVERTED. -/
  state : Nat
  kind : Nat
  deriving DecidableEq, Repr

/-- The seal in progress: its sequence and the staged shards still to commit, in order (R282). -/
structure Sealing where
  seq : Nat
  todo : List Nat
  committed : Nat := 0
  /-- The command that ends with DONE, when it is a SHARD_UPDATE or LEDGER_REPAIR. -/
  cmd : Option Nat := none
  frozen : Nat := 0
  /-- Interrupted: only ROLL_FORWARD continues it (R285). -/
  halted : Bool := false
  /-- A roll-forward left shards uncommitted (EV_LEDGER_PENDING): a repair comes first (R288). -/
  pending : Bool := false
  deriving DecidableEq, Repr

structure Holder where
  pav : Nat
  device : Nat
  firstSlice : Nat
  deriving DecidableEq, Repr

structure MapEntry where
  initAddr : Nat
  pieceRows : Nat
  pieces : Nat
  cols : Nat
  layer : Nat
  tensor : Nat
  cls : Nat
  form : Nat
  slotTier : Bool
  gradTier : Bool
  deriving DecidableEq, Repr

structure Layout where
  bytes : List Byte
  job : Nat
  epoch : Nat
  sliceCount : Nat
  holders : List Holder
  map : List MapEntry
  perDie : Nat
  base : Nat
  deriving DecidableEq, Repr

structure Reshape where
  /-- 0 NONE, 1 OPEN, 2 READY, 3 COMMITTED (R303). -/
  state : Nat := 0
  active : Option Layout := none
  pending : Option Layout := none
  previous : Option Layout := none
  cmd : Option Nat := none
  commitAt : Option (Nat × Nat) := none
  startedAt : Nat := 0
  transferMs : Nat := 60000
  sent : List Nat := []
  unacked : List Nat := []
  expect : List Nat := []
  arrived : List Nat := []
  retried : List Nat := []
  bytesSent : Nat := 0
  bytesReceived : Nat := 0
  /-- Steps completed under the active epoch (JOB_STEP of R352), and whether one has sealed. -/
  jobStep : BitVec 16 := 0
  previousStep : BitVec 16 := 0
  sealedInEpoch : Bool := false
  deriving DecidableEq, Repr

structure Barrier where
  cmd : Nat
  at_ : Nat
  period : Nat
  count : Nat
  skipLate : Bool
  next : Nat := 0
  used : Nat := 0
  late : Nat := 0
  skipped : Nat := 0
  maxLate : Nat := 0
  lastStart : Nat := 0
  deriving DecidableEq, Repr

/-- A mirror entry (R375): the copy of the owner's record, where its slots and its gradient lie here, which of the
slots holds the newest version, and whether the other one and the gradient hold the base of R386. -/
structure Mirror where
  rcd : Rec
  slotPage : Nat
  gradPage : Nat
  newest : Bool := false
  filled : Bool := false
  hasOlder : Bool := false
  hasGrad : Bool := false
  hyper : List Byte := []
  deriving DecidableEq, Repr

/-- One side of a disagreement, as TwinMsg.resolve carries it. -/
structure Side where
  base : Option (Nat × Nat × Nat)
  blocks : List Nat
  recomputed : List Nat
  deriving DecidableEq, Repr

/-- A disagreement about a shard (R386): of an own shard, or of a mirror. -/
structure Disagree where
  shard : Nat
  version : BitVec 16
  mirror : Bool
  /-- It waits for DISAGREE_RESOLVE. -/
  hold : Bool
  /-- This side has sent its digests. -/
  asked : Bool := false
  peer : Option Side := none
  action : Nat := 1
  cmd : Option Nat := none
  deriving DecidableEq, Repr

/-- DIGEST_COMPARE in progress (R385). -/
structure Compare where
  cmd : Nat
  full : Bool
  first : Nat
  last : Nat
  finished : Bool := false
  compared : Nat := 0
  mismatched : Nat := 0
  firstShard : Nat := 0xFFFFFFFF
  resolvedAt : Nat := 0
  deriving DecidableEq, Repr

/-- A comparison of which this side has sent its digests: for the command or by schedule. -/
structure OpenCmp where
  forCmd : Bool
  full : Bool
  seq : Nat
  groups : List (Nat × Nat)
  shards : List (Nat × Nat)
  deriving DecidableEq, Repr

/-- A TWIN_PAIR of the other side that came before the own one: DEVICE_ID, pavilion, partition, JOB_ID, identity
digest, and when. -/
structure PairOffer where
  id : Nat
  pav : Nat
  partition : Nat
  job : Option Nat
  digest : Nat
  time : Nat
  deriving DecidableEq, Repr

/-- TWIN_RESTORE in progress: the command, and the shards restored. -/
structure Restore where
  cmd : Nat
  id : Nat
  pav : Nat
  done : List Nat := []
  deriving DecidableEq, Repr

structure TwinSt where
  /-- 0 none, 1 asked, 2 paired, 3 suspended. -/
  state : Nat := 0
  id : Nat := 0xFFFF
  pav : Nat := 0
  fullEvery : Nat := 64
  manual : Bool := false
  wantDigest : Nat := 0
  digest : Nat := 0
  /-- The TWIN_PAIR that waits for its answer, and since when. -/
  cmd : Option Nat := none
  askedAt : Nat := 0
  offer : Option PairOffer := none
  lastAck : Nat := 0
  /-- Shards sent and not acknowledged: shard, failed sends, time of the last send. -/
  outstanding : List (Nat × Nat × Nat) := []
  /-- Shards sent for seeding; EV_TWIN_STATE 1 has been posted for this pairing. -/
  seeding : List Nat := []
  seeded : Bool := false
  mirrors : Tbl Mirror := []
  /-- Mirror data that waits for a disagreement of its shard (R384). -/
  waiting : List ShardMsg := []
  /-- The scheduled comparison that is due: STEP_SEQ, and whether it is the full one. -/
  due : Option (Nat × Bool) := none
  compare : Option Compare := none
  openCmp : Option OpenCmp := none
  /-- Groups of which the shards' first writes wait (R384). -/
  blocked : List Nat := []
  disagree : List Disagree := []
  resolved : Nat := 0
  restore : Option Restore := none
  deriving DecidableEq, Repr

/-- A collective operation in progress (R355 to R361). -/
structure Coll where
  op : Nat
  reduce : Bool
  startedAt : Nat
  lastMsg : Nat
  /-- Messages that wait for credit: destination, packet TYPE, message (R354). -/
  outbox : List (Nat × Nat × CollMsg) := []
  /-- Messages sent and not acknowledged: destination, shard, first element, bytes. -/
  unacked : List (Nat × Nat × Nat × Nat) := []
  /-- Results or gathered elements placed, and running sums folded: shard, first element, elements, stripe. -/
  placed : List (Nat × Nat × Nat × Nat) := []
  folded : List (Nat × Nat × Nat × Nat) := []
  done : Bool := false
  deriving DecidableEq, Repr

/-- A sampled tile that waits for its checker (R390, R391). -/
structure Sample where
  tile : TileRef
  cluster : Nat
  place : Nat
  /-- Building time of the tile's final write, and the clock for durations. -/
  finishedAt : Nat
  clockAt : Nat
  /-- Contents of OUT before the tile was written, where the operation reads them, and of the other operands that the
  operation writes. -/
  initial : List (Nat × Nat)
  before : List Snap := []
  stored : List (Nat × Nat)
  /-- RUN_MHZ, TEMP_C and DROOP of R394. -/
  runMhz : Nat := 0
  tempC : Nat := 0
  droops : Nat := 0
  /-- An excess found by the checker, waiting for its arbiter: bad elements, first element, DIFF. -/
  excess : Option (Nat × Nat × Nat) := none
  deriving DecidableEq, Repr

/-- A tile that the program operation OFFLOAD has copied to LPDDR5X (R243): its tensor, instance and coordinates, and the
ranges that hold its bytes. -/
structure OffTile where
  handle : Nat
  tensor : Nat
  slice : Nat
  d3 : Nat
  d2 : Nat
  row : Nat
  col : Nat
  ranges : List (Nat × Nat)
  deriving DecidableEq, Repr

structure Pav where
  role : Nat
  stopped : Bool := false
  parked : Bool := false
  fenced : Bool := false
  parking : Bool := false
  /-- Clusters lent to it during a step: used from its next step boundary (R411). -/
  arriving : List Nat := []
  homePort : Nat
  partition : Nat
  clusters : List Nat
  hbm : List (Nat × Nat)
  lpddr : List (Nat × Nat)
  dstore : List (Nat × Nat)
  parkedAt : Nat := 0
  handles : Tbl Handle := []
  run : Option Run := none
  data : List TensorData := []
  /-- Allocated ranges: first byte, length, use (0 image, 1 constants, 2 slots, 3 gradients, 4 offload, 5 mirrors,
  6 ring sets, 7 tiles offloaded by a program). -/
  allocs : List (Nat × Nat × Nat) := []
  offTiles : List OffTile := []
  journal : Tbl JEntry := []
  stepSeq : Nat := 0
  sealing : Option Sealing := none
  norms : Tbl (Nat × Nat × Nat × Nat) := []
  reshape : Reshape := {}
  barrier : Option Barrier := none
  twin : TwinSt := {}
  colls : List Coll := []
  /-- Collective messages held until their operation starts: packet TYPE and message (R354). -/
  held : List (Nat × CollMsg) := []
  samples : List Sample := []
  traps : TrapLog := {}
  capacityDue : Bool := false
  deriving DecidableEq, Repr

/-! ### Clusters, cores, engines -/

structure Cluster where
  inService : Bool := false
  disabled : Bool := false
  storeOnly : Nat := 4
  checker : Nat := 5
  /-- Core that the checker stands in for. -/
  standin : Option Nat := none
  failedCore : Option Nat := none
  leaving : Bool := false
  rateLog2 : Nat := 12
  noArbiter : Bool := false
  logOnly : Bool := false
  fastWide : Bool := false
  checks24 : List Nat := []
  excesses : List Nat := []
  skipped : List Nat := []
  tiles60 : List Nat := []
  selfTested : Bool := false
  retired : Bool := false
  /-- When the stitch buffer last had an uncorrectable error (R197). -/
  stitchBad : Option Nat := none
  deriving DecidableEq, Repr

structure Core where
  failed : Bool := false
  retired : Bool := false
  passed : Bool := false
  unmapped : Bool := false
  deriving DecidableEq, Repr

/-- A bank of accumulator memory that a pass fills or has filled (R142). -/
structure Bank where
  pav : Nat
  pass : PassRef
  /-- The tiles that the pass stacks, in ascending logical row order, each with its first entry (0 to 1,023). -/
  tiles : List (TileRef × Nat) := []
  /-- Entries that the pass computes, and its columns of the array. -/
  rows : List Nat := []
  cols : Nat := 0
  stitches : Nat
  /-- Loadings of the array streamed: one for each chunk and sweep (R131, R140). -/
  loads : Nat := 0
  added : Nat := 0
  complete : Bool := false
  /-- It takes both banks (R142). -/
  tall : Bool := false
  deriving DecidableEq, Repr

/-- A weight register of every cell: array row, array column and 16 bits of packed codes (R126). -/
abbrev Weights := List (Nat × Nat × Nat)

/-- One matrix engine: the current and the shadow weight registers, whether the shadow loading has finished, whether a
row stalls on it (R130), the bank that the next pass takes (R143), the passes that use banks, and the 1,024 entries of
the accumulator memory, each its binary32 values by array column. -/
structure Engine where
  current : Weights := []
  shadow : Weights := []
  shadowReady : Bool := true
  stalled : Bool := false
  nextBank : Nat := 0
  banks : Tbl Bank := []
  entries : Tbl (List Nat) := []
  lastBad : Option Nat := none
  deriving DecidableEq, Repr

/-- A stitch sum of a tile's column block that waits for the stitch adder (R188): its rows, each with the values of its
columns. -/
structure StitchSum where
  pav : Nat
  tile : TileRef
  block : Nat
  stitch : Nat
  rows : Tbl (List Nat)
  /-- The cluster whose store holds the sum, and the 512 KiB slot there. -/
  cluster : Nat := 0
  slot : Nat := 0
  deriving DecidableEq, Repr

/-! ### Movers -/

structure Desc where
  type : Nat
  src : Nat
  dst : Nat
  srcPlane : Nat
  dstPlane : Nat
  srcRow : Nat
  dstRow : Nat
  rowBytes : Nat
  rows : Nat
  planes : Nat
  indexAddr : Nat
  indexLimit : Nat
  hostSrc : Bool
  hostDst : Bool
  digest : Bool
  waitPrev : Bool
  /-- WINDOW_GATHER: H, W, C, WIN, STRIDE, PAD, DIL, ELEM_BYTES, N in the order of R234. -/
  win : List Nat
  deriving DecidableEq, Repr

structure MoveJob where
  cmd : Nat
  descs : List Desc
  finished : List Nat := []
  started : List Nat := []
  written : Nat := 0
  digestBytes : List (Nat × List Byte) := []
  /-- When each descriptor started or last moved a byte (R237). -/
  moved : List (Nat × Nat) := []
  /-- Source bytes of a descriptor that stalls, as they stood when it started (R236). -/
  taken : List (Nat × List Byte) := []
  /-- Outstanding host reads: descriptor, bytes of it already placed, tag. -/
  waiting : List (Nat × Nat × Nat) := []
  /-- Core whose mover runs the descriptors, and the clusters that may take part. -/
  mover : Nat := 0
  clusters : List Nat := []
  deriving DecidableEq, Repr

/-! ### Ledger -/

structure ShardNorm where
  w : Nat := 0
  g : Nat := 0
  d : Nat := 0
  seq : BitVec 32 := 0
  deriving DecidableEq, Repr

structure Ledger where
  recs : Tbl Rec := []
  unreadable : List Nat := []
  norms : Tbl ShardNorm := []
  nextNorms : Tbl ShardNorm := []
  hyper : Tbl (List Byte) := []
  nextHyper : Tbl (List Byte) := []
  /-- Digest of a staged slot, formed while the updater wrote it (R280). -/
  nextDigest : Tbl Nat := []
  /-- New slot pages of a shard placed afresh and not yet committed (R285, R295). -/
  fresh : Tbl Nat := []
  spareUsed : Tbl Nat := []
  deriving DecidableEq, Repr

/-! ### Links, routes, bridles -/

structure Lane where
  retired : Bool := false
  retiredAt : Nat := 0
  parked : Bool := false
  testing : Bool := false
  retirements : List Nat := []
  deriving DecidableEq, Repr

structure Grant where
  code : BitVec 64
  joiner : Nat
  digest : Nat
  until_ : Nat
  /-- Its joiner started training before the window ended. -/
  inTraining : Bool := false
  deriving DecidableEq, Repr

/-- A message that waits for a port: what is sent, its class and the collective operation it belongs to (R353), its
partition, the flits still to send, since when it waits, and the counter of its bytes. -/
structure Waiting where
  what : Emission
  cls : Nat
  flow : Nat
  partition : Nat
  left : Nat
  since : Nat
  counts : Option (Nat × Nat) := none
  deriving DecidableEq, Repr

structure Link where
  /-- 0 down, 1 training, 2 up, 3 quarantined, 4 bridle closed (R348). -/
  state : Nat := 4
  /-- R323 names it; no command of the manual changes it. -/
  enabled : Bool := true
  inUse : Nat := 0
  peerMask : Nat := 0
  level : Nat := 0
  nbId : Nat := 0xFFFF
  nbDigest : Nat := 0
  reason : Nat := 0
  quarDevice : Nat := 0xFFFF
  lanes : Tbl Lane := []
  pendingMask : Option (Nat × BitVec 16) := none
  lastValid : Nat := 0
  triedAt : Nat := 0
  sendSeq : BitVec 16 := 0
  ackSeq : BitVec 16 := 0
  recvSeq : BitVec 16 := 0
  replays : Nat := 0
  queue : List Waiting := []
  /-- Flits served to each collective operation that waits, and those of class 3 and of all since class 3 waits. -/
  served : Tbl Nat := []
  lowFlits : Nat := 0
  allFlits : Nat := 0
  /-- The replay buffer (R322): messages not acknowledged, with the FSEQ of their last flit. -/
  replay : List (BitVec 16 × Emission) := []
  grant : Option Grant := none
  deriving DecidableEq, Repr

structure Join where
  cmd : Nat
  form : Bool
  epoch : Nat
  minusCode : Nat
  plusCode : Nat
  /-- TRAIN_MS in ns, and the oscillator time at which the join fails. -/
  trainNs : Nat
  limit : Nat
  deriving DecidableEq, Repr

structure Axis where
  isOpen : Bool := false
  reversed : Bool := false
  /-- When the loopback self-test last passed, and since when one runs (oscillator time). -/
  loopAt : Option Nat := none
  loopTest : Option Nat := none
  join : Option Join := none
  lastReason7 : Bool := false
  deriving DecidableEq, Repr

structure RouteEntry where
  port : Nat
  dateline : Bool
  partition : Nat
  level2 : Bool
  deriving DecidableEq, Repr

structure Plane where
  epoch : Nat
  selfId : Nat
  accept : List Nat
  entries : Tbl RouteEntry
  deriving DecidableEq, Repr

structure PendingFence where
  cmd : Nat
  partition : Nat
  lift : Bool
  noStop : Bool
  atTime : Nat
  deriving DecidableEq, Repr

structure RouteSt where
  active : Option Plane := none
  shadow : Option Plane := none
  /-- The shadow plane is the one before the last swap, and packets of its parity still use it (R335). -/
  old : Bool := false
  /-- Oscillator time of the last swap. -/
  swapAt : Nat := 0
  /-- The armed swap: command and AT_TIME. -/
  pendingSwap : Option (Nat × Nat) := none
  fences : List Nat := []
  pendingFences : List PendingFence := []
  /-- An armed BRIDLE_STEP_ASIDE: command, axis mask, AT_TIME. -/
  stepAside : Option (Nat × Nat × Nat) := none
  /-- Hub W, Hub E and the hub bridge that cannot forward (R26). -/
  noForward : List Nat := []
  bridgesDown : List Nat := []
  lostStacks : List Nat := []
  deriving DecidableEq, Repr

/-! ### Memory -/

/-- Corrections counted against a page (R227) and the times of those of the last 24 hours (R222). -/
structure PageCount where
  count : Nat := 0
  times : List Nat := []
  deriving DecidableEq, Repr

structure MemSt where
  cells : List Host.Cell := []
  bad : List Nat := []
  corrections : Tbl PageCount := []
  retired : List Nat := []
  onRelease : List Nat := []
  toFlash : List RetRec := []
  softRepairs : Nat := 0
  hardRepairs : Nat := 0
  listFullPosted : Bool := false
  deriving DecidableEq, Repr

/-! ### Checking, counters -/

structure CheckSt where
  evidence : Tbl Nat := []
  stickyEvidence : Option Nat := none
  written : Nat := 0
  overwritten : Nat := 0
  score : Nat := 1000
  /-- Evidence of R398 by kind (0 blame 1 or 3, 1 blame 2, 2 resolved against, 3 unresolved, 4 memory, 5 page) and time. -/
  facts : List (Nat × Nat) := []
  lastExcess : Nat := 0
  probation : Bool := false
  probRate : Nat := 6
  probEnd : Nat := 0
  deriving DecidableEq, Repr

structure Ctr where
  raw : BitVec 48 := 0
  last : BitVec 48 := 0
  total : BitVec 64 := 0
  foldTime : Nat := 0
  foldLocal : Nat := 0
  lost : Bool := false
  deriving DecidableEq, Repr

/-- The whole machine. -/
structure State where
  pending : List Instr := []
  freeCtr : Nat := 0
  out : List Emission := []
  time : TimeSt := {}
  power : PowerSt := {}
  isles : Tbl Isle := []
  boot : BootSt := {}
  flash : Flash := {}
  ports : Tbl PortSt := []
  rings : Tbl RingSet := []
  cmds : List Cmd := []
  nextCmd : Nat := 0
  beat : BitVec 64 := 0
  beatAt : Nat := 0
  pavs : Tbl Pav := []
  clusters : Tbl Cluster := []
  cores : Tbl Core := []
  engines : Tbl Engine := []
  stitches : List StitchSum := []
  mem : MemSt := {}
  host0 : List Host.Cell := []
  host1 : List Host.Cell := []
  moves : List MoveJob := []
  ledger : Ledger := {}
  links : Tbl Link := []
  axes : Tbl Axis := []
  route : RouteSt := {}
  check : CheckSt := {}
  ctrs : Tbl Ctr := []
  /-- Last scheduled folds, by 2 × folding core + class (cluster control core c, or 32 for the scheduler; class A 0,
  B 1): building time and oscillator time. -/
  folds : Tbl (Nat × Nat) := []
  pavLogs : Tbl EventLog := []
  modLog : EventLog := {}
  /-- MEM_REPAIR, SELFTEST_RUN and CALIBRATE commands that wait for an IDLE condition (R229, R424). -/
  idleWait : List Nat := []
  deriving DecidableEq, Repr

/-- The module right after a module reset (R475): everything but the flash lost, PWR_GOOD low, every
bridle closed; reset values the manual does not state are those of log 2. -/
def State.reset : State := {}

end Sys2Proof.Machine
end

