-- ==== Sys2Proof/Machine/Units.lean ====
section
/-! DEFINITION. Reading and changing one unit of the state, place identifiers (R32 to R34), island numbers
(R51) and the device address map (R217 to R220). -/

namespace Sys2Proof.Machine

/-! ### Access to units -/

/-- Key of a function's ring set: 9 functions on each port (R459). -/
def ringKey (port fn : Nat) : Nat := 9 * port + fn
def fnKey (r : FnRef) : Nat := ringKey r.port.val r.fn.val

def State.ring (s : State) (k : Nat) : RingSet := tget s.rings k {}
def State.modRing (s : State) (k : Nat) (f : RingSet → RingSet) : State :=
  { s with rings := tset s.rings k (f (s.ring k)) }
def State.port (s : State) (q : Nat) : PortSt := tget s.ports q {}
def State.modPort (s : State) (q : Nat) (f : PortSt → PortSt) : State :=
  { s with ports := tset s.ports q (f (s.port q)) }
def State.pav (s : State) (p : Nat) : Option Pav := tfind s.pavs p
def State.modPav (s : State) (p : Nat) (f : Pav → Pav) : State :=
  { s with pavs := match tfind s.pavs p with
      | none => s.pavs
      | some v => tset s.pavs p (f v) }
def State.cluster (s : State) (c : Nat) : Cluster := tget s.clusters c {}
def State.modCluster (s : State) (c : Nat) (f : Cluster → Cluster) : State :=
  { s with clusters := tset s.clusters c (f (s.cluster c)) }
def State.core (s : State) (p : Nat) : Core := tget s.cores p {}
def State.modCore (s : State) (p : Nat) (f : Core → Core) : State :=
  { s with cores := tset s.cores p (f (s.core p)) }
def State.engine (s : State) (e : Nat) : Engine := tget s.engines e {}
def State.modEngine (s : State) (e : Nat) (f : Engine → Engine) : State :=
  { s with engines := tset s.engines e (f (s.engine e)) }
def State.link (s : State) (l : Nat) : Link := tget s.links l {}
def State.modLink (s : State) (l : Nat) (f : Link → Link) : State :=
  { s with links := tset s.links l (f (s.link l)) }
def State.axis (s : State) (a : Nat) : Axis := tget s.axes a {}
def State.modAxis (s : State) (a : Nat) (f : Axis → Axis) : State :=
  { s with axes := tset s.axes a (f (s.axis a)) }
def State.bootPort (s : State) (q : Nat) : BootPort := tget s.boot.ports q {}
def State.modBoot (s : State) (f : BootSt → BootSt) : State := { s with boot := f s.boot }
def State.modBootPort (s : State) (q : Nat) (f : BootPort → BootPort) : State :=
  s.modBoot fun b => { b with ports := tset b.ports q (f (tget b.ports q {})) }
def State.mbox (s : State) (q : Nat) : Mbox := tget s.boot.mbox q {}
def State.modMbox (s : State) (q : Nat) (f : Mbox → Mbox) : State :=
  s.modBoot fun b => { b with mbox := tset b.mbox q (f (tget b.mbox q {})) }
def State.modPower (s : State) (f : PowerSt → PowerSt) : State := { s with power := f s.power }
def State.modMem (s : State) (f : MemSt → MemSt) : State := { s with mem := f s.mem }
def State.modRoute (s : State) (f : RouteSt → RouteSt) : State := { s with route := f s.route }
def State.modCheck (s : State) (f : CheckSt → CheckSt) : State := { s with check := f s.check }
def State.modTime (s : State) (f : TimeSt → TimeSt) : State := { s with time := f s.time }
def State.modLedger (s : State) (f : Ledger → Ledger) : State := { s with ledger := f s.ledger }
def State.modFlash (s : State) (f : Flash → Flash) : State := { s with flash := f s.flash }
def State.emit (s : State) (e : Emission) : State := { s with out := s.out ++ [e] }

/-- A function that exists on its port: the physical function, or a virtual function that VF Enable and NumVFs
create (R459). -/
def State.present (s : State) (port fn : Nat) : Bool :=
  fn == 0 || ((s.port port).vfEnable && decide (fn ≤ (s.port port).numVfs))

/-- Building time; 0 while it is not running (log 17). -/
def State.now (s : State) : Nat := if s.time.state = 0 then 0 else s.time.btime
/-- Building time runs in the time states 1 to 4 (R366, R503). -/
def State.timeOn (s : State) : Bool := s.time.state != 0
/-- Time for durations: building time once it runs, the local oscillator before (R10). An interval that begins
before building time runs and ends after counts the ns of each while it was in force (log 39). -/
def State.clock (s : State) : Nat := s.time.elapsed

/-- Take a fresh free value (log 7). -/
def State.bumpFree (s : State) : State := { s with freeCtr := s.freeCtr + 1 }

/-! ### Place identifiers (R32 to R34) -/

def placeCore (p unit : Nat) : Nat :=
  ((p / 24) <<< 12) ||| ((p / 6 % 4) <<< 10) ||| ((p % 6) <<< 7) ||| (unit <<< 4)
def placeCluster (c unit : Nat) : Nat := ((c / 4) <<< 12) ||| ((c % 4) <<< 10) ||| (6 <<< 7) ||| (unit <<< 4)
def placeDie (d unit inst : Nat) : Nat := (d <<< 12) ||| (7 <<< 7) ||| (unit <<< 4) ||| inst
def placeHub (h unit inst : Nat) : Nat := (1 <<< 15) ||| (h <<< 14) ||| (unit <<< 4) ||| inst
/-- PLACE_ID of a host port (R34: hub unit 3). -/
def placePort (q : Nat) : Nat := placeHub q 3 0
/-- PLACE_ID of a mover: the core mover of core p. -/
def placeMover (p : Nat) : Nat := placeCore p 3
/-- Firmware core named by INDEX of KIND 0xB (R69): hub cores 3 × HUB + r, cluster control cores 16 + c. -/
def placeFw (i : Nat) : Nat := if i < 16 then placeHub (i / 3) (i % 3) 0 else placeCluster (i - 16) 1
/-- Optical port of link l: XM, YM, ZM on Hub W, XP, YP, ZP on Hub E (R27). -/
def placeLink (l : Nat) : Nat := placeHub (l / 3) 4 (l % 3)

/-! ### Islands (R38, R51) -/

def nominalMhz (i : Nat) : Nat :=
  if i < 224 then 1500 else if i < 232 then 2000 else if i < 234 then 1600
  else if i < 294 then 1250 else 1000
/-- Operating range of an island in MHz. -/
def rangeMhz (i : Nat) : Nat × Nat :=
  if i < 192 then (1200, 1600) else if i < 224 then (1200, 1800) else if i < 232 then (1600, 2200)
  else if i < 234 then (1200, 1600) else if i < 294 then (1000, 1250) else (1000, 1000)
def floorMhz (i : Nat) : Nat :=
  if i < 224 then 600 else if i < 232 then 800 else if i < 234 then 600
  else if i < 294 then 1000 else 500
/-- The reset record of island i: target and running frequency nominal (R52); both ceilings at the upper end of the
operating range, where they limit no target (log 40). -/
def isleReset (i : Nat) : Isle :=
  { targetMhz := nominalMhz i, run16 := 16 * nominalMhz i
    therm16 := 16 * (rangeMhz i).2, cap16 := 16 * (rangeMhz i).2 }
def State.isle (s : State) (i : Nat) : Isle := tget s.isles i (isleReset i)
def State.modIsle (s : State) (i : Nat) (f : Isle → Isle) : State :=
  { s with isles := tset s.isles i (f (s.isle i)) }
/-- The die 0 to 7 or hub 8, 9 in which an island lies (R480 byte 27). A die-bridge end lies in its die, a
link end in its hub or die. -/
def isleUnit (i : Nat) : Nat :=
  if i < 192 then i / 24 else if i < 224 then (i - 192) / 4 else if i < 232 then i - 224
  else if i < 234 then 8 + (i - 232) else if i < 240 then 8 + (i - 234) / 3
  else if i < 252 then ([0, 1, 1, 2, 2, 3, 4, 5, 5, 6, 6, 7].getD (i - 240) 0)
  else if i < 260 then ((i - 252) / 2 + 4 * ((i - 252) % 2))
  else if i < 292 then (if (i - 260) % 2 = 0 then (i - 260) / 4 else 8 + (i - 260) / 2 % 2)
  else if i < 294 then 8 + (i - 292) else if i < 300 then 8 + (i - 294) / 3 else (i - 300) / 4

/-- THERMAL and CAPPED of an island's state word (R52). -/
def Isle.thermal (x : Isle) : Bool := decide (x.therm16 ≤ x.run16 ∧ x.therm16 < 16 * x.targetMhz)
def Isle.capped (x : Isle) : Bool := decide (x.cap16 ≤ x.run16 ∧ x.cap16 < 16 * x.targetMhz)

/-! ### Firmware roles (R27 to R30, R418) -/

/-- Hub holding role r: 0 security, 1 power management, 2 scheduler. -/
def State.roleHub (s : State) (r : Nat) : Nat := s.boot.roleHub.getD r s.boot.leadHub
/-- Whether the core that holds role r runs. -/
def State.roleUp (s : State) (r : Nat) : Bool :=
  (if r = 0 then s.boot.fwRunning else decide (8 ≤ s.boot.stage ∨ (r = 1 ∧ 6 ≤ s.boot.stage)))
    && !s.boot.lostRoles.contains r && !s.boot.coreDown.contains (3 * s.roleHub r + r)
/-- Whether the standby core of role r is ready (R29). -/
def State.standbyUp (s : State) (r : Nat) : Bool :=
  s.boot.standbyReady && !s.boot.lostRoles.contains r
    && !s.boot.coreDown.contains (3 * (1 - s.roleHub r) + r)
/-- STANDBY_READY: the standby firmware cores are ready to take over (R90). -/
def State.standbyAll (s : State) : Bool :=
  s.boot.standbyReady && (List.range 3).all fun r => !s.boot.coreDown.contains (3 * (1 - s.roleHub r) + r)

/-! ### The device address map (R217) -/

def addrWin (a : Nat) : Nat := a / 2 ^ 48
def gib : Nat := 1073741824
def mib : Nat := 1048576

/-- The unit of an address inside its window, its offset there and the populated bytes of the unit. -/
def addrUnit (a : Nat) : Nat × Nat × Nat :=
  let o := a % 2 ^ 48
  match addrWin a with
  | 0 => (o / 2 ^ 38, o % 2 ^ 38, 144 * gib)
  | 1 => (o / 2 ^ 40, o % 2 ^ 40, 768 * gib)
  | 2 => (o / 2 ^ 28, o % 2 ^ 28, 224 * mib)
  | 3 => (o / 2 ^ 22, o % 2 ^ 22, 4 * mib)
  | 4 => (o / 2 ^ 26, o % 2 ^ 26, 48 * mib)
  | _ => (0, 0, 0)

/-- Units of each window. -/
def winUnits : Nat → Nat
  | 0 => 8 | 1 => 2 | 2 => 32 | 3 => 192 | 4 => 8 | _ => 0

/-- Core j of cluster c holds the checker duty (R14, R15). -/
def State.isChecker (s : State) (p : Nat) : Bool := (s.cluster (p / 6)).checker == p % 6
def State.isStoreOnly (s : State) (p : Nat) : Bool := (s.cluster (p / 6)).storeOnly == p % 6
/-- Core p holds the active duty by assignment (R14). -/
def State.isActive (s : State) (p : Nat) : Bool := !s.isChecker p && !s.isStoreOnly p
/-- Whether core p can run active tiles now: an active core that works, or the checker that stands in. -/
def State.runsActive (s : State) (p : Nat) : Bool :=
  !(s.core p).failed && !(s.core p).retired
    && (s.isActive p || (s.isChecker p && (s.cluster (p / 6)).standin.isSome))

/-- Whether the die has been lost (R421, R481). -/
def State.dieLost (s : State) (d : Nat) : Bool := s.power.shut.contains d
def State.hubLost (s : State) (h : Nat) : Bool := s.power.shut.contains (8 + h)

/-- The dies that a die bridge joins, in the order of R24. -/
def bridgeEnds : List (Nat × Nat) := [(0, 1), (1, 2), (2, 3), (4, 5), (5, 6), (6, 7), (0, 4), (1, 5), (2, 6), (3, 7)]
/-- Every die bridge of the die has failed (R25). -/
def State.dieCut (s : State) (d : Nat) : Bool :=
  (List.range 10).all fun b =>
    let e := bridgeEnds.getD b (0, 0)
    (e.1 != d && e.2 != d) || s.route.bridgesDown.contains b
/-- The die that holds an address; none for LPDDR5X. -/
def addrDie (a : Nat) : Option Nat :=
  let u := (addrUnit a).1
  match addrWin a with
  | 0 => some u
  | 1 => none
  | 2 => some (u / 4)
  | 3 => some (u / 24)
  | _ => some u
/-- The dies that a set of dies reaches over one working bridge, and the set itself. -/
def State.bridged (s : State) (l : List Nat) : List Nat :=
  (List.range 10).foldl (fun l b =>
    let e := bridgeEnds.getD b (0, 0)
    if s.route.bridgesDown.contains b then l
    else if l.contains e.1 then addNew l e.2 else if l.contains e.2 then addNew l e.1 else l) l
/-- The dies that the mesh joins to die d: a path has at most seven bridges (R24, R25). -/
def State.meshOf (s : State) (d : Nat) : List Nat := (List.range 7).foldl (fun l _ => s.bridged l) [d]
/-- The dies d and e are the same or joined by working die bridges (R25). -/
def State.diesMeet (s : State) (d e : Nat) : Bool := d == e || (s.meshOf d).contains e
/-- A unit on die d reaches an address: over the die bridges that work, LPDDR5X over its hub links; a die that is cut
off serves its own clusters and stacks alone (R25). -/
def State.dieReaches (s : State) (d a : Nat) : Bool :=
  match addrDie a with
  | some e => s.diesMeet d e
  | none => !s.dieCut d

/-- Whether a range touches a stack that admits no new access (R481). -/
def State.onStopped (s : State) (a n : Nat) : Bool :=
  let (u, o, _) := addrUnit a
  addrWin a == 0 && s.power.hbmStopped.any fun hs =>
    hs / 4 == u && (List.range (min 4 ((o + n - 1) / 4096 + 1 - o / 4096))).any fun k => (o / 4096 + k) % 4 == hs % 4

/-- Whether unit u of a window is populated (R217, R18, R421). -/
def State.unitMapped (s : State) (win u : Nat) : Bool :=
  decide (u < winUnits win) && match win with
  | 0 => !s.dieLost u
  | 1 => !s.hubLost u
  | 2 => !s.dieLost (u / 4)
  | 3 => !s.isChecker u && !(s.core u).unmapped && !s.dieLost (u / 24)
  | 4 => !s.dieLost u
  | _ => false

/-- The first address after the unit that holds a. -/
def unitEnd (a : Nat) : Nat := let (_, o, n) := addrUnit a; a - o + n

/-- The bytes of the range fall in one unit, or in core-store windows that follow one another. -/
def State.mapped (s : State) (a n : Nat) : Bool :=
  let (u, o, m) := addrUnit a
  s.unitMapped (addrWin a) u && decide (o < m) &&
    (if addrWin a = 3 then
      (List.range ((o + n - 1) / (4 * mib))).all (fun k => s.unitMapped 3 (u + k + 1))
     else decide (o + n ≤ m))

/-- Whether the range touches a window of a core that holds checker duty (R217). -/
def State.inCheckerStore (s : State) (a n : Nat) : Bool :=
  addrWin a == 3 && (List.range ((addrUnit a).2.1 / (4 * mib) + (n + 4 * mib - 1) / (4 * mib) + 1)).any
    (fun k => let u := (addrUnit a).1 + k
      decide (u < 192) && s.isChecker u && overlaps a n (3 * 2 ^ 48 + u * 4 * mib) (4 * mib))

/-- PLACE_ID of the memory that holds an address (R218, R34, R17). -/
def State.placeOfAddr (s : State) (a : Nat) : Nat :=
  let (u, o, _) := addrUnit a
  match addrWin a with
  | 0 => placeDie u 3 (o / 4096 % 4)
  | 1 => placeHub u 5 (o / 4096 % 12)
  | 2 => placeCluster u 0
  | 3 =>
    let c := s.cluster (u / 6)
    if c.standin = some (u % 6) then placeCore (6 * (u / 6) + c.checker) 4 else placeCore u 4
  | _ => placeDie u 0 0

/-- Byte of an address within the part that holds it (R218): pages go to the stacks of a die and the packages of a hub in
turn; a store is one part. -/
def partOffset (a : Nat) : Nat :=
  let o := (addrUnit a).2.1
  let parts := match addrWin a with | 0 => 4 | 1 => 12 | _ => 1
  o / (4096 * parts) * 4096 + o % 4096

/-- Bytes of the code word that protects an address: 64 in HBM3E, 8 elsewhere (R221). -/
def codeWord (a : Nat) : Nat := if addrWin a = 0 then 64 else 8
def pageOf (a : Nat) : Nat := a - a % 4096

/-- The HBM3E stack of an address (R218). -/
def stackOf (a : Nat) : Nat := 4 * (addrUnit a).1 + (addrUnit a).2.1 / 4096 % 4

/-- Lines of a lost stack behave as retired pages (R421), and so does every line of a unit that is not mapped (R18). -/
def State.onLostStack (s : State) (a : Nat) : Bool :=
  !s.unitMapped (addrWin a) (addrUnit a).1 ||
  addrWin a == 0 && s.route.lostStacks.contains (stackOf a)

/-- First retired or lost page that the range touches. -/
def State.retiredIn (s : State) (a n : Nat) : Option Nat :=
  match s.mem.retired.find? (fun p => overlaps p 4096 a n) with
  | some p => some p
  | none => ((List.range (min 5 (n / 4096 + 2))).map (fun k => pageOf a + 4096 * k)).find?
      (fun p => s.onLostStack p && overlaps p 4096 a n)

/-- The reserved regions of R219: firmware regions and ledger slices. -/
def inReserved (a n : Nat) : Bool :=
  let (_, o, _) := addrUnit a
  (addrWin a == 0 && decide (o < 2 * gib)) || (addrWin a == 4 && decide (o + n > 0x2800000))

/-- Allocation units that a range touches: window, unit and granule (1 GiB in HBM3E and LPDDR5X, 1 MiB in die
stores, a whole store elsewhere). -/
def granules (a n : Nat) : List (Nat × Nat × Nat) :=
  let (u, o, _) := addrUnit a
  let cnt := fun g => (o + n - 1) / g - o / g + 1
  match addrWin a with
  | 0 => (List.range (cnt gib)).map fun k => (0, u, o / gib + k)
  | 1 => (List.range (cnt gib)).map fun k => (1, u, o / gib + k)
  | 2 => [(2, u, 0)]
  | 3 => (List.range ((o + n - 1) / (4 * mib) + 1)).map fun k => (3, u + k, 0)
  | 4 => (List.range (cnt mib)).map fun k => (4, u, o / mib + k)
  | _ => [(5, 0, 0)]

/-- Whether a granule belongs to the pavilion (R220). -/
def Pav.owns (v : Pav) (g : Nat × Nat × Nat) : Bool :=
  match g.1 with
  | 0 => v.hbm.contains (g.2.1, g.2.2)
  | 1 => v.lpddr.contains (g.2.1, g.2.2)
  | 2 => v.clusters.contains g.2.1
  | 3 => v.clusters.contains (g.2.1 / 6)
  | 4 => v.dstore.contains (g.2.1, g.2.2)
  | _ => false

def Pav.ownsRange (v : Pav) (a n : Nat) : Bool := (granules a n).all v.owns

/-- The staging area of a function's ring set: 254 MiB at STAGING_BASE (R54). -/
def stagingBytes : Nat := 266338304
def State.inStaging (s : State) (k a n : Nat) : Bool :=
  let r := s.ring k
  r.ready && decide (r.staging ≤ a ∧ a + n ≤ r.staging + stagingBytes)

/-- The check of R502 and R235 on a range, with the REASON of R241, for a function of a port: a virtual
function is confined to its staging area and its pavilion's memory. -/
def State.badRange (s : State) (port fn a n : Nat) : Option Nat :=
  let st := s.inStaging (ringKey port fn) a n
  if s.inCheckerStore a n then some 4
  else if !s.mapped a n then some 1
  else if fn = 0 ∧ inReserved a n ∧ !st then some 3
  else if fn ≠ 0 ∧ !st ∧ !((s.pav (fn - 1)).any fun v => v.ownsRange a n) then some 2
  else if (s.retiredIn a n).isSome then some 5
  else none

/-- The same check against a pavilion's memory, for what programs and the module's own movers use. -/
def State.badPavRange (s : State) (p a n : Nat) : Option Nat :=
  if s.inCheckerStore a n then some 4
  else if !s.mapped a n then some 1
  else if !((s.pav p).any fun v => v.ownsRange a n) then some 2
  else if (s.retiredIn a n).isSome then some 5
  else none

end Sys2Proof.Machine
end

