-- ==== Sys2Proof/Machine/Ops.lean ====
section
/-! DEFINITION. The shared operations: device and host memory, events, completions, messages toward the hosts,
and the start of a command that was read. -/

namespace Sys2Proof.Machine

/-! ### Memory -/

def State.readMem (s : State) (a n : Nat) : List Byte := cellsGet s.mem.cells a n
def State.readNat (s : State) (a n : Nat) : Nat := leNat (s.readMem a n)

/-- The addresses of a write that are kept: writes to a retired page are discarded (R225). -/
def State.writeMem (s : State) (a : Nat) (l : List Byte) : State :=
  if s.mem.retired.any (fun p => overlaps p 4096 a l.length) then
    s.modMem fun m =>
      let cs := (l.zip (List.range l.length)).foldl
        (fun c e => if m.retired.contains (pageOf (a + e.2)) then c else cellPut c (a + e.2) e.1) m.cells
      { m with cells := cs }
  else
    s.modMem fun m => { m with cells := cellsPut m.cells a l
                               bad := m.bad.filter fun w => !decide (a ≤ w ∧ w + codeWord w ≤ a + l.length) }

/-- Zero a range of device memory. -/
def State.zeroMem (s : State) (a n : Nat) : State :=
  s.modMem fun m => { m with cells := cellsZero m.cells a n
                             bad := m.bad.filter fun w => !decide (a ≤ w ∧ w < a + n) }

/-- The first code word of a range that a read cannot deliver: one that is uncorrectable, or one in a
retired page (R224). -/
def State.badRead (s : State) (a n : Nat) : Option Nat :=
  match s.mem.bad.find? (fun w => overlaps w (codeWord w) a n) with
  | some w => some w
  | none => (s.retiredIn a n).map (fun p => max p (a - a % codeWord a))

/-- The first uncorrectable code word that a write covers only in part: such a write is a read too (R225). -/
def State.partialBad (s : State) (a n : Nat) : Option Nat :=
  s.mem.bad.find? fun w => overlaps w (codeWord w) a n && !decide (a ≤ w ∧ w + codeWord w ≤ a + n)

/-! ### Links with the outside -/

/-- Whether the module may send on a function: its host is not lost (R469) and it is in D0 (R468). -/
def State.canSend (s : State) (port fn : Nat) : Bool :=
  !(s.port port).lost && !(s.port port).d3.contains fn

def State.hostMem (s : State) (port : Nat) : List Host.Cell := if port = 0 then s.host0 else s.host1

/-- Write into host memory through the port (R231, R65). -/
def State.hostWrite (s : State) (port a : Nat) (l : List Byte) : State :=
  (if port = 0 then { s with host0 := cellsPut s.host0 a l } else { s with host1 := cellsPut s.host1 a l }).emit
    (.hostWrite port a l)

/-- Where the table holds the message address of a function's vector; the message data follow (R460). -/
def vecKey (fn vec : Nat) : Nat := 2 * (64 * fn + vec)
/-- The message of a vector as its table entry has it (R465). -/
def PortSt.message (q : PortSt) (port fn vec : Nat) : Emission :=
  .msix port fn vec (tget q.msixTable (vecKey fn vec) 0) (tget q.msixTable (vecKey fn vec + 1) 0)

/-- Send the message of a vector, or set its pending bit (R465). -/
def State.sendMsix (s : State) (port fn vec : Nat) : State :=
  let q := s.port port
  if !s.canSend port fn then s
  else if !q.msixOn.contains fn || q.fnMasked.contains fn || !q.vecOpen.contains (fn, vec) then
    s.modPort port fun q => { q with vecPending := if q.vecPending.contains (fn, vec) then q.vecPending else q.vecPending ++ [(fn, vec)] }
  else s.emit (q.message port fn vec)

/-! ### Pavilions -/

/-- The state code of R406: the first of STOPPED, FENCED and PARKED that applies. -/
def pavState : Option Pav → Nat
  | none => 0
  | some v => if v.stopped then 3 else if v.fenced then 4 else if v.parked then 2 else 1

def Pav.running (v : Pav) : Bool := v.run.isSome
/-- At a step boundary: no program runs, or the run stands at one (R120, R260). -/
def Pav.atBoundary (v : Pav) : Bool := match v.run with
  | none => true
  | some r => r.phase == 1

/-- The TARGET value that names a pavilion (R69). -/
def pavTarget (p : Nat) : Nat := 0x1000 + p

/-! ### Ring entries and events -/

/-- Offsets of the rings in BAR2 and in the ring set's memory (R54). -/
def cqOffset : Nat := 0x100000
def eqOffset : Nat := 0x180000
def stagingOffset : Nat := 0x200000
/-- Bytes of the rings' part of a ring set: the rings and the reserved part of R54. -/
def ringBytes : Nat := 0x200000

/-- The event entry of R75. -/
def eventBytes (e : Event) (seq : Nat) : List Byte :=
  pack [(2, e.code), (2, e.severity * 2 ^ 14), (2, e.place), (2, e.pav), (8, e.time), (8, seq)] ++ fit 40 e.data

/-- The class bit of EVENT_MASK that gates an event (R58): class 0xF0 is bit 15, and bit 0 is always set. -/
def eventEnabled (mask code : Nat) : Bool :=
  let cls := code / 256
  if cls = 0 then true else if cls = 0xF0 then mask.testBit 15 else decide (cls < 14) && mask.testBit cls

/-- Write an event into one ring (R76). -/
def State.ringEvent (s : State) (k : Nat) (e : Event) : State :=
  let r := s.ring k
  if !r.isOpen || !eventEnabled r.eventMask e.code then s
  else
    let n := 2 ^ r.eqLog2
    if (r.eqTail + 1) % n = r.eqHead then
      s.modRing k fun r => { r with
        eqDropped := sat32 (r.eqDropped + 1), droppedNew := r.droppedNew + 1, seq := r.seq + 1 }
    else
      (s.writeMem (r.base + eqOffset + 64 * r.eqTail) (eventBytes e r.seq.toNat)).modRing k fun r =>
        { r with eqTail := (r.eqTail + 1) % n, seq := r.seq + 1, eventNew := r.eventNew + 1, dirty := true }

/-- Put an event into a log of 65,536 entries: a sticky first error entry and a ring of 65,535 (R496). -/
def EventLog.put (l : EventLog) (e : Event) : EventLog :=
  { sticky := if l.sticky.isNone ∧ 2 ≤ e.severity then some (l.next, e) else l.sticky
    ring := tdel (l.ring ++ [(l.next, e)]) (if 65535 ≤ l.next then l.next - 65535 else l.next + 1)
    next := l.next + 1
    overwritten := l.overwritten + (if 65535 ≤ l.next then 1 else 0) }

/-- Raise a counter of R495 by n (its raw count is 48 bits, R491). -/
def State.count (s : State) (id n : Nat) : State :=
  let c := tget s.ctrs id {}
  { s with ctrs := tset s.ctrs id { c with raw := c.raw + BitVec.ofNat 48 n } }
def ctrId (unit block index : Nat) : Nat := unit * 65536 + block * 256 + index

/-- Record an event in the log of its pavilion or of the module (R496). -/
def State.logEvent (s : State) (e : Event) : State :=
  if e.pav = 0xF then
    let full := decide (65535 ≤ s.modLog.next)
    let s := { s with modLog := s.modLog.put e }.count (ctrId 0xFFFF 9 2) 1
    if full then s.count (ctrId 0xFFFF 9 3) 1 else s
  else
    let l := tget s.pavLogs e.pav {}
    let s := { s with pavLogs := tset s.pavLogs e.pav (l.put e) }.count (ctrId e.pav 8 2) 1
    if 65535 ≤ l.next then s.count (ctrId e.pav 8 3) 1 else s

/-- Post an event: into the log, and into the rings listed. -/
def State.postTo (s : State) (ks : List Nat) (e : Event) : State :=
  forEach ks (fun s k => s.ringEvent k e) (s.logEvent e)

/-- The ring sets of both physical functions. -/
def bothPf : List Nat := [ringKey 0 0, ringKey 1 0]
/-- A pavilion's ring sets on both ports (R53, R404). -/
def pavRings (p : Nat) : List Nat := [ringKey 0 (p + 1), ringKey 1 (p + 1)]

/-- Post an event of the module as a whole to both physical functions, with PAVILION 0xF. -/
def State.postModule (s : State) (code sev place : Nat) (data : List Byte) : State :=
  s.postTo bothPf { code := code, severity := sev, pav := 0xF, place := place, time := s.now, data := data }
/-- Post an event to the event rings of a pavilion. -/
def State.postPav (s : State) (p code sev place : Nat) (data : List Byte) : State :=
  s.postTo (pavRings p) { code := code, severity := sev, pav := p, place := place, time := s.now, data := data }
/-- Post an event to one ring set, with its pavilion or 0xF. -/
def State.postRing (s : State) (k code sev : Nat) (data : List Byte) : State :=
  s.postTo [k]
    { code := code, severity := sev, pav := if k % 9 = 0 then 0xF else k % 9 - 1, place := 0xFFFF
      time := s.now, data := data }

/-- The pavilion that owns a cluster. -/
def State.ownerOfCluster (s : State) (c : Nat) : Option Nat :=
  (s.pavs.find? (fun e => e.2.clusters.contains c)).map (·.1)
/-- The pavilion that owns an address (R220). -/
def State.ownerOfAddr (s : State) (a : Nat) : Option Nat :=
  (s.pavs.find? (fun e => e.2.ownsRange a 1)).map (·.1)

/-- Post to the pavilion that owns the unit, or to both physical functions (R425). -/
def State.postOwner (s : State) (o : Option Nat) (code sev place : Nat) (data : List Byte) : State :=
  match o with
  | some p => s.postPav p code sev place data
  | none => s.postModule code sev place data

/-- EV_PAVILION_STATE (R425) to the rings of the pavilion; parking reports it to one physical function. -/
def pavStateData (v : Pav) : List Byte :=
  pack [(1, pavState (some v)), (1, v.role), (1, v.homePort), (1, 0), (4, bitsMask v.clusters)]

/-! ### Completions -/

/-- A rejection, or any final status, with its parts (R72). -/
structure Rej where
  code : Nat
  reason : Nat := 0xFF
  off : Nat := 0x7FF
  inBlock : Bool := false
  /-- DETAIL as given, for statuses outside the ST_REJECT class. -/
  detail : Option Nat := none
  result : List Byte := []
  /-- With DEFER_OK = 1 the command waits for the step boundary instead (R84). -/
  defer : Bool := false
  /-- The wait ends on a condition of its own, not at the boundary (R229, R424). -/
  onCondition : Bool := false
  /-- The uncorrectable code word that ends the command with ST_FAIL_MEMORY (R502, R225). -/
  bad : Option Nat := none
  deriving DecidableEq, Repr

def stDone : Nat := 0x0000
def stDoneNote : Nat := 0x0001

/-- The completion entry of R71. -/
def completionBytes (tag status detail time : Nat) (result : List Byte) : List Byte :=
  pack [(2, tag), (2, status), (4, detail), (8, time)] ++ fit 48 result

/-- Write one entry at CQ_TAIL of a ring; NOTIFY entries count toward the message of R66. -/
def State.cqWrite (s : State) (k : Nat) (notify : Bool) (tag status detail : Nat) (result : List Byte) : State :=
  let r := s.ring k
  (s.writeMem (r.base + cqOffset + 64 * r.cqTail) (completionBytes tag status detail s.now result)).modRing k
    fun r => { r with cqTail := (r.cqTail + 1) % 2 ^ r.cqLog2, dirty := true
                      notifyNew := r.notifyNew + b2n notify }

def Cmd.key (c : Cmd) : Nat := ringKey c.port c.fn
def State.cmd (s : State) (id : Nat) : Option Cmd := s.cmds.find? (fun c => c.serial == id)
def State.modCmd (s : State) (id : Nat) (f : Cmd → Cmd) : State :=
  { s with cmds := s.cmds.map (fun c => if c.serial == id then f c else c) }

/-- Commands of a ring read and not finally completed (R58, R65). -/
def State.outstanding (s : State) (k : Nat) : Nat := (s.cmds.filter fun c => c.key == k && !c.orphan).length

/-- After the completion of RING_CLOSE: the hold of R59. -/
def State.enterCloseHold (s : State) (k : Nat) : State :=
  s.modRing k fun r => { r with isOpen := false, busy := true, closing := none, closeEnd := none, closeHold := true }

/-! ### The pointer mirror (R65) -/

/-- The 64 bytes of the pointer mirror. -/
def State.mirrorBytes (s : State) (k : Nat) (seq : BitVec 32) : List Byte :=
  let r := s.ring k
  fit 64 (pack [(4, r.sqHead), (4, r.cqTail), (4, r.eqTail), (4, r.eqDropped), (8, s.beat.toNat), (8, s.now),
    (4, r.epoch.toNat), (4, seq.toNat), (4, s.outstanding k), (1, s.roleHub 2)])

/-- Write the mirror of a ring set into host memory. The mirror of a released ring set is written once (R59): no
session then names its address any longer. -/
def State.writeMirror (s : State) (k : Nat) : State :=
  let r := s.ring k
  let seq := r.mirrorSeq + 1
  (s.hostWrite (k / 9) r.mirrorAddr (s.mirrorBytes k seq)).modRing k fun r => { r with
    mirrorSeq := seq, mirrorAt := s.clock, dirty := false
    mirrorAddr := if r.isOpen || r.closeHold then r.mirrorAddr else 0 }

def State.mirrorDue (s : State) (k : Nat) : Bool :=
  (s.ring k).ready && (s.ring k).mirrorAddr != 0 && s.canSend (k / 9) (k % 9)

/-! ### Releasing a ring set (R59) -/

/-- The release that ends the hold of R59: rings zeroed, pointers 0, a last mirror due, still allocated. -/
def State.releaseHold (s : State) (k : Nat) : State :=
  let r := s.ring k
  (s.zeroMem r.base (ringBytes + stagingBytes)).modRing k fun r =>
    { r with
      busy := false, closeHold := false, sqHead := 0, sqTail := 0, cqHead := 0, cqTail := 0, eqHead := 0
      eqTail := 0, tags := [], reserved := 0, notifyNew := 0, held := 0, eventNew := 0, droppedNew := 0
      dirty := true }

/-- The release that a RINGSET_CFG write brings about: its last mirror is written before the write acts (R57). -/
def State.endHold (s : State) (k : Nat) : State :=
  let s := s.releaseHold k
  if s.mirrorDue k then s.writeMirror k else s

/-- The final completion entry of a command (R74): it leaves the outstanding commands, gives back its reserved
entries (R64) and its TAG stays held until the entry is consumed. Nothing is written for a command whose ring set
was freed. -/
def State.finalEntry (s : State) (c : Cmd) (status detail : Nat) (result : List Byte) : State :=
  let s' := { s with
    cmds := s.cmds.filter (fun x => x.serial != c.serial), idleWait := s.idleWait.filter (· != c.serial) }
  if c.orphan then s'
  else
    let i := (s'.ring c.key).cqTail
    (s'.cqWrite c.key c.notify c.tag status detail result).modRing c.key fun r =>
      { r with
        reserved := r.reserved - c.reserved, tags := r.tags ++ [{ tag := c.tag, index := i }]
        closing := if r.closing = some c.serial then none else r.closing }

/-- DETAIL of an ST_REJECT status (R72). -/
def rejectDetail (slot : Nat) (inBlock : Bool) (off reason : Nat) : Nat :=
  slot * 2 ^ 20 + b2n inBlock * 2 ^ 19 + off * 256 + reason

/-- NOTE values in the order of precedence of R416. -/
def noteOrder : List Nat :=
  [0x0110, 0x0140, 0x0150, 0x0130, 0x0160, 0x0106, 0x0105, 0x0170, 0x0120, 0x0001, 0x0002, 0x0003]
def firstNote (l : List Nat) : Option Nat := noteOrder.find? (fun n => l.contains n)

/-! ### Allocation in the pavilion's memory (R220, R301; log 11) -/

/-- Candidate first addresses in a tier (0 HBM3E, 1 LPDDR5X): granule starts, and the ends of allocations and of retired
pages. -/
def Pav.candidates (v : Pav) (tier align : Nat) (retired : List Nat) : List Nat :=
  let gr := if tier = 0 then v.hbm.map fun g => g.1 * 2 ^ 38 + g.2 * gib
            else v.lpddr.map fun g => 2 ^ 48 + g.1 * 2 ^ 40 + g.2 * gib
  let gr := sortBy (fun a b => decide (a ≤ b)) gr
  gr ++ (v.allocs.filter fun a => decide (a.1 / 2 ^ 48 = tier)).map (fun a => cdiv (a.1 + a.2.1) align * align)
    ++ (retired.filter fun p => decide (p / 2 ^ 48 = tier)).map fun p => cdiv (p + 4096) align * align

/-- The first range of n bytes in the tier, at an allowed address, that is owned, free of allocations and of retired
pages. -/
def State.findRoom (s : State) (p tier n align : Nat) (allowed : Nat → Bool := fun _ => true) : Option Nat :=
  match s.pav p with
  | none => none
  | some v => (v.candidates tier align s.mem.retired).find? fun a =>
      allowed a && (s.badPavRange p a (max n 1)).isNone && !(v.allocs.any fun x => overlaps a n x.1 x.2.1)

def State.allocMem (s : State) (p tier n align use : Nat) (allowed : Nat → Bool := fun _ => true) : Option (Nat × State) :=
  (s.findRoom p tier n align allowed).map fun a => (a, s.modPav p fun v => { v with allocs := v.allocs ++ [(a, n, use)] })
def State.freeMem (s : State) (p a : Nat) : State :=
  s.modPav p fun v => { v with allocs := v.allocs.filter fun x => x.1 != a }

/-- Bytes of a tier (0 faster storage, 1 LPDDR5X) that a pavilion owns, outside retired pages and allocations: a core
store counts while its window is mapped (R18, R124). -/
def State.room (s : State) (v : Pav) (tier : Nat) : Nat :=
  let windows := (v.clusters.flatMap fun c => (List.range 6).map fun j => 6 * c + j).filter (s.unitMapped 3)
  let own := if tier = 0 then
      gib * v.hbm.length + mib * v.dstore.length + 224 * mib * v.clusters.length + 4 * mib * windows.length
    else gib * v.lpddr.length
  let inTier := fun (a : Nat) => (addrWin a == 1) == (tier == 1)
  let retired := s.mem.retired.filter fun p =>
    inTier p && v.ownsRange p 4096 && !(v.allocs.any fun x => overlaps p 4096 x.1 x.2.1)
  own - 4096 * retired.length - sumNat ((v.allocs.filter fun a => inTier a.1).map fun a => a.2.1)

/-! ### Freeing a ring set (R57, R74, R414, R467) -/

/-- Free the ring set: its commands that have not started are discarded, those that have run on without an entry. Its
registers keep what is not the ring set's: RINGSET_CFG as last written, SESSION_EPOCH and FRESET_STATUS. -/
def State.freeRing (s : State) (k : Nat) : State :=
  let r := s.ring k
  let keep := s.cmds.filter fun c => !(c.key == k && (c.phase != .started || c.opcode == 0x0002) && !c.orphan)
  let s := { s with cmds := keep.map fun (c : Cmd) => if c.key == k then { c with orphan := true } else c }
  let s := if r.ready then s.zeroMem r.base (ringBytes + stagingBytes) else s
  let s := if r.ready && k % 9 != 0 then s.freeMem (k % 9 - 1) r.base else s
  { s with rings := tset s.rings k {
      enable := r.enable, cfgSizes := r.cfgSizes, epoch := r.epoch, startPosted := r.startPosted, frTarget := r.frTarget
      frStatus := r.frStatus } }

/-- The ring set's part of a function's reset (R467): it is freed, and its registers read their Reset values (R7). -/
def State.resetRing (s : State) (k : Nat) : State :=
  (s.freeRing k).modRing k fun r => { startPosted := r.startPosted }

/-- End a RING_CLOSE that waits, once it is the only command of its ring: the session ends whatever its status (R59). A
ring set that RINGSET_CFG disabled in an open session is released and freed once no command of it is left (R90). -/
def State.closeCheck (s : State) (k : Nat) : State :=
  let others := fun (s : State) (id : Nat) => s.cmds.any fun x => x.key == k && x.serial != id && !x.orphan
  let s := match (s.ring k).closing.bind s.cmd with
    | none => s
    | some c =>
      if c.phase = .started ∧ !others s c.serial then
        let e := (s.ring k).closeEnd.getD (stDone, 0)
        (s.finalEntry c e.1 e.2 []).enterCloseHold k
      else s
  if (s.ring k).draining && s.outstanding k == 0 then ((s.enterCloseHold k).endHold k).freeRing k else s

/-- Complete a command with any status and DETAIL. -/
def State.complete (s : State) (c : Cmd) (status detail : Nat) (result : List Byte) : State :=
  (s.finalEntry c status detail result).closeCheck c.key

/-- Record in the log the notes that DETAIL does not carry (R416, R496). -/
def State.recordNotes (s : State) (c : Cmd) (notes : List Nat) : State :=
  forEach notes (fun s n => s.logEvent
    { code := 0x0D01, severity := 0, pav := c.pavilion, place := 0xFFFF, time := s.now
      data := pack [(2, n), (2, c.tag), (2, c.opcode)] }) s

/-- Complete with ST_DONE, or with ST_DONE_NOTE when a NOTE applies (R72, R416). -/
def State.finish (s : State) (c : Cmd) (result : List Byte) (detail : Nat := 0) (low : Nat := 0xFFFF) : State :=
  match firstNote c.notes with
  | none => s.complete c stDone detail result
  | some n => (s.recordNotes c (c.notes.filter (· != n))).complete c stDoneNote (n * 65536 + low) result

/-- Complete with an ST_REJECT status. -/
def State.reject (s : State) (c : Cmd) (r : Rej) : State :=
  s.complete c r.code (r.detail.getD (rejectDetail c.slot r.inBlock r.off r.reason)) r.result

/-- ST_FAIL: the PLACE_ID of the failing unit and the opcode's own bits (R72). -/
def State.fail (s : State) (c : Cmd) (status place low : Nat) (result : List Byte := []) : State :=
  s.complete c status (place * 65536 + low) result

/-- ST_ABORT: the TARGET that caused it and the TAG of the causing command when it is on the same ring (R72). -/
def State.abort (s : State) (c : Cmd) (status target : Nat) (cause : Option Cmd) : State :=
  let tag := match cause with
    | some x => if x.key = c.key then x.tag else 0xFFFF
    | none => 0xFFFF
  s.complete c status (target * 65536 + tag) []

/-- Act on every command that a condition names and that is still there when its turn comes, in order of reading. -/
def State.forCmds (s : State) (f : Cmd → Bool) (g : State → Cmd → State) : State :=
  forEach ((s.cmds.filter f).map (·.serial)) (fun s id => match s.cmd id with
    | some c => g s c
    | none => s) s

/-- Complete every command that a condition names. -/
def State.abortAll (s : State) (f : Cmd → Bool) (status target : Nat) (cause : Option Cmd) : State :=
  s.forCmds f fun s c => s.abort c status target cause

/-- Post ST_DEFERRED (R84): the interim entry uses one of the two reserved entries. -/
def State.deferCmd (s : State) (c : Cmd) (onCondition : Bool) : State :=
  let ahead := (s.cmds.filter fun x => x.phase == .deferred && x.pavilion == c.pavilion).length
  let s := (s.cqWrite c.key c.notify c.tag 0x0400 ahead []).modRing c.key fun r => { r with reserved := r.reserved - 1 }
  -- deferred commands run in the order in which they were deferred
  let c' := { c with phase := .deferred, reserved := c.reserved - 1 }
  { s with
    cmds := s.cmds.filter (fun x => x.serial != c.serial) ++ [c']
    idleWait := if onCondition then s.idleWait ++ [c.serial] else s.idleWait }

/-! ### Uncorrectable memory errors (R224 to R227) -/

/-- A retirement record as its 32 bytes (R227). -/
def retBytes (r : RetRec) : List Byte :=
  leBytes 10 0 ++ pack [(2, sat16 r.corrections), (1, r.state), (1, r.cause), (2, r.place), (8, r.time), (8, r.address)]

/-- The retirement list in the order of retirement: the records kept, but for those that a newer one replaces, then those
that still go to the flash (R226, R230). -/
def State.retireList (s : State) : List RetRec :=
  (s.flash.retire.filter fun r => !(s.mem.toFlash.any fun x => x.address == r.address)) ++ s.mem.toFlash

/-- Put a record at the end of the retirement list in place of the page's older one. A full list takes no new page, which
is reported once (R226). -/
def State.listPage (s : State) (r : RetRec) : State :=
  let l := s.retireList
  if 16384 ≤ l.length ∧ !(l.any fun x => x.address == r.address) then
    let s1 := s.modMem fun m => { m with listFullPosted := true }
    if s.mem.listFullPosted then s1 else s1.postModule 0x0204 1 0xFFFF []
  else s.modMem fun m => { m with toFlash := m.toFlash.filter (fun x => x.address != r.address) ++ [r] }

/-- A new record of a page in a state. -/
def State.retRec (s : State) (p cause state : Nat) : RetRec :=
  { address := p, time := s.now, place := s.placeOfAddr p, cause := cause, state := state
    corrections := sat16 (tget s.mem.corrections p {}).count }

/-- Evidence for the health score, by kind: the first six rows of R398 in their order from 0, and 6 for each disagreement
that arises, which HEALTH_REPORT counts (R399). -/
def State.fact (s : State) (kind : Nat) : State := s.modCheck fun k => { k with facts := k.facts ++ [(kind, s.clock)] }

/-- Retire the page that holds an address, once, with its record (R224 step 2, R226, R245). -/
def State.retirePage (s : State) (a cause : Nat) : State :=
  let p := pageOf a
  if s.mem.retired.contains p then s
  else
    let r := s.retRec p cause 1
    let s := (s.modMem fun m => { m with retired := m.retired ++ [p], onRelease := m.onRelease.filter (· != p) }).count
      (ctrId r.place 5 4) 1
    let s := if cause = 3 then s.fact 5 else s
    (s.listPage r).postOwner (s.ownerOfAddr a) 0x0202 1 r.place (retBytes r)

/-- A correctable error: counted against its page; the threshold of R222 marks a page outside HBM3E to retire on
release. -/
def State.corrected (s : State) (a : Nat) : State :=
  let p := pageOf a
  let x := tget s.mem.corrections p {}
  let day := 86400000000000
  let times := (x.times.filter fun t => decide (s.now < t + day)) ++ [s.now]
  let s := (s.count (ctrId (s.placeOfAddr a) 5 0) 1).modMem fun m => { m with
    corrections := tset m.corrections p { count := x.count + 1, times := times } }
  if times.length < 8 ∨ addrWin a = 0 ∨ s.mem.onRelease.contains p ∨ s.mem.retired.contains p then s
  else if inReserved a 1 ∧ addrWin a = 4 then s
  else (s.listPage (s.retRec p 3 2)).modMem fun m => { m with onRelease := m.onRelease ++ [p] }

/-- Pages marked to retire on release retire as their memory is released (R222). -/
def State.releasePages (s : State) (released : Nat → Bool) : State :=
  forEach (s.mem.onRelease.filter released) (fun s p => s.retirePage p 3) s

/-- A read of the words that `reads` names meets those in error (R221, R222, R224): a word with one wrong bit or symbol is
corrected and counted; one with more stays uncorrectable for whoever reads it (log 45). -/
def State.meet (s : State) (errs : MemErrors) (reads : Nat → Bool) : State :=
  forEach errs (fun s e =>
    let w := e.1 - e.1 % codeWord e.1
    if e.2 = 0 || !reads w || s.mem.bad.contains w || s.mem.retired.contains (pageOf w) then s
    else if e.2 = 1 then s.corrected w
    else s.modMem fun m => { m with bad := addNew m.bad w }) s
/-- The same for one range. -/
def State.meetIn (s : State) (errs : MemErrors) (a n : Nat) : State :=
  s.meet errs fun w => overlaps w (codeWord w) a n

/-- A read has met an uncorrectable code word: the page retires and EV_MEM_UNCORRECTABLE is posted (R224). -/
def State.memError (s : State) (w kind : Nat) : State :=
  let place := s.placeOfAddr w
  let s := ((s.count (ctrId place 5 1) 1).fact 4).retirePage w (if kind = 1 then 1 else 2)
  s.postOwner (s.ownerOfAddr w) 0x0201 2 place (pack [(8, w), (1, kind)])

/-- ST_FAIL_MEMORY for a command that read the word (R72, R224). -/
def State.failMemory (s : State) (c : Cmd) (w : Nat) : State :=
  (s.memError w 1).fail c 0x0202 (s.placeOfAddr w) 0xFFFF (pack [(8, w)])

/-! ### Starting a command that was read (R73, R82 to R86, R406, R503) -/

abbrev Chk := Except Rej

/-- Reject unless a condition holds. -/
def need (ok : Bool) (r : Rej) : Chk Unit := if ok then .ok () else .error r

/-- Parameter word i of the selected layout. -/
def Cmd.word (c : Cmd) (i : Nat) : Nat := c.params.getD i 0
/-- OFFSET and IN_BLOCK of parameter word i (R72): the inline area starts at word 4 of the slot. -/
def Cmd.offOf (c : Cmd) (i : Nat) : Nat := if c.paramRef = 0 then 4 + i else i
def Cmd.bad (c : Cmd) (code : Nat) (i : Nat) (reason : Nat := 0xFF) : Rej :=
  { code := code, reason := reason, off := c.offOf i, inBlock := c.paramRef != 0 }
/-- ST_REJECT_PARAM for parameter word i. -/
def Cmd.badParam (c : Cmd) (i : Nat) : Rej := c.bad 0x0102 i
/-- ST_REJECT_ADDRESS for the address in parameter word i (R502). -/
def Cmd.badAddr (c : Cmd) (i reason : Nat) : Rej :=
  { c.bad 0x01A0 i reason with result := pack [(4, 0xFFFFFFFF)] }
def stReject (code reason : Nat) : Rej := { code := code, reason := reason }
def stState (reason : Nat) : Rej := { code := 0x0108, reason := reason }

/-- The check of R502 on a range that parameter word i names, after its alignment. -/
def State.checkAddr (s : State) (c : Cmd) (i a n align : Nat) : Chk Unit := do
  need (a % align == 0) (c.badParam i)
  match s.badRange c.port c.fn a n with
  | some r => .error (c.badAddr i r)
  | none => .ok ()

/-- The rejection that stands for ST_FAIL_MEMORY at a code word (R224, R502). -/
def stMemory (w : Nat) : Rej := { code := 0x0202, bad := some w }

/-- Write to a buffer that a parameter names after the checks of R502; a write that covers an uncorrectable code word in
part meets it (R225). -/
def State.toBuffer (s : State) (c : Cmd) (i a : Nat) (l : List Byte) (align : Nat) : Chk State := do
  s.checkAddr c i a l.length align
  match s.partialBad a l.length with
  | some w => .error (stMemory w)
  | none => .ok (s.writeMem a l)

/-- The pavilion of a virtual function. -/
def Cmd.own (c : Cmd) : Option Nat := if c.fn = 0 then none else some (c.fn - 1)

/-- Read-only opcodes that a parked or stopped pavilion still serves (R406). -/
def readOnlyOp (o : Nat) : Bool :=
  o / 256 == 0x0D || [0x0103, 0x0418, 0x0701, 0x0A02, 0x0910].contains o

/-- The gate of a pavilion's state (R406). Class 0x00 acts on its ring set alone (R70). A FENCED pavilion rejects
every new command (R337) but the FENCE_SET that lifts its fence. RESHAPE_ABORT is accepted after an emergency stop in
OPEN (R316). -/
def pavGate (v : Option Pav) (c : Cmd) : Option Rej :=
  if c.opcode / 256 = 0 ∨ c.pavilion = 0xF then none
  else match pavState v with
    | 3 => if readOnlyOp c.opcode || [0x0101, 0x0102, 0x0110, 0x0303, 0x0304].contains c.opcode
             || (c.opcode == 0x0432 && v.any fun v => v.reshape.state == 1) then none
           else some (stState 9)
    | 4 => if c.opcode = 0x0510 then none else some (stReject 0x010D 0xFF)
    | 2 => if readOnlyOp c.opcode || [0x0101, 0x0102, 0x0110, 0x0121].contains c.opcode then none
           else some (stState 3)
    | _ => none

/-- The DEADLINE comparison at the start (R85, R503). -/
def State.deadlineCheck (s : State) (c : Cmd) : Option Rej :=
  if c.deadline = 0 then none
  else if !s.timeOn then some { stReject 0x01F0 1 with off := 2 }
  else if s.now > c.deadline then some { stReject 0x0109 0xFF with off := 2 }
  else none

/-- Whether a command may start now (R82, R83, R78, R88). Every earlier command of its ring that is neither deferred nor
started holds it back, but that a hot command passes firmware-path ones while no scheduler core runs (log 21). A FENCE
command waits for every earlier one of its ring, and nothing starts behind an unfinished FENCE. Commands of class 0x01
that name one pavilion run one at a time, over both ports. The firmware path needs the scheduler role. A deferred
command starts at its step boundary, or tries the IDLE condition that it waits for (R229, R424). -/
def State.mayStart (s : State) (c : Cmd) : Bool :=
  let earlier := s.cmds.filter fun x => x.key == c.key && decide (x.serial < c.serial) && !x.orphan
  (c.phase == .accepted || (c.phase == .deferred && (c.atBoundary || s.idleWait.contains c.serial)))
    && (c.hot || s.roleUp 2)
    && (c.phase == .deferred || earlier.all fun x => x.phase != .accepted || (c.hot && !x.hot && !s.roleUp 2))
    && (!c.fence || earlier.isEmpty)
    && (earlier.all fun x => !x.fence)
    && (c.opcode / 256 != 1 || !s.cmds.any fun x =>
      x.opcode / 256 == 1 && x.phase == .started && x.pavilion == c.pavilion && x.serial != c.serial)

/-- Whether a command that must wait is deferred (R84): it asks for it, it has not been deferred yet, and its DEADLINE can
be compared at its start (R503). -/
def State.defers (s : State) (c : Cmd) (r : Rej) : Bool :=
  r.defer && c.deferOk && c.phase == .accepted && (c.deadline == 0 || s.timeOn)

/-- Start the command `id` if it is an outstanding command of the opcode that may start; the pavilion gate comes first,
then the DEADLINE at its start (R85), then the opcode's own body. A body that rejects leaves the state as it was, and
where the rejection allows it DEFER_OK turns it into a deferral, whose start is the step boundary. -/
def State.startCmd (s : State) (id opcode : Nat) (body : State → Cmd → Chk State) : State :=
  match s.cmd id with
  | none => s
  | some c =>
    if c.opcode != opcode || !s.mayStart c then s
    else
      match pavGate (s.pav c.pavilion) c with
      | some r => s.reject c r
      | none =>
        let waits := s.idleWait.contains c.serial
        let late := if c.phase == .deferred && !waits then none else s.deadlineCheck c
        match body s c with
        | .ok s' => match late with
          | some e => s.reject c e
          | none => s'
        | .error r =>
          if r.onCondition && waits then s
          else if s.defers c r then s.deferCmd c r.onCondition
          else match late, r.bad with
            | some e, _ => s.reject c e
            | none, some w => s.failMemory c w
            | none, none => s.reject c r

/-- Mark a command as started; it completes later (its effect goes on). -/
def State.started (s : State) (c : Cmd) : State :=
  s.modCmd c.serial fun c => { c with phase := .started, startedAt := s.now }

/-- The losses of R263 at a microsecond of building time: a core island under its thermal ceiling, or else under its
power-cap ceiling, adds its missing MHz. A store-only core counts nothing, and a core out of service keeps its counts
(R264). -/
def State.throttle (s : State) : State :=
  forEach (s.isles.filter fun e => decide (e.1 < 192) && (e.2.thermal || e.2.capped)) (fun s e =>
    if s.isStoreOnly e.1 || (s.core e.1).failed || (s.core e.1).retired then s
    else s.count (ctrId (placeCore e.1 5) 0 (if e.2.thermal then 9 else 8)) (e.2.targetMhz - e.2.run16 / 16)) s

/-- The block idles: one nanosecond of the local oscillator, and of building time at its steered rate while it runs
(R365; log 3). -/
def State.idle (s : State) : State :=
  let before := s.time.btime / 1000
  let s := s.modTime fun t =>
    let acc := t.part + (1000000000 + t.ratePpb).toNat
    if t.state = 0 then { t with localNs := t.localNs + 1, elapsed := t.elapsed + 1 }
    else { t with
      localNs := t.localNs + 1, elapsed := t.elapsed + acc / 1000000000
      btime := t.btime + acc / 1000000000, part := acc % 1000000000 }
  if before < s.time.btime / 1000 then s.throttle else s

/-- The result words that opcodes use most: a list of widths and values from byte 16 on. -/
def res (l : List (Nat × Nat)) : List Byte := pack l

end Sys2Proof.Machine
end

