-- ==== Sys2Proof/Machine/Egress.lean ====
section
/-! DEFINITION. The egress of a link port (R322, R323, R353): what waits for a port, in which order it is served, the
replay buffer, and sending what the module's own units send. -/

namespace Sys2Proof.Machine

/-- The module's DEVICE_ID: SELF_ID of the active route plane; 0xFFFF without one (R326, R333). -/
def State.ownId (s : State) : Nat := match s.route.active with
  | some pl => pl.selfId
  | none => 0xFFFF

/-- The physical port of a logical link: the two ports of a reversed axis change places (R330). -/
def State.physLink (s : State) (l : Nat) : Nat := if (s.axis (l % 3)).reversed then (l + 3) % 6 else l

/-! ### The order of service (R353, log 52) -/

/-- Flits that a port keeps unacknowledged at most (R322). -/
def flitWindow : Nat := 24576
/-- Flits of one packet at most (R331). -/
def packetFlits : Nat := 16

/-- Flits served to an operation since it began to wait. -/
def Link.share (k : Link) (flow : Nat) : Nat := tget k.served flow 0

/-- The collective operation that has waited with the fewest flits served. -/
def Link.leastServed (k : Link) : Option Nat :=
  (k.queue.filter (·.cls == 2)).foldl (fun a w => match a with
    | none => some w.flow
    | some f => if k.share w.flow < k.share f then some w.flow else a) none

/-- The place in the queue of what a port serves next: class 1 first; class 3 while it has had less than a tenth of the
flits since it began to wait; else the collective operation with the smallest share. -/
def Link.nextServed (k : Link) : Option Nat :=
  match k.queue.findIdx? (·.cls == 1), k.queue.findIdx? (·.cls == 3), k.leastServed with
  | some i, _, _ => some i
  | none, some i, none => some i
  | none, some i, some f =>
    if 10 * k.lowFlits ≤ k.allFlits then some i else k.queue.findIdx? fun w => w.cls == 2 && w.flow == f
  | none, none, some f => k.queue.findIdx? fun w => w.cls == 2 && w.flow == f
  | none, none, none => none

/-- Room in the window of unacknowledged flits. -/
def Link.roomFor (k : Link) (n : Nat) : Bool := decide ((k.sendSeq - k.ackSeq).toNat + n ≤ flitWindow)

/-- Send n flits of the waiting message i. The sums of the classes run while class 3 has packets waiting, those of an
operation while it has. -/
def Link.serve (k : Link) (i n : Nat) (w : Waiting) : Link :=
  let queue := if w.left ≤ n then k.queue.eraseIdx i else k.queue.set i { w with left := w.left - n }
  let low := queue.any (·.cls == 3)
  let served := if w.cls = 2 then tset k.served w.flow (k.share w.flow + n) else k.served
  { k with
    queue := queue, sendSeq := k.sendSeq + BitVec.ofNat 16 n
    replay := if w.left ≤ n then k.replay ++ [(k.sendSeq + BitVec.ofNat 16 (n - 1), w.what)] else k.replay
    served := served.filter fun x => queue.any fun y => y.cls == 2 && y.flow == x.1
    lowFlits := if !low then 0 else k.lowFlits + (if w.cls = 3 then n else 0)
    allFlits := if !low then 0 else k.allFlits + n }

/-- Serve the packets that wait, one after another, while the window has room for the next. -/
def State.serveLink (s : State) (l : Nat) : Nat → State
  | 0 => s
  | fuel + 1 =>
    let k := s.link l
    match k.nextServed.bind fun i => (k.queue[i]?).map fun w => (i, w) with
    | none => s
    | some (i, w) =>
      let n := min packetFlits (max 1 w.left)
      if !k.roomFor n then s
      else
        let s := (s.modLink l fun k => k.serve i n w).count (ctrId (placeLink l) 7 0) n
        let s := if w.left ≤ n then ((w.counts.map fun c => s.count c.1 c.2).getD s).emit w.what else s
        s.serveLink l fuel

/-- Serve what waits for a port whose link is up. -/
def State.flushLink (s : State) (l : Nat) : State :=
  let k := s.link l
  if k.state ≠ 2 then s
  else s.serveLink l (sumNat (k.queue.map fun w => cdiv (max 1 w.left) packetFlits))

/-- Let a message wait for a port. An operation that begins to wait starts from the smallest share of those that do. -/
def State.queueFor (s : State) (l : Nat) (w : Waiting) : State :=
  (s.modLink l fun k =>
    let least := (k.leastServed.map k.share).getD 0
    { k with
      queue := k.queue ++ [w]
      served := if w.cls = 2 ∧ (tfind k.served w.flow).isNone then tset k.served w.flow least else k.served }).flushLink l

/-- The operation of a collective message: JOB_ID and OP_INDEX of its header (R352). -/
def collFlow (job op : Nat) : Nat := job * 2 ^ 24 + op

/-- The class of a packet in transit, and its operation (R353). -/
def pktClass (k : Pkt) : Nat :=
  if k.partition = 0 ∨ k.type = 0x30 then 1 else if 0x20 ≤ k.type ∧ k.type ≤ 0x24 then 2 else 3
def pktFlow (k : Pkt) : Nat := collFlow (field k.payload 20 4) (field k.payload 13 3)

/-- Queue a packet for a port. -/
def State.queuePacket (s : State) (l : Nat) (k : Pkt) : State :=
  s.queueFor l { what := .packet l k, cls := pktClass k, flow := pktFlow k, partition := k.partition, left := k.len + 1, since := s.clock }

/-- Class and operation of a message of the module's own units. -/
def Emission.flow : Emission → Option Nat
  | .coll _ _ m => some (collFlow m.job m.opIndex)
  | _ => none

/-- Send a message of a pavilion's units to a module: by the route entry of the active plane, within the partition
(R336), outside a fence (R337), in its turn at the port (R353). What is not sent is counted (R495). `t` is the collective
engine's index of the TYPE. -/
def State.trySend (s : State) (p dest bytes t : Nat) (e : Emission) : State :=
  match s.route.active, s.pav p with
  | some pl, some v => match tfind pl.entries dest with
    | none => s
    | some r =>
      if r.partition ≠ 0xFFF ∧ r.partition ≠ v.partition then s.count (ctrId p 8 4) 1
      -- every TYPE that a pavilion's units send is of level 3 (R327)
      else if 6 ≤ r.port ∨ r.level2 then s
      else
        let l := s.physLink r.port
        if s.route.fences.contains v.partition then s.count (ctrId (placeLink l) 7 5) 1
        else s.queueFor l {
          what := e, cls := if e.flow.isSome then 2 else 3, flow := e.flow.getD 0, partition := v.partition
          left := cdiv bytes 240, since := s.clock, counts := some (ctrId (placeHub (l / 3) 6 0) 6 (2 * t), bytes) }
  | _, _ => s

/-- A message for a pavilion of a fenced partition is dropped at the port (R337). -/
def State.shut (s : State) (p : Nat) : Bool := (s.pav p).any fun v => s.route.fences.contains v.partition

/-- Whether the active plane marks a destination as speaking level 2 only (R327). -/
def State.levelTwo (s : State) (dest : Nat) : Bool :=
  s.route.active.any fun pl => (tfind pl.entries dest).any (·.level2)
/-- The active plane routes packets for a module to a port (R333). -/
def State.routed (s : State) (dest : Nat) : Bool :=
  s.route.active.any fun pl => (tfind pl.entries dest).any fun r => decide (r.port < 6)
/-- Level-3 packets can be sent to a module. -/
def State.reaches (s : State) (dest : Nat) : Bool := s.routed dest && !s.levelTwo dest

end Sys2Proof.Machine
end

