-- ==== Sys2Proof/Machine/Float.lean ====
section
/-! DEFINITION. Number formats, rounding, conversions and correctly rounded functions (R157 to R171, R202). -/

namespace Sys2Proof.Machine

/-! ### Exact values -/

/-- A decoded value: NaN, an infinity, or (-1)^neg × m × 2^e exactly. -/
inductive Val where
  | nan
  | inf (neg : Bool)
  | fin (neg : Bool) (m : Nat) (e : Int)
  deriving DecidableEq, Repr

def Val.zero : Val := .fin false 0 0
def Val.one : Val := .fin false 1 0
def Val.ofNat (n : Nat) : Val := .fin false n 0
def Val.ofInt (i : Int) : Val := .fin (decide (i < 0)) i.natAbs 0

def Val.isNan : Val → Bool
  | .nan => true
  | _ => false
def Val.isFin : Val → Bool
  | .fin _ _ _ => true
  | _ => false
def Val.isZero : Val → Bool
  | .fin _ m _ => m == 0
  | _ => false

def Val.neg : Val → Val
  | .nan => .nan
  | .inf s => .inf !s
  | .fin s m e => .fin (!s) m e

def Val.abs : Val → Val
  | .nan => .nan
  | .inf _ => .inf false
  | .fin _ m e => .fin false m e

/-- Multiply by 2^k exactly. -/
def Val.scale2 (k : Int) : Val → Val
  | .fin s m e => .fin s m (e + k)
  | v => v

/-- The exact product, with the special cases of R170 and the sign of R159. -/
def Val.mul : Val → Val → Val
  | .nan, _ => .nan
  | _, .nan => .nan
  | .inf s, .inf t => .inf (s != t)
  | .inf s, .fin t m _ => if m = 0 then .nan else .inf (s != t)
  | .fin s m _, .inf t => if m = 0 then .nan else .inf (s != t)
  | .fin s m e, .fin t n f => .fin (s != t) (m * n) (e + f)

/-- The signed integer of a finite value at the exponent f ≤ e. -/
def signedAt (s : Bool) (m : Nat) (e f : Int) : Int :=
  let n : Int := (m * 2 ^ (e - f).toNat : Nat)
  if s then -n else n

/-- The exact sum: an exact zero is +0 unless both terms are -0 (R159). -/
def Val.add : Val → Val → Val
  | .nan, _ => .nan
  | _, .nan => .nan
  | .inf s, .inf t => if s = t then .inf s else .nan
  | .inf s, .fin _ _ _ => .inf s
  | .fin _ _ _, .inf t => .inf t
  | .fin s m e, .fin t n f =>
    if m = 0 ∧ n = 0 then .fin (s && t) 0 0
    else
      let g := min e f
      let x := signedAt s m e g + signedAt t n f g
      .fin (decide (x < 0)) x.natAbs g

def Val.sub (a b : Val) : Val := a.add b.neg

/-- Sign of the comparison of two values that are not NaN: -1, 0 or 1. -/
def Val.cmp : Val → Val → Int
  | .inf s, .inf t => if s = t then 0 else if s then -1 else 1
  | .inf s, _ => if s then -1 else 1
  | _, .inf t => if t then 1 else -1
  | .fin s m e, .fin t n f =>
    let g := min e f
    (signedAt s m e g - signedAt t n f g).sign
  | _, _ => 0

def Val.lt (a b : Val) : Bool := !a.isNan && !b.isNan && a.cmp b == -1
def Val.le (a b : Val) : Bool := !a.isNan && !b.isNan && a.cmp b != 1
def Val.eq (a b : Val) : Bool := !a.isNan && !b.isNan && a.cmp b == 0

/-- The quotient to 70 bits beyond the divisor, with a last bit for what is left: rounding it to any format
gives the rounding of the exact quotient. Specials are those of IEEE 754 (R169, R202). -/
def Val.div : Val → Val → Val
  | .nan, _ => .nan
  | _, .nan => .nan
  | .inf _, .inf _ => .nan
  | .inf s, .fin t _ _ => .inf (s != t)
  | .fin s _ _, .inf t => .fin (s != t) 0 0
  | .fin s m e, .fin t n f =>
    if n = 0 then (if m = 0 then .nan else .inf (s != t))
    else if m = 0 then .fin (s != t) 0 0
    else
      let k := n.log2 + 70
      let x := m * 2 ^ k
      .fin (s != t) (2 * (x / n) + b2n (x % n != 0)) (e - f - (k + 1 : Nat))

/-- Integer square root by bits, from bit i downward. -/
def isqrtFrom (x : Nat) : Nat → Nat → Nat
  | 0, r => if (r + 1) * (r + 1) ≤ x then r + 1 else r
  | i + 1, r => let c := r + 2 ^ (i + 1); isqrtFrom x i (if c * c ≤ x then c else r)
def isqrt (x : Nat) : Nat := isqrtFrom x (x.log2 / 2 + 1) 0

def Val.sqrt : Val → Val
  | .nan => .nan
  | .inf s => if s then .nan else .inf false
  | .fin s m e =>
    if m = 0 then .fin s 0 0
    else if s then .nan
    else
      let k : Nat := if (e - 140) % 2 = 0 then 140 else 141
      let x := m * 2 ^ k
      let r := isqrt x
      .fin false (2 * r + b2n (r * r != x)) ((e - k) / 2 - 1)

def Val.rsqrt : Val → Val
  | .nan => .nan
  | .inf s => if s then .nan else .fin false 0 0
  | .fin s m e =>
    if m = 0 then .inf s
    else if s then .nan
    else
      -- 1/√(m 2^e) with e made even
      let (m, e) := if e % 2 = 0 then (m, e) else (2 * m, e - 1)
      let k := m.log2 + 80
      let r := isqrt (2 ^ (2 * k) / m)
      .fin false (2 * r + b2n (r * r * m != 2 ^ (2 * k))) (-(e / 2) - k - 1)

/-! ### Rounding and formats (R157, R162, R164) -/

/-- m ÷ 2^n to the nearest integer, ties to even. -/
def rne (m n : Nat) : Nat :=
  if n = 0 then m
  else
    let q := m / 2 ^ n
    let r := m % 2 ^ n
    let h := 2 ^ (n - 1)
    if r > h ∨ (r = h ∧ q % 2 = 1) then q + 1 else q

/-- A floating-point format: significand bits with the hidden one, exponent of the smallest subnormal, code
width, largest finite magnitude code, infinity magnitude code, canonical NaN code. -/
structure FFmt where
  p : Nat
  lsb : Int
  width : Nat
  maxFin : Nat
  inf : Option Nat
  nan : Nat
  deriving DecidableEq, Repr

def fE2M1 : FFmt := { p := 2, lsb := -1, width := 4, maxFin := 7, inf := none, nan := 0 }
def fE4M3 : FFmt := { p := 4, lsb := -9, width := 8, maxFin := 0x7E, inf := none, nan := 0x7F }
def fE5M2 : FFmt := { p := 3, lsb := -16, width := 8, maxFin := 0x7B, inf := some 0x7C, nan := 0x7E }
def fBf16 : FFmt := { p := 8, lsb := -133, width := 16, maxFin := 0x7F7F, inf := some 0x7F80, nan := 0x7FC0 }
def fF16 : FFmt := { p := 11, lsb := -24, width := 16, maxFin := 0x7BFF, inf := some 0x7C00, nan := 0x7E00 }
def fF32 : FFmt := { p := 24, lsb := -149, width := 32, maxFin := 0x7F7FFFFF, inf := some 0x7F800000, nan := 0x7FC00000 }

/-- The value of a code (R157). -/
def FFmt.dec (f : FFmt) (code : Nat) : Val :=
  let s := code.testBit (f.width - 1)
  let mag := code % 2 ^ (f.width - 1)
  if f.maxFin < mag then (if f.inf = some mag then .inf s else .nan)
  else
    let e := mag / 2 ^ (f.p - 1)
    let m := mag % 2 ^ (f.p - 1)
    if e = 0 then .fin s m f.lsb else .fin s (m + 2 ^ (f.p - 1)) (f.lsb + e - 1)

/-- The magnitude code of m × 2^e rounded to the significand width with no upper limit on the exponent. -/
def FFmt.magCode (f : FFmt) (m : Nat) (e : Int) : Nat :=
  if m = 0 then 0
  else
    let l := max (e + (m.log2 + 1 : Nat) - f.p) f.lsb
    let q := if l ≤ e then m * 2 ^ (e - l).toNat else rne m (l - e).toNat
    (l - f.lsb).toNat * 2 ^ (f.p - 1) + q

/-- The conversion of R164: overflow saturates or gives an infinity, or the NaN of a format without one. -/
def FFmt.enc (f : FFmt) (sat : Bool) (v : Val) : Nat :=
  let sg := fun (s : Bool) (mag : Nat) => mag + (if s then 2 ^ (f.width - 1) else 0)
  match v with
  | .nan => f.nan
  | .inf s => match f.inf with
    | some i => sg s i
    | none => if sat then sg s f.maxFin else f.nan
  | .fin s m e =>
    let c := f.magCode m e
    if c ≤ f.maxFin then sg s c
    else if sat then sg s f.maxFin
    else match f.inf with
      | some i => sg s i
      | none => f.nan

/-! ### binary32 arithmetic on codes -/

def d32 (c : Nat) : Val := fF32.dec c
def r32 (v : Val) : Nat := fF32.enc false v
def isNan32 (c : Nat) : Bool := (d32 c).isNan
def nan32 : Nat := 0x7FC00000
def one32 : Nat := 0x3F800000
def half32 : Nat := 0x3F000000

def add32 (a b : Nat) : Nat := r32 ((d32 a).add (d32 b))
def sub32 (a b : Nat) : Nat := r32 ((d32 a).sub (d32 b))
def mul32 (a b : Nat) : Nat := r32 ((d32 a).mul (d32 b))
def div32 (a b : Nat) : Nat := r32 ((d32 a).div (d32 b))
def fma32 (a b c : Nat) : Nat := r32 (((d32 a).mul (d32 b)).add (d32 c))
def neg32 (a : Nat) : Nat := r32 (d32 a).neg
def abs32 (a : Nat) : Nat := r32 (d32 a).abs
def sqrt32 (a : Nat) : Nat := r32 (d32 a).sqrt
def rsqrt32 (a : Nat) : Nat := r32 (d32 a).rsqrt
def recip32 (a : Nat) : Nat := r32 (Val.one.div (d32 a))
/-- Division by an exact integer, rounded once (R206). -/
def divNat32 (a n : Nat) : Nat := r32 ((d32 a).div (Val.ofNat n))

/-- IEEE 754-2019 maximum and minimum; maximum(+0, -0) is +0 (R202, R205). -/
def max32 (a b : Nat) : Nat :=
  match d32 a, d32 b with
  | .nan, _ => nan32
  | _, .nan => nan32
  | x, y => if x.isZero && y.isZero then (if a = 0 ∨ b = 0 then 0 else 0x80000000)
            else if x.lt y then b else a
def min32 (a b : Nat) : Nat :=
  match d32 a, d32 b with
  | .nan, _ => nan32
  | _, .nan => nan32
  | x, y => if x.isZero && y.isZero then (if a = 0 ∧ b = 0 then 0 else 0x80000000)
            else if y.lt x then b else a

/-- The nearest integer, ties to even, with the operand's sign on a zero. -/
def roundEven32 (a : Nat) : Nat :=
  match d32 a with
  | .fin s m e => if 0 ≤ e then a else r32 (.fin s (rne m (-e).toNat) 0)
  | v => r32 v

/-- A sum formed exactly from all its terms and rounded once (R180): an exact zero is -0 only when every term is. -/
def exactSum (l : List Val) : Nat :=
  match l with
  | [] => 0
  | v :: t => r32 (t.foldl Val.add v)

/-! ### Elementary functions, correctly rounded (R202; log 10)

Each is evaluated in fixed point with 320 fraction bits and an error bound far below the distance at which binary32
operands can lie from a rounding boundary; where both ends of the error interval round alike that is the result. -/

def fxP : Nat := 320
def fxOne : Int := (2 ^ 320 : Nat)
def fxLn2 : Int := 0xb17217f7d1cf79abc9e3b39803f2f6af40f343267298b62d8a0d175b8baafa2be7b876206debac98
def fxTwoOverSqrtPi : Int := 0x120dd750429b6d11ae3a914fed7fd8688281341d7587cea2e7342b06199cc416180eb39f0b24e1e22
/-- π/2 with 512 fraction bits. -/
def halfPi512 : Int :=
  0x1921fb54442d18469898cc51701b839a252049c1114cf98e804177d4c76273644a29410f31c6809bbdf2a33679a748636605614dbe4be286e9fc26adadaa3848b

/-- m × 2^e as a fixed-point number, rounded down. -/
def toFx (m : Nat) (e : Int) : Int :=
  let k := e + fxP
  if 0 ≤ k then (m * 2 ^ k.toNat : Nat) else (m / 2 ^ (-k).toNat : Nat)

def fxMul (a b : Int) : Int := a * b / fxOne
def fxDiv (a b : Int) : Int := a * fxOne / b

/-- The integer v, at exponent e, rounded to binary32 when every value within err of it rounds alike; otherwise a
free value (log 10). -/
def settle (f arg : Nat) (v err : Int) (e : Int) : Nat :=
  let r := fun (x : Int) => r32 (.fin (decide (x < 0)) x.natAbs e)
  if r (v - err) = r (v + err) then r v else Config.elementary f arg

def expLoop (x : Int) : Nat → Nat → Int → Int → Int
  | 0, _, _, sum => sum
  | n + 1, k, term, sum =>
    let t := fxMul term x / k
    expLoop x n (k + 1) t (sum + t)
/-- e^x for a fixed-point x from 0 to ln 2. -/
def fxExpSmall (x : Int) : Int := expLoop x 85 1 fxOne fxOne
/-- e^x as a fixed-point number and a binary exponent. -/
def fxExp (x : Int) : Int × Int :=
  let k := x / fxLn2
  (fxExpSmall (x - k * fxLn2), k)
def fxShift (v k : Int) : Int := if 0 ≤ k then v * (2 ^ k.toNat : Nat) else v / (2 ^ (-k).toNat : Nat)

def signFx (s : Bool) (m : Nat) (e : Int) : Int := if s then -(toFx m e) else toFx m e
def fxErr : Int := 2 ^ 60

def exp32 (a : Nat) : Nat :=
  match d32 a with
  | .nan => nan32
  | .inf s => if s then 0 else 0x7F800000
  | .fin s m e =>
    if m = 0 then one32
    else if (Val.fin false m e).cmp (.ofNat 105) ≠ -1 then (if s then 0 else 0x7F800000)
    else let (v, k) := fxExp (signFx s m e); settle 6 a v fxErr (k - fxP)

def exp2_32 (a : Nat) : Nat :=
  match d32 a with
  | .nan => nan32
  | .inf s => if s then 0 else 0x7F800000
  | .fin s m e =>
    if (Val.fin false m e).cmp (.ofNat 160) ≠ -1 then (if s then 0 else 0x7F800000)
    else
      let x := signFx s m e
      let k := x / fxOne
      let f := x - k * fxOne
      if f = 0 then r32 (.fin false 1 k) else settle 7 a (fxExpSmall (fxMul f fxLn2)) fxErr (k - fxP)

/-- Whether a finite magnitude is at most 2^k. -/
def smallVal (m : Nat) (e k : Int) : Bool := (Val.fin false m e).cmp (.fin false 1 k) != 1

def expm1_32 (a : Nat) : Nat :=
  match d32 a with
  | .nan => nan32
  | .inf s => if s then 0xBF800000 else 0x7F800000
  | .fin s m e =>
    if smallVal m e (-27) then a
    else if !smallVal m e 7 then (if s then 0xBF800000 else 0x7F800000)
    else
      let (v, k) := fxExp (signFx s m e)
      settle 8 a (fxShift v k - fxOne) (fxShift fxErr (max k 0)) (-fxP)

def atanhLoop (z2 : Int) : Nat → Nat → Int → Int → Int
  | 0, _, _, sum => sum
  | n + 1, k, t, sum => let t := fxMul t z2; atanhLoop z2 n (k + 2) t (sum + t / k)
/-- ln (m × 2^e) for m > 0. -/
def fxLn (m : Nat) (e : Int) : Int :=
  let k := m.log2
  let f := toFx m (-(k : Int))
  let (f, k) := if 3 * f > 4 * fxOne then (f / 2, (k : Int) + 1) else (f, (k : Int))
  let z := fxDiv (f - fxOne) (f + fxOne)
  2 * atanhLoop (fxMul z z) 90 3 z z + (k + e) * fxLn2

def log32 (a : Nat) : Nat :=
  match d32 a with
  | .nan => nan32
  | .inf s => if s then nan32 else 0x7F800000
  | .fin s m e =>
    if m = 0 then 0xFF800000 else if s then nan32
    else if a = one32 then 0 else settle 9 a (fxLn m e) fxErr (-fxP)

def log2_32 (a : Nat) : Nat :=
  match d32 a with
  | .nan => nan32
  | .inf s => if s then nan32 else 0x7F800000
  | .fin s m e =>
    if m = 0 then 0xFF800000 else if s then nan32
    else if 2 ^ m.log2 = m then r32 (.ofInt (m.log2 + e))
    else settle 10 a (fxDiv (fxLn m e) fxLn2) fxErr (-fxP)

def log1p32 (a : Nat) : Nat :=
  match d32 a with
  | .nan => nan32
  | .inf s => if s then nan32 else 0x7F800000
  | .fin s m e =>
    if smallVal m e (-27) then a
    else match Val.one.add (.fin s m e) with
      | .fin t n f => if n = 0 then 0xFF800000 else if t then nan32 else settle 11 a (fxLn n f) fxErr (-fxP)
      | _ => nan32

def withSign (s : Bool) (c : Nat) : Nat := if s then c + 0x80000000 else c

def tanh32 (a : Nat) : Nat :=
  match d32 a with
  | .nan => nan32
  | .inf s => withSign s one32
  | .fin s m e =>
    if smallVal m e (-13) then a
    else if !smallVal m e 4 then withSign s one32
    else
      let (v, k) := fxExp (2 * toFx m e)
      let x := fxShift v k
      withSign s (settle 12 a (fxDiv (x - fxOne) (x + fxOne)) fxErr (-fxP))

def erfLoop (x2 : Int) : Nat → Nat → Int → Int → Int
  | 0, _, _, sum => sum
  | n + 1, k, t, sum =>
    let t := -(fxMul t x2) / k
    erfLoop x2 n (k + 1) t (sum + t / (2 * k + 1 : Nat))
def erf32 (a : Nat) : Nat :=
  match d32 a with
  | .nan => nan32
  | .inf s => withSign s one32
  | .fin s m e =>
    if m = 0 then a
    else if !smallVal m e 2 then withSign s one32
    else
      let x := toFx m e
      withSign s (settle 13 a (fxMul (erfLoop (fxMul x x) 200 1 x x) fxTwoOverSqrtPi) fxErr (-fxP))

def trigLoop (x2 : Int) : Nat → Nat → Int → Int → Int
  | 0, _, _, sum => sum
  | n + 1, k, t, sum =>
    let t := -(fxMul t x2) / (k * (k + 1) : Nat)
    trigLoop x2 n (k + 2) t (sum + t)
/-- Sine (q = 0) or cosine (q = 1) of a nonnegative finite value. -/
def fxTrig (q : Int) (m : Nat) (e : Int) : Int :=
  let x := toFx m (e + 192)
  let n := (2 * x + halfPi512) / (2 * halfPi512)
  let r := (x - n * halfPi512) / (2 ^ 192 : Nat)
  let r2 := fxMul r r
  match (n + q) % 4 with
  | 0 => trigLoop r2 45 2 r r
  | 1 => trigLoop r2 45 1 fxOne fxOne
  | 2 => -(trigLoop r2 45 2 r r)
  | _ => -(trigLoop r2 45 1 fxOne fxOne)

def sin32 (a : Nat) : Nat :=
  match d32 a with
  | .fin s m e =>
    if smallVal m e (-13) then a
    else let v := fxTrig 0 m e; settle 14 a (if s then -v else v) fxErr (-fxP)
  | _ => nan32

def cos32 (a : Nat) : Nat :=
  match d32 a with
  | .fin _ m e => if smallVal m e (-13) then one32 else settle 15 a (fxTrig 1 m e) fxErr (-fxP)
  | _ => nan32

/-! ### The element-wise functions (R202, R203, R213) -/

def c1 : Nat := 0x3F4C422A
def c2 : Nat := 0x3D372713
/-- The binary32 value nearest to 0.134145. -/
def c3 : Nat := r32 ((Val.ofNat 134145).div (Val.ofNat 1000000))
def c4 : Nat := 0x3F3504F3
def c5 : Nat := 0x3ECC422A
def log2e : Nat := 0x3FB8AA3B
def negHalf32 : Nat := 0xBF000000

/-- exp, or the forerunner definition of it (R213). -/
def expIn (fr : Bool) (a : Nat) : Nat := if fr then exp2_32 (mul32 a log2e) else exp32 a

def sigmoid (fr : Bool) (a : Nat) : Nat := recip32 (add32 one32 (expIn fr (neg32 a)))

/-- Steps t1 to t5 of GELU_TANH. -/
def geluT5 (a : Nat) : Nat × Nat :=
  let t1 := mul32 a a
  (t1, tanh32 (mul32 c1 (fma32 c2 (mul32 t1 a) a)))

def gt0 (a : Nat) : Bool := Val.zero.lt (d32 a)

/-- FUNC applied to binary32 operands. -/
def applyFunc (fr : Bool) (func imm a b c : Nat) : Nat :=
  match func with
  | 0x00 => r32 (d32 a)
  | 0x01 => neg32 a
  | 0x02 => abs32 a
  | 0x03 => recip32 a
  | 0x04 => sqrt32 a
  | 0x05 => rsqrt32 a
  | 0x06 => expIn fr a
  | 0x07 => exp2_32 a
  | 0x08 => expm1_32 a
  | 0x09 => log32 a
  | 0x0A => log2_32 a
  | 0x0B => log1p32 a
  | 0x0C => tanh32 a
  | 0x0D => erf32 a
  | 0x0E => sin32 a
  | 0x0F => cos32 a
  | 0x10 => sigmoid fr a
  | 0x11 => mul32 a (sigmoid fr a)
  | 0x12 => if Val.zero.le (d32 a) then add32 a (log1p32 (expIn fr (neg32 a))) else log1p32 (expIn fr a)
  | 0x13 => mul32 (mul32 half32 a) (add32 one32 (geluT5 a).2)
  | 0x14 => mul32 (mul32 half32 a) (add32 one32 (erf32 (mul32 a c4)))
  | 0x15 => max32 a 0
  | 0x16 => mul32 a a
  | 0x17 => roundEven32 a
  | 0x20 => add32 a b
  | 0x21 => sub32 a b
  | 0x22 => mul32 a b
  | 0x23 => div32 a b
  | 0x24 => max32 a b
  | 0x25 => min32 a b
  | 0x26 => add32 a imm
  | 0x27 => mul32 a imm
  | 0x28 => b2n ((d32 a).lt (d32 b))
  | 0x29 => b2n ((d32 a).le (d32 b))
  | 0x2A => b2n ((d32 a).eq (d32 b))
  | 0x30 => fma32 a b c
  | 0x31 => r32 (d32 (if (d32 c).isZero then b else a))
  | 0x32 => min32 (max32 a b) c
  | 0x40 => if isNan32 a then nan32 else if gt0 a then r32 (d32 b) else 0
  | 0x41 => mul32 b (mul32 a (sub32 one32 a))
  | 0x42 => mul32 b (fma32 (neg32 a) a one32)
  | 0x43 =>
    let sg := sigmoid fr a
    mul32 b (mul32 sg (fma32 a (sub32 one32 sg) one32))
  | 0x44 =>
    let g :=
      if (Val.ofNat 16).lt (d32 a).abs then (if gt0 a then one32 else 0)
      else
        let (t1, t5) := geluT5 a
        let q := fma32 (neg32 t5) t5 one32
        let du := mul32 c1 (fma32 c3 t1 one32)
        let pa := mul32 half32 (add32 one32 t5)
        add32 pa (mul32 (mul32 (mul32 half32 a) q) du)
    mul32 b g
  | 0x45 =>
    let pa := mul32 half32 (add32 one32 (erf32 (mul32 a c4)))
    let q := expIn fr (mul32 negHalf32 (mul32 a a))
    mul32 b (fma32 (mul32 a c5) q pa)
  | _ => nan32

/-! ### Left folds and the forerunner's group sums (R180, R184, R213) -/

/-- One level of the pairwise tree. -/
def pairUp : List Nat → List Nat
  | a :: b :: t => add32 a b :: pairUp t
  | l => l
/-- The pairwise tree, by levels. -/
def treeSum : Nat → List Nat → Nat
  | 0, l => l.headD 0
  | n + 1, l => match l with
    | [] => 0
    | [a] => a
    | l => treeSum n (pairUp l)
/-- Consecutive groups of four terms. -/
def groups4 : Nat → List Val → List (List Val)
  | 0, _ => []
  | n + 1, l => match l with
    | [] => []
    | l => l.take 4 :: groups4 n (l.drop 4)
/-- The forerunner's sum of exact terms (R180 steps 1 and 2). -/
def treeOf (l : List Val) : Nat := treeSum (l.length + 1) ((groups4 (l.length + 1) l).map exactSum)

/-- A sum of products: natively a left fold of fused multiply-adds from +0, in forerunner mode the tree of the
exact products. -/
def sumProd (fr : Bool) (l : List (Nat × Nat)) : Nat :=
  if fr then treeOf (l.map fun e => (d32 e.1).mul (d32 e.2)) else l.foldl (fun r e => fma32 e.1 e.2 r) 0
/-- A sum: natively a left fold from +0. -/
def sumPlain (fr : Bool) (l : List Nat) : Nat := if fr then treeOf (l.map d32) else l.foldl add32 0

/-! ### Wide modes (R171) -/

/-- Truncate a finite value toward zero to bfloat16. -/
def truncBf16 (v : Val) : Val :=
  match v with
  | .fin s m e =>
    if m = 0 then v
    else
      let l := max (e + (m.log2 + 1 : Nat) - 8) (-133)
      if l ≤ e then v else .fin s (m / 2 ^ (l - e).toNat) l
  | v => v
/-- The three parts of a binary32 operand. -/
def wideSplit (v : Val) : List Val :=
  if v.isFin then
    let x0 := truncBf16 v
    let r := v.sub x0
    let x1 := truncBf16 r
    [x0, x1, truncBf16 (r.sub x1)]
  else [v, .zero, .zero]
/-- Sweeps of a wide mode: streamed part and stationary part (R140); 3 is the checker's x0·y0 alone (R392). -/
def sweeps (wide : Nat) : List (Nat × Nat) :=
  match wide with
  | 0 => [(0, 0)]
  | 1 => [(0, 1), (1, 0), (0, 0)]
  | 3 => [(0, 0)]
  | _ => [(0, 2), (1, 1), (2, 0), (0, 1), (1, 0), (0, 0)]
/-- A product of a sweep: outside x0·y0 a non-finite factor makes it +0. -/
def sweepProduct (w : Nat × Nat) (a b : Val) : Val :=
  let x := (wideSplit a).getD w.1 .zero
  let y := (wideSplit b).getD w.2 .zero
  if w ≠ (0, 0) ∧ (!x.isFin || !y.isFin) then .zero else x.mul y

end Sys2Proof.Machine
end

