-- ==== Sys2Proof/Machine/Shake.lean ====
section
/-! DEFINITION. SHAKE256 of FIPS 202, which the manual names for every digest (R96, R238, R270, R430, R433).
PRESUMED (log 9): the algorithm is the public standard's and not written out in the manual. Its two constants are
formed as the standard defines them: the turns of the lanes from the walk over the lanes, the round constants from the
feedback register. -/

namespace Sys2Proof.Machine

/-- The lane in column x of plane y, both taken modulo 5. -/
def laneAt (a : List W64) (x y : Nat) : W64 := a.getD (x % 5 + 5 * (y % 5)) 0
/-- The 25 lanes that a rule gives column by column, plane by plane. -/
def byPlace (f : Nat → Nat → W64) : List W64 := (List.range 25).map fun i => f (i % 5) (i / 5)

/-- The place that follows a place on the standard's walk: (x, y) is followed by (y, 2x + 3y). -/
def walkNext (p : Nat) : Nat := p / 5 + 5 * ((2 * (p % 5) + 3 * (p / 5)) % 5)
/-- How far each lane turns: the t-th lane of the walk, from (1, 0) on, by the triangular number of t; (0, 0) not at
all. -/
def laneTurns : List Nat :=
  ((List.range 24).foldl (fun (w : Nat × List Nat) t => (walkNext w.1, w.2.set w.1 ((t + 1) * (t + 2) / 2 % 64)))
    (1, List.replicate 25 0)).2

/-- Each lane takes in the parities of the column before it and, turned by one, of the column after it. -/
def mixColumns (a : List W64) : List W64 :=
  let parity := fun x => ((List.range 5).map (laneAt a x)).foldl (fun p l => p ^^^ l) 0
  let mix := (List.range 5).map fun x => parity (x + 4) ^^^ (parity (x + 1)).rotateLeft 1
  byPlace fun x y => laneAt a x y ^^^ mix.getD x 0

/-- Turn every lane and carry it to its new place: the lane at (x, y) comes from (x + 3y, x). -/
def turnAndPlace (a : List W64) : List W64 :=
  byPlace fun x y => (laneAt a (x + 3 * y) x).rotateLeft (laneTurns.getD ((x + 3 * y) % 5 + 5 * x) 0)

/-- The step that is not linear, along each plane. -/
def mixPlanes (a : List W64) : List W64 :=
  byPlace fun x y => laneAt a x y ^^^ (~~~laneAt a (x + 1) y &&& laneAt a (x + 2) y)

/-- One clock of the feedback register of the round constants. -/
def feedback (r : Nat) : Nat := if r < 128 then 2 * r else (2 * r) ^^^ 0x171

/-- The register after the 7 clocks of a round, and the round constant that they give: the j-th bit stands at
2^j - 1. -/
def roundConst (r : Nat) : Nat × W64 :=
  (List.range 7).foldl (fun (c : Nat × W64) j => (feedback c.1, c.2 ||| (BitVec.ofNat 64 (c.1 % 2) <<< (2 ^ j - 1)))) (r, 0)

/-- One round, with the feedback register beside the lanes. -/
def spongeRound (s : Nat × List W64) : Nat × List W64 :=
  let k := roundConst s.1
  let a := mixPlanes (turnAndPlace (mixColumns s.2))
  (k.1, a.set 0 (laneAt a 0 0 ^^^ k.2))

/-- The permutation: 24 rounds, the feedback register starting at 1. -/
def permute (a : List W64) : List W64 := ((List.range 24).foldl (fun s _ => spongeRound s) (1, a)).2

/-- Take in one block of 136 bytes: 17 lanes, the 8 lanes of the capacity as they are. -/
def absorb (a : List W64) (block : List Byte) : List W64 :=
  permute (byPlace fun x y => laneAt a x y ^^^ BitVec.ofNat 64 (leNat (slice block (8 * (x + 5 * y)) 8)))

/-- Take in n blocks of 136 bytes. -/
def absorbAll : Nat → List Byte → List W64 → List W64
  | 0, _, a => a
  | n + 1, l, a => absorbAll n (l.drop 136) (absorb a (l.take 136))

/-- The padding of SHAKE: 1111 1 then zeros to a final 1 bit. -/
def shakePad (n : Nat) : List Byte :=
  let r := 136 - n % 136
  if r = 1 then [0x9F] else 0x1F :: (List.replicate (r - 2) 0 ++ [0x80])

/-- The first n bytes, n at most 136, of SHAKE256 over a byte string. -/
def shake256 (n : Nat) (l : List Byte) : List Byte :=
  let p := l ++ shakePad l.length
  ((absorbAll (p.length / 136) p (List.replicate 25 0)).flatMap fun l => leBytes 8 l.toNat).take n

/-- The first 128 bits, as a little-endian number. -/
def digest128 (l : List Byte) : Nat := leNat (shake256 16 l)
/-- The first 256 bits, as a little-endian number. -/
def digest256 (l : List Byte) : Nat := leNat (shake256 32 l)

end Sys2Proof.Machine
end

