-- ==== Sys2Proof/Machine/Image.lean ====
section
/-! DEFINITION. Program images: the tables of R96 to R111 and every check of PROGRAM_LOAD on them. -/

namespace Sys2Proof.Machine

/-- Why an image is rejected: status, REASON of R117 and the byte offset of the field. -/
structure ImgErr where
  code : Nat := 0x0180
  reason : Nat
  off : Nat
  deriving DecidableEq, Repr

abbrev ImgChk := Except ImgErr

def imgNeed (ok : Bool) (reason off : Nat) : ImgChk Unit := if ok then .ok () else .error { reason, off }

/-! ### Geometry -/

def nullTensor : Tensor :=
  { bindAddr := 0, dims := [0, 0, 0, 0], scaleTensor := 0, owner := 0, tieGroup := 0, tieUse := 0, format := 0
    scaleMode := 0, rank := 0, tileRowsLog2 := 0, tileColsLog2 := 0, kind := 0, cls := 0, memory := 0, sliceDim := 7
    sharded := false, saturate := false, clear := false }

def Image.tensor (g : Image) (i : Nat) : Tensor := g.tensors.getD i nullTensor
def nullOp : Op :=
  { code := 0, acc := false, recompute := false, phase := false, out := 0, a := 0, b := 0, c := 0, wait := 0
    signal := 0, layer := 0, args := 0 }
def Image.op (g : Image) (i : Nat) : Op := g.ops.getD i nullOp

/-- Bits of an element of a FORMAT (R99); 0 for a reserved code. -/
def formatBits : Nat → Nat
  | 1 => 4 | 2 => 4 | 3 => 8 | 4 => 8 | 5 => 8 | 6 => 16 | 7 => 16 | 8 => 32 | 9 => 8 | 10 => 8 | _ => 0

def Tensor.divided (t : Tensor) : Bool := decide (t.sliceDim ≤ 3)
def Tensor.shared (t : Tensor) : Bool := t.sliceDim == 7
/-- The dimensions that one instance sees (R93). -/
def Image.dims (g : Image) (i : Nat) : List Nat :=
  let t := g.tensor i
  if t.divided then t.dims.set t.sliceDim (t.dims.getD t.sliceDim 0 / g.sliceCount) else t.dims
def dim (d : List Nat) (i : Nat) : Nat := d.getD i 1
def elems (d : List Nat) : Nat := dim d 0 * dim d 1 * dim d 2 * dim d 3
/-- Bytes of one row of DIM0 elements (R158). -/
def rowBytes (format d0 : Nat) : Nat := cdiv (d0 * formatBits format) 8
def tensorBytes (format : Nat) (d : List Nat) : Nat := rowBytes format (dim d 0) * dim d 1 * dim d 2 * dim d 3
def Tensor.tileRows (t : Tensor) : Nat := 2 ^ t.tileRowsLog2
def Tensor.tileCols (t : Tensor) : Nat := 2 ^ t.tileColsLog2

/-! ### Operation arguments (R106) -/

def Op.outScale (o : Op) : Nat := bits o.args 127 96
def Op.fuse (o : Op) : Nat := bits o.args 95 94
def Op.wide (o : Op) : Nat := bits o.args 93 92
def Op.transA (o : Op) : Bool := bitAt o.args 91
def Op.transB (o : Op) : Bool := bitAt o.args 90
def Op.scaleEn (o : Op) : Bool := bitAt o.args 89
def Op.maskBlocks (o : Op) : Bool := bitAt o.args 88
def Op.func (o : Op) : Nat := bits o.args 127 120
def Op.imm (o : Op) : Nat := bits o.args 119 88
def Op.redOp (o : Op) : Nat := bits o.args 127 124
def Op.axis (o : Op) : Nat := bits o.args 123 122
def Op.normKind (o : Op) : Nat := bits o.args 127 124
def Op.eps (o : Op) : Nat := bits o.args 123 92
def Op.out2 (o : Op) : Nat := if o.code = 0x19 then bits o.args 87 72 else 0
def Op.out3 (o : Op) : Nat := if o.code = 0x19 then bits o.args 71 56 else 0
def Op.preScale (o : Op) : Nat := bits o.args 127 96
def Op.causal (o : Op) : Bool := bitAt o.args 95
def Op.group (o : Op) : Nat := bits o.args 127 112
def Op.hyper (o : Op) : Nat := if o.code = 0x40 then bits o.args 127 112 else 0
/-- WIN_H, WIN_W, STRIDE_H, STRIDE_W, PAD_H, PAD_W, DIL_H, DIL_W. -/
def Op.window (o : Op) : List Nat :=
  [bits o.args 127 112, bits o.args 111 96, bits o.args 95 88, bits o.args 87 80, bits o.args 79 72,
   bits o.args 71 64, bits o.args 63 56, bits o.args 55 48]

/-- Pavilion operations by nature (R94). -/
def isPavOp (code : Nat) : Bool := [0x30, 0x31, 0x40, 0x50, 0x51, 0x5F].contains code
def isMatrix (code : Nat) : Bool := code == 1 || code == 2
def isVector (code : Nat) : Bool := [0x10, 0x11, 0x18, 0x19, 0x1A, 0x1B, 0x32].contains code

/-- Tensors that an operation writes: OUT, dγ and dβ, and the block scales formed with the elements (R168). -/
def Image.writes (g : Image) (o : Op) : List Nat :=
  let w := [o.out, o.out2, o.out3].filter (· != 0)
  w ++ (w.filter fun x => (g.tensor x).scaleMode == 2).map fun x => (g.tensor x).scaleTensor

/-- Tensors that an operation reads: its inputs with their scales and zero points, the buffers of a tie group, the
old contents of OUT, and what its arguments name. -/
def Image.reads (g : Image) (o : Op) : List Nat :=
  let direct := [o.a, o.b, o.c].filter (· != 0)
  let direct := if o.code = 0x32 then
      (List.range g.tensors.length).filter fun x => (g.tensor x).tieGroup == (g.tensor o.a).tieGroup && x != 0
    else direct
  let scales := direct.flatMap fun x =>
    let t := g.tensor x
    if t.scaleMode = 0 then [] else if 4 ≤ t.scaleMode then [t.scaleTensor, t.scaleTensor + 1] else [t.scaleTensor]
  direct ++ scales
    ++ (if o.acc || (o.code == 2 && o.c != 0) then [o.out] else [])
    ++ (if (g.tensor o.out).scaleMode == 1 then [(g.tensor o.out).scaleTensor] else [])
    ++ ([o.out2, o.out3, o.hyper].filter (· != 0))

/-- A per-slice operation: any operand divided or per slice (R94); TIE_SUM always (R105). -/
def Image.perSlice (g : Image) (o : Op) : Bool :=
  o.code == 0x32 || (!isPavOp o.code &&
    ([o.out, o.a, o.b, o.c, o.out2, o.out3].any fun x => x != 0 && !(g.tensor x).shared))

/-! ### Tensor entries (REASON 4) -/

def parseTensor (b : List Byte) : Tensor :=
  let x := leNat b
  { bindAddr := bits x 511 448
    dims := [bits x 351 320, bits x 383 352, bits x 415 384, bits x 447 416]
    scaleTensor := bits x 319 304, owner := bits x 303 288, tieGroup := bits x 287 272, tieUse := bits x 271 256
    format := bits x 127 120, scaleMode := bits x 119 116, rank := bits x 115 112
    tileRowsLog2 := bits x 111 108, tileColsLog2 := bits x 107 104, kind := bits x 103 100, cls := bits x 99 98
    memory := bits x 97 96, sliceDim := bits x 95 93, sharded := bitAt x 92, saturate := bitAt x 91
    clear := bitAt x 90 }

/-- Formats that a SCALE_MODE permits (R100). -/
def scaleFormats : Nat → List Nat
  | 0 => [1, 2, 3, 4, 5, 6, 7, 8, 9, 10]
  | 1 => [3, 4] | 2 => [1, 3, 4, 5] | 3 => [2] | 4 => [2, 5] | 5 => [2, 5] | _ => []

/-- The scale, zero-point or expansion tensor has the format and dimensions of R100 and R167. -/
def Image.scaleOk (g : Image) (t : Tensor) : Bool :=
  let n := g.tensors.length
  let sc := g.tensor t.scaleTensor
  let dd := t.dims
  let grp := fun (k : Nat) => [dim dd 0, cdiv (dim dd 1) k, dim dd 2, dim dd 3]
  let pair := fun (k : Nat) => sc.format == 8 && sc.dims == grp k && decide (t.scaleTensor + 1 < n)
    && (g.tensor (t.scaleTensor + 1)).format == 5 && (g.tensor (t.scaleTensor + 1)).dims == grp k
  if t.scaleMode = 0 then t.scaleTensor == 0
  else decide (t.scaleTensor ≠ 0 ∧ t.scaleTensor < n) && match t.scaleMode with
    | 1 => sc.format == 8 && elems sc.dims == 1
    | 2 => sc.format == 9 && sc.dims == [cdiv (dim dd 0) 32, dim dd 1, dim dd 2, dim dd 3]
    | 3 => sc.format == 6 && sc.dims == [16, cdiv (dim dd 1) 128, dim dd 2, dim dd 3]
    | 4 => pair 32
    | _ => pair 128

/-- A used feature has its bit in FEATURES (R114). A level-2 image, which has no bit set, fails R181 instead by a feature
that forerunner numerics does not know. -/
def Image.uses (g : Image) (b : Bool) (k : Nat) : ImgChk Unit :=
  imgNeed (!b || g.features.testBit k || (g.level == 2 && [0, 3, 5].contains k)) 9 100

/-- The checks of one tensor entry at byte `at_` of the image (R93, R97 to R101, R114, R116). -/
def Image.checkTensor (g : Image) (i at_ : Nat) : ImgChk Unit := do
  let t := g.tensor i
  let bad := fun (ok : Bool) (byte : Nat) => imgNeed ok 4 (at_ + byte)
  bad (formatBits t.format != 0) 15
  bad (decide (1 ≤ t.kind ∧ t.kind ≤ 9)) 12
  bad (decide (1 ≤ t.rank ∧ t.rank ≤ 4)) 14
  bad (decide (5 ≤ t.tileRowsLog2 ∧ t.tileRowsLog2 ≤ 10)) 13
  bad (decide (5 ≤ t.tileColsLog2 ∧ t.tileColsLog2 ≤ 10)) 13
  (List.range 4).forM fun k => bad (if k < t.rank then dim t.dims k != 0 else dim t.dims k == 1) (40 + 4 * k)
  bad (decide (elems t.dims ≤ 2 ^ 48)) 40
  bad (t.memory != 3) 12
  bad (if t.sliceDim ≤ 5 then decide (t.sliceDim < t.rank) && t.sliceDim != 4 && t.sliceDim != 5 else true) 11
  bad (!t.divided || dim t.dims t.sliceDim % g.sliceCount == 0) (40 + 4 * t.sliceDim)
  bad (if t.kind = 2 then t.cls == 1 || t.cls == 2 else t.cls == 0) 12
  bad (if t.kind = 4 ∨ t.kind = 9 then decide (t.owner ≠ 0 ∧ t.owner < g.tensors.length)
       else if t.kind = 3 then t.owner == 0 || (decide (t.owner < g.tensors.length) && (g.tensor t.owner).kind == 2)
       else t.owner == 0) 36
  bad (t.tieGroup == 0 || t.kind == 3) 34
  bad (!t.sharded || (t.shared && [2, 3, 4].contains t.kind)) 11
  bad (if [5, 6, 7].contains t.kind then t.bindAddr % 64 == 0 else t.bindAddr == 0) 56
  bad ((scaleFormats t.scaleMode).contains t.format) 14
  bad (g.scaleOk t) 38
  g.uses (t.format == 1) 0
  g.uses (t.memory == 2) 4
  g.uses (t.scaleMode == 3) 5

/-! ### Operation records (REASON 5) -/

def parseOp (b : List Byte) : Op :=
  let x := leNat b
  { code := bits x 255 248, acc := bitAt x 247, recompute := bitAt x 246, phase := bitAt x 245, out := bits x 239 224
    a := bits x 223 208, b := bits x 207 192, c := bits x 191 176, wait := bits x 175 158, signal := bits x 157 140
    layer := bits x 139 128, args := bits x 127 0 }

/-- Operands of a FUNC, 0 for a code not listed in R202. -/
def funcOperands (f : Nat) : Nat :=
  if f ≤ 0x17 ∨ f = 0x26 ∨ f = 0x27 then 1
  else if (0x20 ≤ f ∧ f ≤ 0x25) ∨ (0x28 ≤ f ∧ f ≤ 0x2A) ∨ (0x40 ≤ f ∧ f ≤ 0x45) then 2
  else if 0x30 ≤ f ∧ f ≤ 0x32 then 3
  else 0
def isCompare (f : Nat) : Bool := decide (0x28 ≤ f ∧ f ≤ 0x2A)

/-- Operands that the table of R105 names, for OUT, IN_A, IN_B and IN_C: 0 none, 1 required, 2 either. -/
def operandRoles (o : Op) : Option (List Nat) :=
  match o.code with
  | 0x01 => some [1, 1, 1, if o.fuse = 0 then 0 else 1]
  | 0x02 => some [1, 1, 1, 2]
  | 0x10 => some ([1, 1] ++ (match funcOperands o.func with | 1 => [0, 0] | 2 => [1, 0] | _ => [1, 1]))
  | 0x11 => some [1, 1, 0, 0] | 0x18 => some [1, 1, 1, 2] | 0x19 => some [1, 1, 1, 1]
  | 0x1A => some [1, 1, 0, 0] | 0x1B => some [1, 1, 1, 0] | 0x20 => some [1, 1, 0, 0]
  | 0x30 => some [1, 1, 0, 0] | 0x31 => some [1, 1, 0, 0] | 0x32 => some [1, 1, 0, 0]
  | 0x38 => some [0, 1, 0, 0] | 0x39 => some [1, 0, 0, 0] | 0x40 => some [0, 1, 1, 0]
  | 0x50 => some [0, 0, 0, 0] | 0x51 => some [0, 0, 0, 0] | 0x5F => some [0, 0, 0, 0]
  | _ => none

/-- Formats that a drain or vector engine may write (R148, R204). -/
def outFormats : List Nat := [3, 4, 6, 7, 8]

/-- Format group of a matrix operand with its SCALE_MODE (R107, R127): 1 E2M1, 2 the 8-bit group, 3 expanded
integer weights, 4 the 16-bit group, 5 binary32; 0 where the pair is in no row. -/
def matrixGroup (t : Tensor) : Nat :=
  match t.format with
  | 1 => if t.scaleMode = 2 then 1 else 0
  | 2 => if 3 ≤ t.scaleMode then 3 else 0
  | 3 => 2 | 4 => 2
  | 5 => if t.scaleMode = 2 then 2 else if 4 ≤ t.scaleMode then 3 else 0
  | 6 => 4 | 7 => 4 | 8 => 5
  | _ => 0

/-- Each dimension equals the output's or is 1. -/
def broadcasts (d o : List Nat) : Bool := (List.range 4).all fun k => dim d k == dim o k || dim d k == 1

/-- Rows and columns of each matrix of an operand, with its tile rows and columns, after its transposing flag. -/
def Image.matDims (g : Image) (i : Nat) (trans : Bool) : Nat × Nat × Nat × Nat :=
  let d := g.dims i
  let t := g.tensor i
  if trans then (dim d 0, dim d 1, t.tileCols, t.tileRows) else (dim d 1, dim d 0, t.tileRows, t.tileCols)

/-- The checks of MATMUL and MATMUL_WGRAD (R106, R107, R127, R129, R148, R150, R255). A mask by rows is a row or a column
of M elements, one by blocks has DIM1 = ⌈M / 128⌉ and DIM0 = ⌈N / 128⌉ (log 43). -/
def Image.checkMatrix (g : Image) (o : Op) (bad : Bool → Nat → ImgChk Unit) : ImgChk Unit := do
  let (m, k, tm, tk) := g.matDims o.a o.transA
  let (k2, n, tk2, tn) := g.matDims o.b o.transB
  let (mo, no, tmo, tno) := g.matDims o.out false
  let da := g.dims o.a
  let db := g.dims o.b
  let dc := g.dims o.out
  bad (m == mo && n == no && k == k2 && tm == tmo && tn == tno && tk == tk2) 24
  [2, 3].forM fun x => bad ((dim da x == dim dc x || dim da x == 1) && (dim db x == dim dc x || dim db x == 1)
    && dim dc x == max (dim da x) (dim db x)) 24
  let ga := matrixGroup (g.tensor o.a)
  let gb := matrixGroup (g.tensor o.b)
  bad (ga != 0 && ga != 3) 26
  bad (gb != 0 && (gb == ga || (gb == 3 && ga == 2))) 24
  bad (o.wide != 3 && (decide (0 < o.wide) == (ga == 5))) 11
  bad (outFormats.contains (g.tensor o.out).format) 28
  bad (o.fuse != 3 && (o.code == 1 || o.fuse == 0)) 11
  let c := g.tensor o.c
  if o.code = 1 then
    bad (o.fuse == 0 || (outFormats.contains c.format && c.scaleMode == 0 && broadcasts (g.dims o.c) dc)) 22
  else if o.c ≠ 0 then
    let shapes := if o.maskBlocks then [[cdiv no 128, cdiv mo 128, 1, 1]] else [[mo, 1, 1, 1], [1, mo, 1, 1]]
    bad (c.format == 10 && c.scaleMode == 0 && shapes.contains (g.dims o.c)) 22
    bad (g.tensor o.out).clear 28
  else pure ()

/-- OH and OW of a window, from H, W and the fields of R106; none when the window does not fit. -/
def windowOut (w : List Nat) (h wd : Nat) : Option (Nat × Nat) :=
  let one := fun (size win stride pad dil : Nat) =>
    if win = 0 ∨ stride = 0 ∨ dil = 0 then none
    else if size + 2 * pad < dil * (win - 1) + 1 then none
    else some ((size + 2 * pad - dil * (win - 1) - 1) / stride + 1)
  match one h (w.getD 0 0) (w.getD 2 0) (w.getD 4 0) (w.getD 6 0),
        one wd (w.getD 1 0) (w.getD 3 0) (w.getD 5 0) (w.getD 7 0) with
  | some a, some b => some (a, b)
  | _, _ => none

/-- The checks that belong to one operation code (R107, R204, R205, R234, R256, R275, R300). OUT of SOFTMAX_FWD must have
the dimensions of the logits, which R204 states for SOFTMAX_BWD alone (log 43). -/
def Image.checkByCode (g : Image) (o : Op) (bad : Bool → Nat → ImgChk Unit) : ImgChk Unit := do
  let da := g.dims o.a
  let dc := g.dims o.out
  let ta := g.tensor o.a
  let tc := g.tensor o.out
  match o.code with
  | 0x01 => g.checkMatrix o bad
  | 0x02 => g.checkMatrix o bad
  | 0x10 => do
    [(o.a, 26), (o.b, 24), (o.c, 22)].forM fun e => bad (e.1 == 0 || broadcasts (g.dims e.1) dc) e.2
    bad (o.func != 0x31 || (g.tensor o.c).format == 10) 22
  | 0x11 => do
    bad (decide (o.redOp ≤ 3)) 15
    bad (dc == da.set o.axis 1) 28
  | 0x18 => do
    bad (decide (o.normKind ≤ 1)) 15
    bad (g.dims o.b == [dim da 0, 1, 1, 1]) 24
    bad (o.c == 0 || g.dims o.c == [dim da 0, 1, 1, 1]) 22
    bad (dc == da) 28
  | 0x19 => do
    bad (decide (o.normKind ≤ 1)) 15
    bad (g.dims o.b == [dim da 0, 1, 1, 1]) 24
    bad (g.dims o.c == da) 22
    bad (dc == da) 28
    [(o.out2, 9), (o.out3, 7)].forM fun e =>
      bad (e.1 == 0 || ((g.tensor e.1).format == 8 && g.dims e.1 == g.dims o.b)) e.2
  | 0x1A => bad (dc == da) 28
  | 0x1B => do
    bad (dc == da) 28
    bad (g.dims o.b == da) 24
  | 0x20 => do
    bad (ta.format == tc.format && [8, 16, 32].contains (formatBits ta.format) && ta.scaleMode == 0 && tc.scaleMode == 0) 28
    match windowOut o.window (dim da 2) (dim da 1) with
    | none => bad false 14
    | some (oh, ow) =>
      bad (dc == [o.window.getD 0 0 * o.window.getD 1 0 * dim da 0, oh * ow, dim da 3, 1]) 28
  | 0x30 => do
    bad (ta.kind == 2 && ta.sharded) 26
    bad (tc.shared && tc.dims == ta.dims && tc.format == 6) 28
    bad (o.group == 0) 14
  | 0x31 => do
    bad (ta.kind == 3 && ta.sliceDim == 6 && ta.format == 8 && ta.tieGroup == 0) 26
    let p := g.tensor tc.owner
    bad (tc.kind == 3 && tc.sharded && tc.format == 8 && tc.owner != 0 && p.kind == 2 && p.sharded
      && p.dims == tc.dims && tc.dims == ta.dims) 28
    bad (o.group == 0) 14
  | 0x32 => do
    bad (ta.tieGroup != 0) 26
    let grp := g.tensors.filter fun x => x.tieGroup == ta.tieGroup
    bad (grp.all (fun x => x.dims == ta.dims && x.format == ta.format)
      && decide ((grp.map (·.tieUse)).Nodup)) 26
    bad (dc == da && tc.tieGroup == 0) 28
  | 0x38 => bad (ta.memory == 1) 26
  | 0x39 => bad (tc.memory == 1) 28
  | 0x40 => do
    bad (ta.kind == 2 && ta.sharded) 26
    let t := g.tensor o.b
    bad (t.kind == 3 && t.sharded && t.owner == o.a) 24
    let h := g.tensor o.hyper
    bad (o.hyper != 0 && h.format == 10 && h.shared && (h.kind == 5 || h.kind == 6) && elems h.dims == 64) 14
  | _ => pure ()

/-- The checks of one operation record at byte `at_`; `summed` lists the tie groups summed in this step. -/
def Image.checkOp (g : Image) (o : Op) (at_ : Nat) (summed : List Nat) : ImgChk Unit := do
  let bad := fun (ok : Bool) (byte : Nat) => imgNeed ok 5 (at_ + byte)
  let n := g.tensors.length
  bad (o.code != 0x10 || funcOperands o.func != 0) 15
  match operandRoles o with
  | none => bad false 31
  | some roles =>
    let refs := [(o.out, 28), (o.a, 26), (o.b, 24), (o.c, 22)]
    (refs ++ [(o.out2, 9), (o.out3, 7), (o.hyper, 14)]).forM fun e => bad (decide (e.1 < n)) e.2
    bad (decide (o.wait < g.tokens.length)) 19
    bad (decide (o.signal < g.tokens.length)) 17
    (refs.zip roles).forM fun e => bad (match e.2 with
      | 0 => e.1.1 == 0
      | 1 => e.1.1 != 0
      | _ => true) e.1.2
    -- no operation writes E2M1, INT4, INT8 or E8M0 but the block scales of R168 (R164)
    bad (o.out == 0 || !([1, 2, 5, 9].contains (g.tensor o.out).format)) 28
    bad (!o.acc || ([1, 2, 0x11].contains o.code && (g.tensor o.out).format == 8)) 30
    (g.writes o).forM fun w =>
      let t := g.tensor w
      bad (t.kind != 5 && t.kind != 6 && !(g.perSlice o && t.shared) && !(t.tieGroup != 0 && summed.contains t.tieGroup)) 28
    if isVector o.code then
      -- no block scales, and INT4 and E2M1 codes with their scales alone (R99, R204; log 43)
      refs.forM fun e => bad (e.1 == 0 || ((g.tensor e.1).format != 9
        && !([1, 2].contains (g.tensor e.1).format && (g.tensor e.1).scaleMode == 0))) e.2
      let f := (g.tensor o.out).format
      bad (if o.code == 0x10 && isCompare o.func then f == 10 else outFormats.contains f) 28
    else pure ()
    g.checkByCode o bad
    g.uses (o.code == 2 && o.c != 0) 1
    g.uses (o.code == 0x32) 2
    g.uses (isMatrix o.code && o.wide == 2) 3

/-- Check the operations in stream order; a STEP_MARK starts a new step for R256. -/
def Image.checkOps (g : Image) (opOff : Nat) : List Op → Nat → List Nat → ImgChk Unit
  | [], _, _ => .ok ()
  | o :: t, i, summed => do
    g.checkOp o (opOff + 32 * i) summed
    g.checkOps opOff t (i + 1)
      (if o.code = 0x32 then summed ++ [(g.tensor o.a).tieGroup] else if o.code = 0x5F then [] else summed)

/-- Presence of MEMORY = 1 and MEMORY = 2 tensors in stream order (R112): `absent` lists the tensors away. -/
def Image.checkPresence (g : Image) (opOff : Nat) : List Op → Nat → List Nat → ImgChk Unit
  | [], _, _ => .ok ()
  | o :: t, i, absent => do
    imgNeed ((g.reads o).all fun x => !absent.contains x) 7 (opOff + 32 * i)
    let a1 := if o.code = 0x38 then addNew absent o.a else absent
    let a2 := if o.code = 0x39 then a1.filter (· != o.out) else a1
    -- the last forward reader of a MEMORY = 2 tensor releases it
    let last := (g.reads o).filter fun x => (g.tensor x).memory == 2 && !o.phase
      && !(t.any fun y => !y.phase && (g.reads y).contains x)
    let a3 := last.foldl addNew a2
    let a4 := if o.recompute then a3.filter (fun x => !((g.tensor x).memory == 2 && (g.writes o).contains x)) else a3
    g.checkPresence opOff t (i + 1) a4

/-- What forerunner numerics does not accept of an image (R181, R183): the first tensor or operation at fault, or none of
them where only FEATURES bit 0, 3 or 5 is set. -/
def Image.forerunnerFault (g : Image) : Option (Option (Nat × Bool)) :=
  match (List.range g.tensors.length).find? fun i =>
      i != 0 && (!([3, 4, 5, 6, 7, 8, 10].contains (g.tensor i).format) || decide (1 < (g.tensor i).scaleMode)) with
  | some i => some (some (i, false))
  | none => match (List.range g.ops.length).find? fun i => isMatrix (g.op i).code && (g.op i).wide != 0 with
    | some i => some (some (i, true))
    | none => if [0, 3, 5].any g.features.testBit then some none else none

/-! ### The whole image -/

def imageMagic : Nat := 0x5043544C

def chunks (l : List Byte) (size : Nat) : Nat → List (List Byte)
  | 0 => []
  | n + 1 => l.take size :: chunks (l.drop size) size n

/-- Parse and check an image of which `bytes` is every byte, against the IMAGE_BYTES parameter (R96 to R116, R181,
R204, R234, R255, R256). -/
def parseImage (data : List Byte) (nbytes : Nat) : ImgChk Image := do
  let f := fun off n => field data off n
  imgNeed (f 0 4 == imageMagic) 1 0
  let level := f 4 1
  if level ≠ 2 ∧ level ≠ 3 then .error { code := 0x0181, reason := 0, off := 4 } else pure ()
  imgNeed (f 68 4 == nbytes) 3 68
  imgNeed (f 112 16 == digest128 (data.take 112 ++ List.replicate 16 0 ++ data.drop 128)) 2 112
  let nT := f 72 4
  let tOff := f 76 4
  let nO := f 80 4
  let oOff := f 84 4
  let nK := f 88 4
  let kOff := f 92 4
  let slices := f 96 4
  imgNeed (decide (1 ≤ slices ∧ slices ≤ 65536)) 3 96
  imgNeed (decide (1 ≤ nT ∧ nT ≤ 65536)) 3 72
  imgNeed (decide (1 ≤ nO ∧ nO ≤ 16777216)) 3 80
  imgNeed (decide (1 ≤ nK ∧ nK ≤ 262144)) 3 88
  imgNeed (tOff % 64 == 0 && decide (128 ≤ tOff ∧ tOff + 64 * nT ≤ nbytes)) 3 76
  imgNeed (oOff % 32 == 0 && decide (128 ≤ oOff ∧ oOff + 32 * nO ≤ nbytes) && !overlaps oOff (32 * nO) tOff (64 * nT)) 3 84
  imgNeed (kOff % 8 == 0 && decide (128 ≤ kOff ∧ kOff + 8 * nK ≤ nbytes) && !overlaps kOff (8 * nK) tOff (64 * nT)
    && !overlaps kOff (8 * nK) oOff (32 * nO)) 3 92
  let feats := f 100 4
  imgNeed (decide (feats < 64) && (level == 3 || feats == 0)) 9 100
  let tb := chunks (data.drop tOff) 64 nT
  let ob := chunks (data.drop oOff) 32 nO
  let kb := chunks (data.drop kOff) 8 nK
  let g : Image :=
    { digest := f 112 16, programId := f 104 8, features := feats, sliceCount := slices, level := level
      tensors := tb.map parseTensor, ops := ob.map parseOp
      tokens := kb.map fun b => (bitAt (leNat b) 32, bits (leNat b) 15 0) }
  imgNeed (leNat (tb.headD []) == 0) 4 tOff
  (List.range nT).forM fun i => if i = 0 then .ok () else g.checkTensor i (tOff + 64 * i)
  imgNeed (leNat (kb.headD []) == 0) 6 kOff
  (List.range nK).forM fun i => imgNeed (i == 0 || (g.tokens.getD i (false, 0)).2 != 0) 6 (kOff + 8 * i)
  g.checkOps oOff g.ops 0 []
  (List.range nK).forM fun i =>
    imgNeed (i == 0 || decide ((g.tokens.getD i (false, 0)).2 ≤ (g.ops.filter fun o => o.signal == i).length)) 8 (kOff + 8 * i)
  g.checkPresence oOff g.ops 0 []
  match (if level = 2 then g.forerunnerFault else none) with
  | some (some (i, false)) => .error { reason := 4, off := tOff + 64 * i }
  | some (some (i, true)) => .error { reason := 5, off := oOff + 32 * i }
  | some none => .error { reason := 9, off := 100 }
  | none => .ok g

end Sys2Proof.Machine
end

