-- ==== Sys2Proof/Machine/Operands.lean ====
section
/-! DEFINITION. Layouts and shard slots, and every operand form of a program: where the contents of a tensor
lie, the value of an element under each SCALE_MODE, and the conversion of results into OUT. -/

namespace Sys2Proof.Machine

/-! ### Layouts and shards (R266, R267, R296 to R301) -/

/-- Position of a device in a layout. -/
def Layout.pos (l : Layout) (id : Nat) : Option Nat := l.holders.findIdx? fun h => h.device == id
def Layout.firstOf (l : Layout) (j : Nat) : Nat := match l.holders[j]? with
  | some h => h.firstSlice
  | none => l.sliceCount
/-- FIRST_SLICE and the number of slices that a device holds. -/
def Layout.held (l : Layout) (id : Nat) : Nat × Nat := match l.pos id with
  | some j => (l.firstOf j, l.firstOf (j + 1) - l.firstOf j)
  | none => (0, 0)
/-- The device and pavilion at the position that holds a slice. -/
def Layout.holderOf (l : Layout) (sl : Nat) : Option Holder :=
  (l.holders.filter fun h => decide (h.firstSlice ≤ sl)).getLast?

/-- Number k of piece p of map entry e in the rounds of R299. -/
def Layout.shardNo (l : Layout) (e p : Nat) : Nat :=
  sumNat (l.map.map fun m => min m.pieces p) + ((l.map.take e).filter fun m => decide (p < m.pieces)).length
def Layout.shardId (l : Layout) (k : Nat) : Nat := k % 8 * 131072 + l.base + k / 8
/-- Every shard of the job: SHARD_ID, map entry and piece. -/
def Layout.shards (l : Layout) : List (Nat × Nat × Nat) :=
  (List.range l.map.length).flatMap fun e =>
    (List.range ((l.map[e]?.map (·.pieces)).getD 0)).map fun p => (l.shardId (l.shardNo e p), e, p)
/-- Map entry and piece of a SHARD_ID. -/
def Layout.pieceOf (l : Layout) (n : Nat) : Option (MapEntry × Nat) :=
  match l.shards.find? fun x => x.1 == n with
  | some (_, e, p) => l.map[e]?.map fun m => (m, p)
  | none => none
/-- The slice that owns a shard (R300). -/
def Layout.owner (l : Layout) (n : Nat) : Nat := (n % 131072 - l.base) * l.sliceCount / l.perDie
/-- SHARD_ID of piece p of a tensor. -/
def Layout.shardOf (l : Layout) (tensor p : Nat) : Option Nat :=
  (l.map.findIdx? fun m => m.tensor == tensor && decide (p < m.pieces)).map fun e => l.shardId (l.shardNo e p)

def pages (n : Nat) : Nat := cdiv n 4096
/-- Byte lengths of the arrays HI, LO, M, R and C (R267); 0 for an array that is not present. -/
def arrayBytes (length cols cls form : Nat) : List Nat :=
  [2 * length, if cls = 1 then 2 * length else 0, 4 * length,
   if form = 1 then 4 * (length / cols) else 0, if form = 1 then 4 * cols else 0]
end Sys2Proof.Machine

namespace Sys2Proof

open Sys2Proof.Machine

def Rec.rows (r : Rec) : Nat := r.length / r.cols
def Rec.arrays (r : Rec) : List Nat := arrayBytes r.length r.cols r.cls r.form
/-- Byte offset of array k in its slot. -/
def Rec.arrayOff (r : Rec) (k : Nat) : Nat := 4096 * sumNat ((r.arrays.take k).map pages)
def Rec.slotPages (r : Rec) : Nat := sumNat (r.arrays.map pages)
/-- Address of slot A (false) or B (true). -/
def Rec.slotAddr (r : Rec) (b : Bool) : Nat := 4096 * (r.slotPage + if b then r.slotPages else 0)
/-- Address of gradient buffer p. -/
def Rec.gradAddr (r : Rec) (p : Nat) : Nat := 4096 * (r.gradPage + p * pages (4 * r.length))
/-- The buffer that holds the gradient for the next version, and the one that produced the current version. -/
def Rec.nextBuf (r : Rec) : Nat := (r.version.toNat + 1) % 2
def Rec.curBuf (r : Rec) : Nat := r.version.toNat % 2

end Sys2Proof

namespace Sys2Proof.Machine

def State.shard (s : State) (n : Nat) : Rec := tget s.ledger.recs n {}
def State.modShard (s : State) (n : Nat) (f : Rec → Rec) : State :=
  s.modLedger fun l => { l with recs := tset l.recs n (f (s.shard n)) }
/-- VALID shards of a pavilion, in ascending SHARD_ID. -/
def State.shardsOf (s : State) (p : Nat) : List Nat :=
  (s.ledger.recs.filter fun e => e.2.valid && e.2.pavilion == p).map (·.1)

/-- The slices that a pavilion holds, ascending: those of its position, or all without a layout (R94, R296). -/
def State.heldSlices (s : State) (v : Pav) (g : Image) : List Nat :=
  match v.reshape.active with
  | none => List.range g.sliceCount
  | some l => let (f, n) := l.held s.ownId; (List.range n).map (· + f)
def State.lowestSlice (s : State) (v : Pav) (g : Image) : Nat := (s.heldSlices v g).headD 0

/-! ### Where an element lies (R93, R101, R102, R158, R268) -/

/-- The key of an instance: its slice, or 0 for the one shared copy. -/
def Tensor.key (t : Tensor) (sl : Nat) : Nat := if t.shared then 0 else sl

/-- A place where an element's code is stored: in device memory (address of the byte, low or high nibble), or
with the pavilion's own tensor contents (flat index). -/
inductive Place where
  | mem (addr bits : Nat) (high : Bool)
  | own (idx : Nat)
  | none_
  deriving DecidableEq, Repr

/-- Coordinates (DIM0 to DIM3) of an element of one instance. -/
abbrev Coord := Nat × Nat × Nat × Nat
def Coord.get (c : Coord) (i : Nat) : Nat := match i with | 0 => c.1 | 1 => c.2.1 | 2 => c.2.2.1 | _ => c.2.2.2
def Coord.add (c : Coord) (i n : Nat) : Coord :=
  match i with
  | 0 => (c.1 + n, c.2)
  | 1 => (c.1, c.2.1 + n, c.2.2)
  | 2 => (c.1, c.2.1, c.2.2.1 + n, c.2.2.2)
  | _ => (c.1, c.2.1, c.2.2.1, c.2.2.2 + n)
/-- The row of an element among all rows, and its flat index. -/
def flatRow (d : List Nat) (c : Coord) : Nat := (c.2.2.2 * dim d 2 + c.2.2.1) * dim d 1 + c.2.1
def flatIdx (d : List Nat) (c : Coord) : Nat := flatRow d c * dim d 0 + c.1

def memPlace (base format : Nat) (d : List Nat) (c : Coord) : Place :=
  let b := formatBits format
  .mem (base + flatRow d c * rowBytes format (dim d 0) + c.1 * b / 8) b (b == 4 && c.1 % 2 == 1)

/-- The place of an element of a tensor of a loaded program. -/
def State.place (s : State) (v : Pav) (h : Handle) (i sl : Nat) (c : Coord) : Place :=
  let g := h.image
  let t := g.tensor i
  let d := g.dims i
  if t.kind = 5 then
    -- the copy of the whole CONSTANT made by PROGRAM_LOAD
    let base := ((h.constants.find? fun x => x.1 == i).map (·.2.1)).getD t.bindAddr
    let c := if t.divided then c.add t.sliceDim (sl * dim d t.sliceDim) else c
    memPlace base t.format t.dims c
  else if t.kind = 6 ∨ t.kind = 7 then
    -- parts and private copies are packed in ascending slice order (R102)
    let part := if t.divided then tensorBytes t.format t.dims / g.sliceCount else tensorBytes t.format t.dims
    memPlace (t.bindAddr + if t.shared then 0 else (sl - s.lowestSlice v g) * part) t.format d c
  else if t.sharded then
    let ten := if t.kind = 2 then i else t.owner
    match v.reshape.active with
    | none => .none_
    | some l =>
      match l.map.find? fun m => m.tensor == ten with
      | none => .none_
      | some m =>
        let row := flatRow d c
        match l.shardOf ten (row / m.pieceRows) with
        | none => .none_
        | some n =>
          let r := s.shard n
          if !r.valid || !(s.pavs.any fun e => e.1 == r.pavilion && e.2.reshape.active == some l) then .none_
          else
            let e := row % m.pieceRows * m.cols + c.1
            if t.kind = 2 then .mem (r.slotAddr r.cur + 2 * e) 16 false
            else if t.kind = 3 then
              .mem (r.gradAddr (if r.state = 1 ∨ r.state = 2 ∨ r.state = 3 then r.nextBuf else r.curBuf) + 4 * e) 32 false
            else .none_
  else .own (flatIdx d c)

def Pav.contents (v : Pav) (hd i key : Nat) : TensorData :=
  (v.data.find? fun x => x.handle == hd && x.tensor == i && x.slice == key).getD { handle := hd, tensor := i, slice := key }

/-- The stored code of an element; a free value where the manual calls it undefined. -/
def State.codeAt (s : State) (v : Pav) (hd : Nat) (h : Handle) (i sl : Nat) (c : Coord) : Nat :=
  let t := h.image.tensor i
  let free := Config.freeCode s.freeCtr i (t.key sl) (flatIdx (h.image.dims i) c) % 2 ^ formatBits t.format
  match s.place v h i sl c with
  | .mem a b hi => let x := s.readNat a (cdiv b 8); if b = 4 then (if hi then x / 16 else x % 16) else x
  | .own idx =>
    let d := v.contents hd i (t.key sl)
    (tfind d.codes idx).getD (if d.zero then 0 else free)
  | .none_ => free

/-- Store a code in a tensor of a program. -/
def State.putCode (s : State) (p hd : Nat) (h : Handle) (i sl : Nat) (c : Coord) (code : Nat) : State :=
  match s.pav p with
  | none => s
  | some v =>
    match s.place v h i sl c with
    | .mem a b hi =>
      if b = 4 then
        let x := s.readNat a 1
        s.writeMem a (leBytes 1 (if hi then x % 16 + 16 * code else x / 16 * 16 + code))
      else s.writeMem a (leBytes (b / 8) code)
    | .own idx =>
      let key := (h.image.tensor i).key sl
      let d := v.contents hd i key
      s.modPav p fun v => { v with
        data := v.data.filter (fun x => !(x.handle == hd && x.tensor == i && x.slice == key))
          ++ [{ d with codes := tset d.codes idx code }] }
    | .none_ => s

/-- Make the contents of an element undefined (R122): overwritten by a free value (log 7). -/
def State.spoilCode (s : State) (p hd : Nat) (h : Handle) (i sl : Nat) (c : Coord) : State :=
  s.putCode p hd h i sl c (Config.freeCode s.freeCtr i sl (flatIdx (h.image.dims i) c) % 2 ^ formatBits (h.image.tensor i).format)

/-! ### Values (R157, R166) -/

/-- The floating-point format of a FORMAT code. -/
def floatFormat : Nat → Option FFmt
  | 1 => some fE2M1 | 3 => some fE4M3 | 4 => some fE5M2 | 6 => some fBf16 | 7 => some fF16 | 8 => some fF32 | _ => none

def twos (bits x : Nat) : Int := if x.testBit (bits - 1) then (x : Int) - (2 ^ bits : Nat) else x

/-- The value of an E8M0 code. -/
def e8m0 (x : Nat) : Val := if x = 0xFF then .nan else .fin false 1 ((x : Int) - 127)

/-- The value of a code without a scale. -/
def codeVal (format code : Nat) : Val :=
  match floatFormat format with
  | some f => f.dec code
  | none => match format with
    | 2 => .ofInt (twos 4 code)
    | 5 => .ofInt (twos 8 code)
    | 9 => e8m0 code
    | _ => .ofNat code

/-- The same coordinates in a scale tensor: global along a divided dimension that the scale tensor does not
divide. -/
def Image.scaleCoord (g : Image) (i sc sl : Nat) (c : Coord) : Coord :=
  let t := g.tensor i
  if t.divided && (g.tensor sc).shared then c.add t.sliceDim (sl * dim (g.dims i) t.sliceDim) else c

/-- The value of an element under its SCALE_MODE (R138, R166). -/
def State.valAt (s : State) (v : Pav) (hd : Nat) (h : Handle) (i sl : Nat) (c : Coord) : Val :=
  let g := h.image
  let t := g.tensor i
  let q := s.codeAt v hd h i sl c
  let sc := t.scaleTensor
  let gc := g.scaleCoord i sc sl c
  match t.scaleMode with
  | 0 => codeVal t.format q
  | 1 => (codeVal t.format q).mul (d32 (s.codeAt v hd h sc sl (0, 0, 0, 0)))
  | 2 =>
    match e8m0 (s.codeAt v hd h sc sl (gc.1 / 32, gc.2)) with
    | .nan => .nan
    | x => ((codeVal t.format q).scale2 (if t.format = 5 then -6 else 0)).mul x
  | 3 => fBf16.dec (s.codeAt v hd h sc sl (q, gc.2.1 / 128, gc.2.2))
  | m =>
    let gr := if m = 4 then 32 else 128
    let k : Coord := (gc.1, gc.2.1 / gr, gc.2.2)
    let z := twos 8 (s.codeAt v hd h (sc + 1) sl k)
    let w := twos (formatBits t.format) q
    fBf16.dec (fBf16.enc false ((d32 (s.codeAt v hd h sc sl k)).mul (.ofInt (w - z))))

/-- A value widened to binary32, rounded once where the scale leaves its range (R163). -/
def State.wide (s : State) (v : Pav) (hd : Nat) (h : Handle) (i sl : Nat) (c : Coord) : Nat := r32 (s.valAt v hd h i sl c)

/-- Coordinates of a broadcast operand: index 0 along a dimension of size 1. -/
def bcast (d : List Nat) (c : Coord) : Coord :=
  let k := fun i => if dim d i = 1 then 0 else c.get i
  (k 0, k 1, k 2, k 3)

/-! ### Results (R164, R168, R169, R173 to R175) -/

/-- A result element of a tile: its row and column in the tile, the binary32 values of its stages in order with
their SOURCE, and whether a NaN reached the operation. -/
structure Elem where
  r : Nat
  c : Nat
  stages : List (Nat × Nat)
  cause : Bool
  deriving DecidableEq, Repr

def Elem.val (e : Elem) : Nat := (e.stages.getLast?.map (·.2)).getD 0
/-- SOURCE of the first stage that holds NaN. -/
def Elem.nanStage (e : Elem) : Option Nat := (e.stages.find? fun x => isNan32 x.2).map (·.1)

/-- The element's code in OUT without a block scale. -/
def convertPlain (t : Tensor) (scale : Val) (v : Nat) : Nat :=
  match floatFormat t.format with
  | some f => if t.format = 8 ∧ t.scaleMode = 0 then v
              else f.enc t.saturate (if t.scaleMode = 1 then (d32 v).div scale else d32 v)
  | none => v % 2 ^ formatBits t.format

/-- Floor of log2 of a finite nonzero value. -/
def floorLog2 (v : Val) : Int := match v with
  | .fin _ m e => (m.log2 : Int) + e
  | _ => 0

/-- The E8M0 scale of a block of binary32 values (R168). -/
def blockScale (format : Nat) (vs : List Nat) : Nat :=
  if vs.any isNan32 then 0xFF
  else
    let fin := (vs.map d32).filter fun x => x.isFin && !x.isZero
    match fin with
    | [] => 0
    | a :: t =>
      let m := t.foldl (fun (x y : Val) => if x.abs.lt y.abs then y else x) a
      let x := floorLog2 m - (if format = 3 then 8 else 15) + 127
      (max 0 (min 254 x)).toNat

/-- An element of a scaled block (R168 step 3): a finite overflow always saturates. -/
def blockElem (t : Tensor) (x v : Nat) : Nat :=
  match floatFormat t.format with
  | none => 0
  | some f =>
    if x = 0xFF then f.nan
    else match d32 v with
      | .inf sg => f.enc t.saturate (.inf sg)
      | w => f.enc true (w.scale2 (127 - (x : Int)))

/-- A written element: its code in OUT, and the SOURCE and cause where it holds NaN. -/
structure Written where
  r : Nat
  c : Nat
  code : Nat
  nan : Option (Nat × Bool)
  deriving DecidableEq, Repr

def isNanCode (format code : Nat) : Bool := (codeVal format code).isNan

/-- SOURCE of a NaN that the conversion itself makes: 3 in a drain, in a vector engine that of its stage (R175). -/
def Elem.convSource (e : Elem) : Nat := match e.stages.getLast? with
  | some (n, _) => if 4 ≤ n then n else 3
  | none => 3

/-- Convert the elements of a tile into OUT; the block scales come with the number of their block. A NaN scale is an input
of the conversion (R169, R174). -/
def convertTile (t : Tensor) (scale : Val) (els : List Elem) : List Written × List (Nat × Nat × Nat) :=
  if t.scaleMode = 2 then
    let blocks := (els.map fun e => (e.r, e.c / 32)).eraseDups
    let scales := blocks.map fun b =>
      (b.1, b.2, blockScale t.format ((els.filter fun e => e.r == b.1 && e.c / 32 == b.2).map Elem.val))
    (els.map fun e =>
      let x := ((scales.find? fun y => y.1 == e.r && y.2.1 == e.c / 32).map (·.2.2)).getD 0
      { r := e.r, c := e.c, code := blockElem t x e.val
        -- an infinity that becomes NaN without saturation is found in the conversion
        nan := match e.nanStage with
          | some st => some (st, e.cause)
          | none => if x ≠ 0xFF ∧ isNanCode t.format (blockElem t x e.val) then some (e.convSource, e.cause) else none },
      scales)
  else
    (els.map fun e =>
      let code := convertPlain t scale e.val
      { r := e.r, c := e.c, code := code
        nan := match e.nanStage with
          | some st => some (st, e.cause)
          | none => if t.format ≠ 10 ∧ isNanCode t.format code then
              some (e.convSource, e.cause || (t.scaleMode == 1 && scale.isNan)) else none }, [])

/-- Coordinates of an element of a tile. -/
def Image.tileCoord (g : Image) (i : Nat) (t : TileRef) (r c : Nat) : Coord :=
  (t.col * (g.tensor i).tileCols + c, t.row * (g.tensor i).tileRows + r, t.d2, t.d3)
/-- Rows and columns of a tile inside the tensor's edges (R116). -/
def Image.tileSize (g : Image) (i : Nat) (t : TileRef) : Nat × Nat :=
  let d := g.dims i
  let x := g.tensor i
  (min x.tileRows (dim d 1 - t.row * x.tileRows), min x.tileCols (dim d 0 - t.col * x.tileCols))

/-- The rows of bytes of a region of a tensor instance in device memory: none for contents that the pavilion keeps itself. -/
def State.regionRows (s : State) (v : Pav) (h : Handle) (i sl : Nat) (lo hi : List Nat) : List (Nat × Nat) :=
  let n := hi.getD 0 1 - lo.getD 0 0
  let rows := (List.range (hi.getD 3 1 - lo.getD 3 0)).flatMap fun z =>
    (List.range (hi.getD 2 1 - lo.getD 2 0)).flatMap fun y =>
      (List.range (hi.getD 1 1 - lo.getD 1 0)).map fun x =>
        ((lo.getD 0 0, lo.getD 1 0 + x, lo.getD 2 0 + y, lo.getD 3 0 + z) : Coord)
  if !([5, 6, 7].contains (h.image.tensor i).kind) && !(h.image.tensor i).sharded then []
  else rows.filterMap fun c => match s.place v h i sl c with
    | .mem b w _ => some (b, cdiv (n * w) 8)
    | _ => none
/-- The rows of bytes of a tile. -/
def State.tileRows (s : State) (v : Pav) (h : Handle) (i : Nat) (t : TileRef) : List (Nat × Nat) :=
  let c := h.image.tileCoord i t 0 0
  let (nr, nc) := h.image.tileSize i t
  s.regionRows v h i t.slice [c.1, c.2.1, c.2.2.1, c.2.2.2] [c.1 + nc, c.2.1 + nr, c.2.2.1 + 1, c.2.2.2 + 1]

/-- Every byte of the code word at w lies in one of the ranges. -/
def covered (l : List (Nat × Nat)) (w : Nat) : Bool :=
  (List.range (codeWord w)).all fun k => l.any fun r => decide (r.1 ≤ w + k ∧ w + k < r.1 + r.2)
/-- The first uncorrectable code word that a write of ranges covers only in part (R225). -/
def State.badUnder (s : State) (l : List (Nat × Nat)) : Option Nat :=
  s.mem.bad.find? fun w => (l.any fun r => overlaps w (codeWord w) r.1 r.2) && !covered l w
/-- A write that covers a code word leaves it whole. -/
def State.renew (s : State) (l : List (Nat × Nat)) : State :=
  if s.mem.bad.isEmpty then s else s.modMem fun m => { m with bad := m.bad.filter fun w => !covered l w }

/-- Write the converted elements of a tile, in ascending row and column, with the block scales. -/
def State.writeTile (s : State) (p hd : Nat) (h : Handle) (i : Nat) (t : TileRef) (els : List Elem) :
    State × List Written :=
  let g := h.image
  let ten := g.tensor i
  let scale := match s.pav p with
    | some v => if ten.scaleMode = 1 then d32 (s.codeAt v hd h ten.scaleTensor t.slice (0, 0, 0, 0)) else .one
    | none => .one
  let (ws, scs) := convertTile ten scale els
  let s := match s.pav p with
    | some v => s.renew (s.tileRows v h i t)
    | none => s
  let s := forEach ws (fun s w => s.putCode p hd h i t.slice (g.tileCoord i t w.r w.c) w.code) s
  let s := forEach scs (fun s b =>
    let c := g.scaleCoord i ten.scaleTensor t.slice (g.tileCoord i t b.1 (32 * b.2.1))
    s.putCode p hd h ten.scaleTensor t.slice (c.1 / 32, c.2) b.2.2) s
  (s, ws)

end Sys2Proof.Machine
end

