-- ==== Sys2Proof/Machine/Vector.lean ====
section
/-! DEFINITION. What a vector operation computes for one tile (R199 to R213): pure functions of the operands, used
by the operations themselves and by the checkers (R200). -/

namespace Sys2Proof.Machine

/-- One instance of an operation of a loaded program, with everything its operands are read from. -/
structure Inst where
  s : State
  v : Pav
  hd : Nat
  h : Handle
  o : Op
  sl : Nat

def Inst.img (x : Inst) : Image := x.h.image
/-- The vector engines use the forerunner definitions (R182, R213). -/
def Inst.fr (x : Inst) : Bool := x.h.mode == 1
def Inst.dims (x : Inst) (i : Nat) : List Nat := x.img.dims i
/-- An operand's element as binary32, with broadcasting. -/
def Inst.get (x : Inst) (i : Nat) (c : Coord) : Nat := x.s.wide x.v x.hd x.h i x.sl (bcast (x.dims i) c)

/-- Every row and column of a tile of tensor i. -/
def Inst.cells (x : Inst) (i : Nat) (t : TileRef) : List (Nat × Nat) :=
  let (r, c) := x.img.tileSize i t
  (List.range r).flatMap fun a => (List.range c).map fun b => (a, b)

/-- The elements along DIM0 of one row. -/
def Inst.row (x : Inst) (i : Nat) (c : Coord) : List Nat :=
  (List.range (dim (x.dims i) 0)).map fun k => x.get i (k, c.2)

def anyNan (l : List Nat) : Bool := l.any isNan32
def nth (l : List Nat) (i : Nat) : Nat := l.getD i 0
def zipMap (f : Nat → Nat → Nat) (a b : List Nat) : List Nat := List.zipWith f a b

/-- ELEMENTWISE (R201). -/
def Inst.elementwise (x : Inst) (t : TileRef) : List Elem :=
  (x.cells x.o.out t).map fun e =>
    let c := x.img.tileCoord x.o.out t e.1 e.2
    let a := x.get x.o.a c
    let b := if x.o.b = 0 then 0 else x.get x.o.b c
    let d := if x.o.c = 0 then 0 else x.get x.o.c c
    { r := e.1, c := e.2, stages := [(4, applyFunc x.fr x.o.func x.o.imm a b d)], cause := anyNan [a, b, d] }

/-- A fold of maximum or minimum from its first element. -/
def foldFirst (f : Nat → Nat → Nat) : List Nat → Nat
  | [] => 0
  | a :: t => t.foldl f (r32 (d32 a))

/-- REDUCE over AXIS in ascending index, then into OUT when ACC = 1 (R205). -/
def Inst.reduce (x : Inst) (t : TileRef) : List Elem :=
  (x.cells x.o.out t).map fun e =>
    let c := x.img.tileCoord x.o.out t e.1 e.2
    let xs := (List.range (dim (x.dims x.o.a) x.o.axis)).map fun k => x.get x.o.a (c.add x.o.axis k)
    let r := match x.o.redOp with
      | 0 => sumPlain x.fr xs
      | 1 => foldFirst max32 xs
      | 2 => foldFirst min32 xs
      | _ => sumProd x.fr (xs.map fun y => (y, y))
    let old := x.get x.o.out c
    let f := match x.o.redOp with | 1 => max32 | 2 => min32 | _ => add32
    { r := e.1, c := e.2, stages := if x.o.acc then [(5, r), (5, f old r)] else [(5, r)]
      cause := anyNan xs || (x.o.acc && isNan32 old) }

/-- Row statistics (R206, R213): the values d_j of the row and r. -/
def normStats (fr : Bool) (kind eps : Nat) (xs : List Nat) : List Nat × Nat :=
  let l := xs.length
  let sq := fun (ys : List Nat) => sumProd fr (ys.map fun y => (y, y))
  if kind = 1 then (xs, rsqrt32 (add32 (divNat32 (sq xs) l) eps))
  else
    let mu := divNat32 (sumPlain fr xs) l
    let ds := xs.map fun y => sub32 y mu
    let var := if fr then max32 (sub32 (divNat32 (sq xs) l) (mul32 mu mu)) 0 else divNat32 (sq ds) l
    (ds, rsqrt32 (add32 var eps))

/-- NORM_FWD (R206). -/
def Inst.normFwd (x : Inst) (t : TileRef) : List Elem :=
  let (nr, nc) := x.img.tileSize x.o.out t
  (List.range nr).flatMap fun r =>
    let c := x.img.tileCoord x.o.out t r 0
    let xs := x.row x.o.a c
    let gam := x.row x.o.b (0, 0, 0, 0)
    let bet := if x.o.c = 0 then [] else x.row x.o.c (0, 0, 0, 0)
    let (ds, k) := normStats x.fr x.o.normKind x.o.eps xs
    let bad := anyNan xs || anyNan gam || anyNan bet
    (List.range nc).map fun b =>
      let j := c.1 + b
      let y := mul32 (mul32 (nth ds j) k) (nth gam j)
      { r := r, c := b, stages := [(5, if x.o.c = 0 then y else add32 y (nth bet j))], cause := bad }

/-- Of one row of NORM_BWD: dy, x̂ and dx, and whether a NaN came in (R207). -/
def Inst.normBwdRow (x : Inst) (c : Coord) : List Nat × List Nat × List Nat × Bool :=
  let xs := x.row x.o.a c
  let gam := x.row x.o.b (0, 0, 0, 0)
  let dy := x.row x.o.c c
  let l := xs.length
  let (ds, k) := normStats x.fr x.o.normKind x.o.eps xs
  let xh := ds.map fun d => mul32 d k
  let g := zipMap mul32 dy gam
  let mb := divNat32 (sumProd x.fr (g.zip xh)) l
  let ma := divNat32 (sumPlain x.fr g) l
  let dx := (g.zip xh).map fun e =>
    let f := mul32 e.2 mb
    mul32 (sub32 (if x.o.normKind = 1 then e.1 else sub32 e.1 ma) f) k
  (dy, xh, dx, anyNan xs || anyNan gam || anyNan dy)

/-- NORM_BWD: dx (R207). -/
def Inst.normBwd (x : Inst) (t : TileRef) : List Elem :=
  let (nr, nc) := x.img.tileSize x.o.out t
  (List.range nr).flatMap fun r =>
    let c := x.img.tileCoord x.o.out t r 0
    let (_, _, dx, bad) := x.normBwdRow c
    (List.range nc).map fun b => { r := r, c := b, stages := [(5, nth dx (c.1 + b))], cause := bad }

/-- Every row of tensor i in the order of R199. -/
def allRows (d : List Nat) : List Coord :=
  (List.range (dim d 3)).flatMap fun z => (List.range (dim d 2)).flatMap fun y =>
    (List.range (dim d 1)).map fun r => (0, r, y, z)

/-- dγ and dβ of an instance, added into the existing contents of OUT2 and OUT3 (R208): column and stages. -/
def Inst.normSums (x : Inst) : List Elem × List Elem :=
  let rows := (allRows (x.dims x.o.a)).map x.normBwdRow
  let bad := rows.any fun e => e.2.2.2
  let cols := List.range (dim (x.dims x.o.a) 0)
  let one := fun (i j sum : Nat) =>
    let old := x.get i (j, 0, 0, 0)
    ({ r := 0, c := j, stages := [(5, sum), (5, add32 old sum)], cause := bad || isNan32 old } : Elem)
  (if x.o.out2 = 0 then [] else cols.map fun j => one x.o.out2 j (sumProd x.fr (rows.map fun e => (nth e.1 j, nth e.2.1 j))),
   if x.o.out3 = 0 then [] else cols.map fun j => one x.o.out3 j (sumPlain x.fr (rows.map fun e => nth e.1 j)))

/-- One row of the soft maximum: the values y_j of the included elements, the first `n` (R209). -/
def softRow (fr : Bool) (scale : Nat) (xs : List Nat) (n : Nat) : List Nat :=
  let z := (xs.take n).map fun y => mul32 scale y
  let m := z.foldl max32 0xFF800000
  let e := z.map fun y => expIn fr (sub32 y m)
  let sum := sumPlain fr e
  if fr then let k := recip32 sum; e.map fun y => mul32 y k else e.map fun y => div32 y sum

/-- Included elements of a row: all, or those with j ≤ i, both counted in the whole tensor (DEDUCED, log 18: a divided
tensor's part begins at its slice). -/
def Inst.included (x : Inst) (c : Coord) : Nat :=
  let d := x.dims x.o.a
  let t := x.img.tensor x.o.a
  let first := fun (k : Nat) => if t.sliceDim = k then x.sl * dim d k else 0
  if x.o.causal then min (dim d 0) (first 1 + c.2.1 + 1 - first 0) else dim d 0

/-- SOFTMAX_FWD (R209). -/
def Inst.softmaxFwd (x : Inst) (t : TileRef) : List Elem :=
  let (nr, nc) := x.img.tileSize x.o.out t
  (List.range nr).flatMap fun r =>
    let c := x.img.tileCoord x.o.out t r 0
    let xs := x.row x.o.a c
    let n := x.included c
    let ys := softRow x.fr x.o.preScale xs n
    let bad := anyNan (xs.take n) || isNan32 x.o.preScale
    (List.range nc).map fun b => { r := r, c := b, stages := [(5, nth ys (c.1 + b))], cause := bad }

/-- SOFTMAX_BWD (R210). -/
def Inst.softmaxBwd (x : Inst) (t : TileRef) : List Elem :=
  let (nr, nc) := x.img.tileSize x.o.out t
  (List.range nr).flatMap fun r =>
    let c := x.img.tileCoord x.o.out t r 0
    let xs := x.row x.o.a c
    let n := x.included c
    let ys := softRow x.fr x.o.preScale xs n
    let dy := (x.row x.o.b c).take n
    let p := sumProd x.fr (ys.zip dy)
    let dx := (ys.zip dy).map fun e => mul32 (mul32 e.1 (sub32 e.2 p)) x.o.preScale
    let bad := anyNan (xs.take n) || anyNan dy || isNan32 x.o.preScale
    (List.range nc).map fun b => { r := r, c := b, stages := [(5, nth dx (c.1 + b))], cause := bad }

/-! ### What a vector engine counts (R214, R216) -/

/-- Passes over each row of an operation with row sums (R214). -/
def Op.rowPasses (o : Op) : Nat :=
  match o.code with
  | 0x11 => 1
  | 0x18 => if o.normKind = 0 then 3 else 2
  | 0x19 => if o.normKind = 0 then 4 else 3
  | 0x1A => 3
  | 0x1B => 5
  | 0x32 => 1
  | _ => 0

/-- Primitives that FUNC evaluates for one element: the correctly rounded functions of cost 4, and those among the steps of a
composite (R202, R203; log 12). -/
def funcPrims (func a : Nat) : Nat :=
  if (3 ≤ func ∧ func ≤ 0x0F) ∨ func = 0x23 ∨ func = 0x13 ∨ func = 0x14 then 1
  else if [0x10, 0x11, 0x12, 0x43, 0x45].contains func then 2
  else if func = 0x44 then (if (Val.ofNat 16).lt (d32 a).abs then 0 else 1)
  else 0

/-- Primitives that the statistics and soft maximum of one row evaluate over n included elements (R206 to R210, R213): the
divisions, the reciprocal square root and the exponentials. -/
def Inst.rowPrims (x : Inst) (n : Nat) : Nat :=
  match x.o.code with
  | 0x18 => if x.o.normKind = 0 then 3 else 2
  | 0x19 => if x.o.normKind = 0 then 5 else 3
  | 0x1A => if x.fr then n + 1 else 2 * n
  | 0x1B => if x.fr then n + 1 else 2 * n
  | _ => 0

/-- Row passes and primitive evaluations that a tile adds. A row counts with its first column tile, which begins it. -/
def Inst.workOf (x : Inst) (t : TileRef) : Nat × Nat :=
  let nr := (x.img.tileSize x.o.out t).1
  if x.o.code = 0x10 then
    (0, sumNat ((x.cells x.o.out t).map fun e =>
      funcPrims x.o.func (x.get x.o.a (x.img.tileCoord x.o.out t e.1 e.2))))
  else if x.o.code = 0x11 then (x.o.rowPasses * (x.cells x.o.out t).length, 0)
  else if t.col ≠ 0 then (0, 0)
  else (x.o.rowPasses * nr, sumNat ((List.range nr).map fun r => x.rowPrims (x.included (x.img.tileCoord x.o.out t r 0))))

/-- Insert by TIE_USE. -/
def insertUse (g : Image) (i : Nat) : List Nat → List Nat
  | [] => [i]
  | a :: t => if (g.tensor i).tieUse < (g.tensor a).tieUse then i :: a :: t else a :: insertUse g i t

/-- Buffers of the tie group of IN_A in ascending TIE_USE. -/
def Image.tieBuffers (g : Image) (o : Op) : List Nat :=
  let l := (List.range g.tensors.length).filter fun i => i != 0 && (g.tensor i).tieGroup == (g.tensor o.a).tieGroup
  l.foldl (fun acc i => insertUse g i acc) []

/-- TIE_SUM: a left fold from +0 in ascending TIE_USE, in every numerics mode (R180, R194). -/
def Inst.tieSum (x : Inst) (t : TileRef) : List Elem :=
  let bufs := x.img.tieBuffers x.o
  (x.cells x.o.out t).map fun e =>
    let c := x.img.tileCoord x.o.out t e.1 e.2
    let vs := bufs.map fun i => x.get i c
    { r := e.1, c := e.2, stages := [(5, vs.foldl add32 0)], cause := anyNan vs }

/-- The source element of WINDOW_GATHER's element c of OUT; none in the padding (R234). -/
def Inst.windowSrc (x : Inst) (c : Coord) : Option Coord :=
  let w := x.o.window
  let d := x.dims x.o.a
  let ow := ((windowOut w (dim d 2) (dim d 1)).map (·.2)).getD 1
  let ch := dim d 0
  let (oh, owi) := (c.2.1 / ow, c.2.1 % ow)
  let (wh, ww, k) := (c.1 / (ch * w.getD 1 1), c.1 / ch % w.getD 1 1, c.1 % ch)
  let ih : Int := (oh * w.getD 2 1 + wh * w.getD 6 1 : Nat) - (w.getD 4 0 : Int)
  let iw : Int := (owi * w.getD 3 1 + ww * w.getD 7 1 : Nat) - (w.getD 5 0 : Int)
  if 0 ≤ ih ∧ ih < dim d 2 ∧ 0 ≤ iw ∧ iw < dim d 1 then some (k, iw.toNat, ih.toNat, c.2.2.1) else none
/-- WINDOW_GATHER: the code of each element of the tile, copied bit for bit, or zero outside the source. -/
def Inst.windowCodes (x : Inst) (t : TileRef) : List (Nat × Nat × Nat) :=
  (x.cells x.o.out t).map fun e =>
    (e.1, e.2, match x.windowSrc (x.img.tileCoord x.o.out t e.1 e.2) with
      | some c => x.s.codeAt x.v x.hd x.h x.o.a x.sl c
      | none => 0)
/-- Elements of the tile that come from the source. -/
def Inst.windowReads (x : Inst) (t : TileRef) : Nat :=
  ((x.cells x.o.out t).filter fun e => (x.windowSrc (x.img.tileCoord x.o.out t e.1 e.2)).isSome).length

end Sys2Proof.Machine
end

