-- ==== Sys2Proof/Machine/Matrix.lean ====
section
/-! DEFINITION. What a matrix operation computes for one tile (R126 to R151, R170 to R172, R180, R184 to R191): the
column folds of one pass, the stitch chain and the drain. -/

namespace Sys2Proof.Machine

/-- The forerunner's folds are in force (R180, R182). -/
def Inst.frMatrix (x : Inst) : Bool := x.h.mode != 0

/-- K of the operation (R107). -/
def Inst.kSize (x : Inst) : Nat := (x.img.matDims x.o.a x.o.transA).2.1
/-- Stitches of the operation: ⌈K / 2,048⌉, or one for the forerunner's tree (R185, R190). -/
def Inst.stitches (x : Inst) : Nat := if x.frMatrix then 1 else max 1 (cdiv x.kSize 2048)

def matCoord (trans : Bool) (row col d2 d3 : Nat) : Coord := if trans then (row, col, d2, d3) else (col, row, d2, d3)
/-- Element (m, k) of A and (k, n) of B for the matrix at DIM2 and DIM3 indices, which broadcast (R107). -/
def Inst.aVal (x : Inst) (m k d2 d3 : Nat) : Val :=
  x.s.valAt x.v x.hd x.h x.o.a x.sl (let d := x.dims x.o.a
    matCoord x.o.transA m k (if dim d 2 = 1 then 0 else d2) (if dim d 3 = 1 then 0 else d3))
def Inst.bVal (x : Inst) (k n d2 d3 : Nat) : Val :=
  x.s.valAt x.v x.hd x.h x.o.b x.sl (let d := x.dims x.o.b
    matCoord x.o.transB k n (if dim d 2 = 1 then 0 else d2) (if dim d 3 = 1 then 0 else d3))

/-- The left fold of rounded products over consecutive K positions (R133). -/
def foldProducts (acc : Nat) (ps : List Val) : Nat := ps.foldl (fun a p => add32 a (r32 p)) acc

/-- K positions of one chunk: what one loading of the array covers (R127, R137). -/
def Inst.chunkLen (x : Inst) : Nat :=
  match (x.img.tensor x.o.b).format with
  | 1 => if x.o.transA || x.o.transB then 256 else 512
  | 2 => 512
  | 3 => 256 | 4 => 256 | 5 => 256
  | _ => 128
/-- First K position and number of positions of a pass: those of its stitch (R185, R187), or the whole of K where the
forerunner forms no stitches (R190). -/
def Inst.kSpan (x : Inst) (stitch : Nat) : Nat × Nat :=
  if x.frMatrix then (0, x.kSize) else (2048 * stitch, min 2048 (x.kSize - 2048 * stitch))
/-- Loadings of the array in a pass: one for each chunk and sweep (R131, R140). -/
def Inst.loads (x : Inst) (wide stitch : Nat) : Nat := cdiv (x.kSpan stitch).2 x.chunkLen * (sweeps wide).length
/-- Chunk and sweep of loading j. -/
def loadOf (wide j : Nat) : Nat × Nat × Nat := (j / (sweeps wide).length, (sweeps wide).getD (j % (sweeps wide).length) (0, 0))
/-- K positions of one chunk of a pass, ascending and within the edge (R135). -/
def Inst.chunkK (x : Inst) (stitch chunk : Nat) : List Nat :=
  let (k0, n) := x.kSpan stitch
  (List.range (min x.chunkLen (n - chunk * x.chunkLen))).map (· + (k0 + chunk * x.chunkLen))

/-- The forerunner's element: C + T (R180). -/
def Inst.forerunnerSum (x : Inst) (m n d2 d3 init : Nat) : Nat :=
  add32 init (treeOf ((List.range x.kSize).map fun k => (x.aVal m k d2 d3).mul (x.bVal k n d2 d3)))

/-- What an entry holds after loading j of a pass, from what it held before: one column fold (R133, R140). In forerunner
numerics the tree closes with the last loading (R180; log 47). -/
def Inst.loadSum (x : Inst) (wide m n d2 d3 stitch j acc : Nat) : Nat :=
  if x.frMatrix then if j + 1 = x.loads wide stitch then x.forerunnerSum m n d2 d3 acc else acc
  else
    let (chunk, sweep) := loadOf wide j
    foldProducts acc ((x.chunkK stitch chunk).map fun k =>
      let a := x.aVal m k d2 d3
      let b := x.bVal k n d2 d3
      if wide = 0 then a.mul b else sweepProduct sweep a b)

/-- The stitch sum of output element (m, n) from its initial value: every loading in turn (R184 to R187). -/
def Inst.stitchSum (x : Inst) (wide m n d2 d3 stitch init : Nat) : Nat :=
  (List.range (x.loads wide stitch)).foldl (fun a j => x.loadSum wide m n d2 d3 stitch j a) init

/-- C of an element: the binary32 contents of OUT when ACC = 1, else +0 (R134). -/
def Inst.initial (x : Inst) (c : Coord) : Nat :=
  if x.o.acc then x.s.codeAt x.v x.hd x.h x.o.out x.sl c else 0

/-- Whether a MATMUL_WGRAD mask lets element (m, n) be computed (R150, R151). -/
def Inst.unmasked (x : Inst) (m n : Nat) : Bool :=
  if x.o.code ≠ 2 ∨ x.o.c = 0 then true
  else
    let d := x.dims x.o.c
    let i := if x.o.maskBlocks then m / 128 * cdiv (dim (x.dims x.o.out) 0) 128 + n / 128 else m
    let c : Coord := (i % dim d 0, i / dim d 0 % dim d 1, i / dim d 0 / dim d 1 % dim d 2, i / dim d 0 / dim d 1 / dim d 2)
    x.s.codeAt x.v x.hd x.h x.o.c x.sl c != 0

/-- Column blocks of a tile: 128 columns each, or the whole of a narrower tile (R128). -/
def Inst.blocks (x : Inst) (t : TileRef) : Nat := max 1 (cdiv (x.img.tileSize x.o.out t).2 128)

/-- Columns of one column block of a tile. -/
def Inst.blockCols (x : Inst) (t : TileRef) (block : Nat) : List Nat :=
  (List.range (min 128 ((x.img.tileSize x.o.out t).2 - 128 * block))).map (· + 128 * block)
/-- Rows of a tile that a column block computes: a mask covers whole rows of it (R150, R151). -/
def Inst.blockRows (x : Inst) (t : TileRef) (block : Nat) : List Nat :=
  (List.range (x.img.tileSize x.o.out t).1).filter fun r =>
    let c := x.img.tileCoord x.o.out t r (128 * block)
    x.unmasked c.2.1 c.1

/-- One row of a column block before its first loading: C in stitch 0, else +0 (R134, R187). -/
def Inst.firstRow (x : Inst) (t : TileRef) (block stitch r : Nat) : List Nat :=
  (x.blockCols t block).map fun k => if stitch = 0 then x.initial (x.img.tileCoord x.o.out t r k) else 0
/-- One row of a column block after loading j. -/
def Inst.loadRow (x : Inst) (wide : Nat) (t : TileRef) (block stitch j r : Nat) (row : List Nat) : List Nat :=
  List.zipWith (fun k a =>
    let c := x.img.tileCoord x.o.out t r k
    x.loadSum wide c.2.1 c.1 c.2.2.1 c.2.2.2 stitch j a) (x.blockCols t block) row
/-- The sums of a column block of a tile by row: what a pass leaves (R133, R187). `wide` is the operation's, or the
checker's. -/
def Inst.passRows (x : Inst) (wide : Nat) (t : TileRef) (block stitch : Nat) : Tbl (List Nat) :=
  (x.blockRows t block).map fun r => (r, List.zipWith (fun k a =>
    let c := x.img.tileCoord x.o.out t r k
    x.stitchSum wide c.2.1 c.1 c.2.2.1 c.2.2.2 stitch a) (x.blockCols t block) (x.firstRow t block stitch r))

/-- The 16 bits of a cell: its codes of IN_B, the lowest K in the lowest bits; in a wide mode the bfloat16 part of the sweep
(R126, R127, R140; log 47). -/
def Inst.cellCode (x : Inst) (wide : Nat) (ks : List Nat) (n d2 d3 y : Nat) : Nat :=
  let bits := 2048 / x.chunkLen
  let d := x.dims x.o.b
  let code := fun (k : Nat) =>
    if wide ≠ 0 then fBf16.enc false ((wideSplit (x.bVal k n d2 d3)).getD y .zero)
    else x.s.codeAt x.v x.hd x.h x.o.b x.sl (bcast d (matCoord x.o.transB k n d2 d3))
  ks.foldr (fun k w => w * 2 ^ bits + code k) 0
/-- The weight registers after loading j of a column block. -/
def Inst.weights (x : Inst) (wide : Nat) (t : TileRef) (block stitch j : Nat) : Weights :=
  let (chunk, sweep) := loadOf wide j
  let per := x.chunkLen / 128
  let ks := x.chunkK stitch chunk
  (List.range (cdiv ks.length per)).flatMap fun r => (x.blockCols t block).map fun k =>
    let c := x.img.tileCoord x.o.out t 0 k
    (r, k - 128 * block, x.cellCode wide ((ks.drop (r * per)).take per) c.1 c.2.2.1 c.2.2.2 sweep.2)

/-- Add stitch sums into rows, element by element (R188). -/
def addRows (a b : Tbl (List Nat)) : Tbl (List Nat) :=
  a.map fun x => (x.1, match tfind b x.1 with
    | some y => zipMap add32 x.2 y
    | none => x.2)

/-- A NaN among the operands of element (m, n) (R174 CAUSE_INPUT). -/
def Inst.operandNan (x : Inst) (m n d2 d3 : Nat) : Bool :=
  (List.range x.kSize).any fun k => (x.aVal m k d2 d3).isNan || (x.bVal k n d2 d3).isNan

/-- The drain of R146: the stages of each element of a column block, by row. -/
def Inst.drain (x : Inst) (t : TileRef) (block : Nat) (rows : Tbl (List Nat)) : List Elem :=
  rows.flatMap fun e => List.zipWith (fun k v1 =>
    let c := x.img.tileCoord x.o.out t e.1 k
    let v2 := if x.o.scaleEn then mul32 v1 x.o.outScale else v1
    let f := if x.o.fuse = 0 then 0 else x.get x.o.c c
    let v3 := match x.o.fuse with | 1 => add32 v2 f | 2 => mul32 v2 f | _ => v2
    let nan := isNan32 v1 || isNan32 v2 || isNan32 v3
    { r := e.1, c := k
      stages := [(0, v1)] ++ (if x.o.scaleEn then [(1, v2)] else []) ++ (if x.o.fuse = 0 then [] else [(2, v3)])
      cause := nan && (x.operandNan c.2.1 c.1 c.2.2.1 c.2.2.2 || isNan32 (x.initial c)
        || (x.o.scaleEn && isNan32 x.o.outScale) || (x.o.fuse != 0 && isNan32 f)) }) (x.blockCols t block) e.2

/-- A whole tile with its stitch chain, as a checker recomputes it (R196). -/
def Inst.matrixTile (x : Inst) (wide : Nat) (t : TileRef) : List Elem :=
  (List.range (x.blocks t)).flatMap fun b =>
    x.drain t b (((List.range x.stitches).drop 1).foldl (fun acc st => addRows acc (x.passRows wide t b st)) (x.passRows wide t b 0))

/-- The elements of a tile by its operation code, in the operation's own wide mode. -/
def Inst.tile (x : Inst) (t : TileRef) : List Elem :=
  match x.o.code with
  | 0x01 => x.matrixTile x.o.wide t
  | 0x02 => x.matrixTile x.o.wide t
  | 0x10 => x.elementwise t
  | 0x11 => x.reduce t
  | 0x18 => x.normFwd t
  | 0x19 => x.normBwd t
  | 0x1A => x.softmaxFwd t
  | 0x1B => x.softmaxBwd t
  | 0x32 => x.tieSum t
  | _ => []

end Sys2Proof.Machine
end

