-- ==== Sys2Proof/Machine/Run.lean ====
section
/-! DEFINITION. The running program of a pavilion: which tiles may start (R108 to R113, R247 to R252), finishing
tiles and operations, NaN traps (R173 to R179), barriers (R370), step boundaries (R260) and the end of a run. -/

namespace Sys2Proof.Machine

/-! ### The running program -/

def State.runOf (s : State) (p : Nat) : Option (Pav × Run × Handle) :=
  match s.pav p with
  | none => none
  | some v => match v.run with
    | none => none
    | some r => match tfind v.handles r.handle with
      | none => none
      | some h => some (v, r, h)

def State.modRun (s : State) (p : Nat) (f : Run → Run) : State := s.modPav p fun v => { v with run := v.run.map f }

/-- Coordinates of a flat index. -/
def coordOf (d : List Nat) (i : Nat) : Coord :=
  let r := i / dim d 0
  (i % dim d 0, r % dim d 1, r / dim d 1 % dim d 2, r / dim d 1 / dim d 2)

/-- Every code of a tensor instance, in ascending flat index. -/
def State.allCodes (s : State) (v : Pav) (hd : Nat) (h : Handle) (i sl : Nat) : List Nat :=
  let d := h.image.dims i
  (List.range (elems d)).map fun k => s.codeAt v hd h i sl (coordOf d k)
/-- Put kept contents back. -/
def State.putSnap (s : State) (p hd : Nat) (h : Handle) (x : Snap) : State :=
  let d := h.image.dims x.tensor
  forEach ((List.range x.codes.length).zip x.codes)
    (fun s e => s.putCode p hd h x.tensor x.slice (coordOf d e.1) e.2) s

/-- The operation instance of a tile of the running program. Operands that the instance also writes read as they stood when
it began (log 42). -/
def State.inst (s : State) (p : Nat) (t : TileRef) : Option Inst :=
  match s.runOf p with
  | none => none
  | some (_, r, h) =>
    let s := forEach (r.snaps.filter fun x => x.op == t.op && x.slice == t.slice) (fun s x => s.putSnap p r.handle h x) s
    (s.runOf p).map fun x => { s := s, v := x.1, hd := x.2.1.handle, h := x.2.2, o := x.2.2.image.op t.op, sl := t.slice }

/-- Operands of an operation that it also writes. -/
def Image.inPlace (g : Image) (o : Op) : List Nat :=
  let direct := [o.a, o.b, o.c].filter (· != 0)
  let ins := direct ++ (direct.filter fun x => (g.tensor x).scaleMode != 0).map fun x => (g.tensor x).scaleTensor
  ((g.writes o).filter ins.contains).eraseDups
/-- What the first tile of an instance keeps of them. -/
def State.snapsFor (s : State) (v : Pav) (r : Run) (h : Handle) (t : TileRef) : List Snap :=
  let begun := (r.done.any fun u => u.op == t.op && u.slice == t.slice)
    || r.inflight.any fun x => x.tile.op == t.op && x.tile.slice == t.slice
  if begun then []
  else (h.image.inPlace (h.image.op t.op)).map fun i =>
    { op := t.op, slice := t.slice, tensor := i, codes := s.allCodes v r.handle h i t.slice }

/-- Last operation of the step that begins at operation `first` (R247). -/
def Image.stepLast (g : Image) (first : Nat) : Nat :=
  ((List.range g.ops.length).find? fun i => decide (first ≤ i) && (g.op i).code == 0x5F).getD (g.ops.length - 1)
/-- Operations of the step. -/
def Image.stepOps (g : Image) (first : Nat) : List Nat :=
  (List.range (g.stepLast first + 1)).filter fun i => decide (first ≤ i)

/-- Operations that work tile by tile. -/
def isTileOp (code : Nat) : Bool := [1, 2, 0x10, 0x11, 0x18, 0x19, 0x1A, 0x1B, 0x20, 0x32, 0x38, 0x39].contains code
def Op.tileTensor (o : Op) : Nat := if o.code = 0x38 then o.a else o.out

/-- Tiles of one instance in tile order. -/
def Image.instTiles (g : Image) (o : Op) (i sl : Nat) : List TileRef :=
  let d := g.dims o.tileTensor
  let t := g.tensor o.tileTensor
  (List.range (dim d 3)).flatMap fun z => (List.range (dim d 2)).flatMap fun y =>
    (List.range (cdiv (dim d 1) t.tileRows)).flatMap fun r => (List.range (cdiv (dim d 0) t.tileCols)).map fun c =>
      { op := i, slice := sl, d3 := z, d2 := y, row := r, col := c }
def Image.opTiles (g : Image) (i : Nat) (held : List Nat) : List TileRef :=
  let o := g.op i
  if !isTileOp o.code then []
  else if g.perSlice o then held.flatMap fun sl => g.instTiles o i sl
  else g.instTiles o i 0
/-- Whether the coordinates name a tile of the operation. -/
def Image.isTile (g : Image) (t : TileRef) (held : List Nat) : Bool :=
  let o := g.op t.op
  let d := g.dims o.tileTensor
  let x := g.tensor o.tileTensor
  decide (t.op < g.ops.length) && isTileOp o.code && (if g.perSlice o then held.contains t.slice else t.slice == 0)
    && decide (t.d3 < dim d 3 ∧ t.d2 < dim d 2 ∧ t.row * x.tileRows < dim d 1 ∧ t.col * x.tileCols < dim d 0)

/-- Tokens (R109). -/
def Run.reached (r : Run) (g : Image) (k : Nat) : Bool :=
  k == 0 || decide ((g.tokens.getD k (false, 0)).2 ≤ tget r.tokens k 0)
def Run.signal (r : Run) (k : Nat) : Run :=
  if k = 0 then r else { r with tokens := tset r.tokens k (sat16 (tget r.tokens k 0 + 1)) }

/-! ### Pipeline stages and placement (R248, R250; log 11) -/

def Image.stageOf (g : Image) (stages layer : Nat) : Nat :=
  let ls := (g.ops.filter g.perSlice).map (·.layer)
  match ls with
  | [] => 0
  | a :: t =>
    let lo := t.foldl min a
    let hi := t.foldl max a
    (layer - lo) * stages / (hi - lo + 1)

/-- Clusters of stage j of n consecutive groups, the lower-numbered groups being the larger. -/
def stageGroup (cs : List Nat) (n j : Nat) : List Nat :=
  let k := cs.length
  (cs.drop (j * (k / n) + min j (k % n))).take (k / n + if j < k % n then 1 else 0)

/-- Clusters on which an operation's tiles may run: the group of its stage, or every cluster of the pavilion (R250), within
CLUSTER_MASK (R118). A mask that a lend has emptied limits nothing, as a mask of 0 (log 11). -/
def Run.clustersFor (r : Run) (v : Pav) (h : Handle) (o : Op) : List Nat :=
  let cs := v.clusters.filter fun c => !v.arriving.contains c
  let cs := if h.image.perSlice o then stageGroup cs (max 1 r.stages) (h.image.stageOf (max 1 r.stages) o.layer) else cs
  cs.filter fun c => h.clusterMask == 0 || h.clusterMask.testBit c

/-- Cores that can run active tiles, in a list of clusters. -/
def State.activeCores (s : State) (cs : List Nat) : List Nat :=
  cs.flatMap fun c => ((List.range 6).map fun j => 6 * c + j).filter s.runsActive
/-- The core whose vector engine takes a tile (log 11). -/
def State.homeCore (s : State) (p : Nat) (t : TileRef) : Nat :=
  match s.runOf p with
  | none => 0
  | some (v, r, h) =>
    let cs := s.activeCores (r.clustersFor v h (h.image.op t.op))
    cs.getD ((t.slice + t.d3 + t.d2 + t.row + t.col) % max 1 cs.length) 0

/-- Micro-batch of a slice (R248). -/
def Run.microBatch (r : Run) (first sl : Nat) : Nat := (sl - first) / max 1 r.mbSlices

/-! ### Tile hazards (R108) -/

/-- An access to a region of a tensor instance: bounds per dimension, the upper ones exclusive; no key for an
access to every instance. -/
structure Acc where
  ten : Nat
  key : Option Nat
  write : Bool
  lo : List Nat
  hi : List Nat
  deriving DecidableEq, Repr

def Image.wholeAcc (g : Image) (i : Nat) (key : Option Nat) (write : Bool) : Acc :=
  { ten := i, key := key, write := write, lo := [0, 0, 0, 0], hi := (List.range 4).map (dim (g.dims i)) }
/-- A region of OUT seen in an operand that broadcasts. -/
def Image.bcastAcc (g : Image) (i : Nat) (key : Option Nat) (write : Bool) (lo hi : List Nat) : Acc :=
  let d := g.dims i
  { ten := i, key := key, write := write
    lo := (List.range 4).map fun k => if dim d k = 1 then 0 else lo.getD k 0
    hi := (List.range 4).map fun k => if dim d k = 1 then 1 else hi.getD k 1 }

/-- What a tile of an operation, or an operation without tiles, reads and writes. -/
def Image.accesses (g : Image) (o : Op) (t : TileRef) : List Acc :=
  let k := fun (i : Nat) => if (g.tensor i).shared then some 0 else if g.perSlice o then some t.slice else none
  let all := fun (i : Nat) (w : Bool) => if i = 0 then [] else [g.wholeAcc i (k i) w]
  let reg := fun (i : Nat) (w : Bool) (lo hi : List Nat) => if i = 0 then [] else [g.bcastAcc i (k i) w lo hi]
  if !isTileOp o.code then
    (g.reads o).flatMap (fun i => all i false) ++ (g.writes o).flatMap (fun i => all i true)
      ++ (if o.code = 0x40 then all o.a true else [])
  else
    let (nr, nc) := g.tileSize o.tileTensor t
    let c := g.tileCoord o.tileTensor t 0 0
    let lo := [c.1, c.2.1, c.2.2.1, c.2.2.2]
    let hi := [c.1 + nc, c.2.1 + nr, c.2.2.1 + 1, c.2.2.2 + 1]
    let rowsLo := lo.set 0 0
    let full := fun (i : Nat) => dim (g.dims i) 0
    let out := reg o.out true lo hi
      ++ (if (g.tensor o.out).scaleMode = 2 then all (g.tensor o.out).scaleTensor true else [])
    let scales := ((g.reads o).filter fun i => i != o.a && i != o.b && i != o.c && i != o.out).flatMap fun i => all i false
    let body := match o.code with
      | 0x10 => reg o.a false lo hi ++ reg o.b false lo hi ++ reg o.c false lo hi
      | 0x11 => reg o.a false (lo.set o.axis 0) (hi.set o.axis (dim (g.dims o.a) o.axis))
      | 0x18 => reg o.a false rowsLo (hi.set 0 (full o.a)) ++ all o.b false ++ all o.c false
      | 0x19 => reg o.a false rowsLo (hi.set 0 (full o.a)) ++ all o.b false ++ reg o.c false rowsLo (hi.set 0 (full o.c))
                  ++ all o.out2 true ++ all o.out3 true
      | 0x1A => reg o.a false rowsLo (hi.set 0 (full o.a))
      | 0x1B => reg o.a false rowsLo (hi.set 0 (full o.a)) ++ reg o.b false rowsLo (hi.set 0 (full o.b))
      | 0x32 => (g.tieBuffers o).flatMap fun i => reg i false lo hi
      | 0x38 => reg o.a false lo hi
      | 0x20 => all o.a false
      | 0x39 => []
      | _ =>
        -- rows of A and columns of B that the tile needs, over all of K
        let da := g.dims o.a
        let db := g.dims o.b
        let ra := if o.transA then ([c.2.1, 0], [c.2.1 + nr, dim da 1]) else ([0, c.2.1], [dim da 0, c.2.1 + nr])
        let rb := if o.transB then ([0, c.1], [dim db 0, c.1 + nc]) else ([c.1, 0], [c.1 + nc, dim db 1])
        reg o.a false (ra.1 ++ lo.drop 2) (ra.2 ++ hi.drop 2) ++ reg o.b false (rb.1 ++ lo.drop 2) (rb.2 ++ hi.drop 2)
          ++ (if o.code = 1 then reg o.c false lo hi else all o.c false)
    body ++ scales ++ out

/-- Two accesses touch a common logical tile of a common instance, and one writes it. -/
def Image.clash (g : Image) (a b : Acc) : Bool :=
  let t := g.tensor a.ten
  let size := fun k => if k = 0 then t.tileCols else if k = 1 then t.tileRows else 1
  a.ten == b.ten && (a.write || b.write)
    && (a.key.isNone || b.key.isNone || a.key == b.key)
    && (List.range 4).all fun k =>
      decide (a.lo.getD k 0 / size k < cdiv (b.hi.getD k 1) (size k) ∧ b.lo.getD k 0 / size k < cdiv (a.hi.getD k 1) (size k))
def Image.clashAny (g : Image) (as bs : List Acc) : Bool := as.any fun a => bs.any fun b => g.clash a b

/-- What unfinished work of an operation still claims: its accesses, and every row of x and dy for the dγ and dβ that an
instance of NORM_BWD forms at its end (R208). -/
def Image.claims (g : Image) (o : Op) (t : TileRef) : List Acc :=
  let k := fun (i : Nat) => if (g.tensor i).shared then some 0 else some t.slice
  g.accesses o t ++ (if o.code == 0x19 && (o.out2 != 0 || o.out3 != 0) then
    [g.wholeAcc o.a (k o.a) false, g.wholeAcc o.c (k o.c) false] else [])

def noTile (i : Nat) : TileRef := { op := i, slice := 0, d3 := 0, d2 := 0, row := 0, col := 0 }

/-- No unfinished work of an earlier operation of the step, and no held check (R391), clashes with the accesses. -/
def State.hazardFree (s : State) (v : Pav) (r : Run) (h : Handle) (i : Nat) (accs : List Acc) : Bool :=
  let g := h.image
  let held := s.heldSlices v g
  ((g.stepOps r.first).filter fun j => decide (j < i) && !r.finished.contains j).all (fun j =>
      if isTileOp (g.op j).code then
        (g.opTiles j held).all fun u => r.done.contains u || !g.clashAny (g.claims (g.op j) u) accs
      else !g.clashAny (g.accesses (g.op j) (noTile j)) accs)
    && v.samples.all fun x =>
      !g.clashAny ((g.accesses (g.op x.tile.op) x.tile).map fun a => { a with write := false }) (accs.filter (·.write))

/-- The WAIT token is reached and every earlier WAIT_TOKEN is past (R110). -/
def Run.tokensAllow (r : Run) (g : Image) (i : Nat) : Bool :=
  r.reached g (g.op i).wait
    && (g.stepOps r.first).all fun j => !(decide (j < i) && (g.op j).code == 0x50) || r.finished.contains j

/-- PHASE = 1 instances of a stage wait for its PHASE = 0 instances (R249). -/
def Run.phaseAllows (r : Run) (g : Image) (i : Nat) : Bool :=
  let o := g.op i
  let n := max 1 r.stages
  !(g.perSlice o && o.phase) || (g.stepOps r.first).all fun j =>
    let e := g.op j
    !(g.perSlice e && !e.phase && g.stageOf n e.layer == g.stageOf n o.layer) || r.finished.contains j

/-- Whether a tile may start now: a core that may run it works too. -/
def State.tileReady (s : State) (v : Pav) (r : Run) (h : Handle) (t : TileRef) : Bool :=
  let g := h.image
  r.phase == 0 && (g.stepOps r.first).contains t.op && g.isTile t (s.heldSlices v g)
    && !r.done.contains t && !(r.inflight.any fun x => x.tile == t)
    && r.tokensAllow g t.op && r.phaseAllows g t.op && !(s.activeCores (r.clustersFor v h (g.op t.op))).isEmpty
    && s.hazardFree v r h t.op (g.accesses (g.op t.op) t)

/-- Precedence among ready tiles: operation index, micro-batch in the phase's order, tile order (R249). -/
def Run.precedes (r : Run) (g : Image) (first : Nat) (a b : TileRef) : Bool :=
  let mb := fun (t : TileRef) => if g.perSlice (g.op t.op) then r.microBatch first t.slice else 0
  let desc := (g.op b.op).phase && !r.bwdAscending
  if a.op ≠ b.op then decide (a.op < b.op)
  else if mb a ≠ mb b then (if desc then decide (mb b < mb a) else decide (mb a < mb b))
  else
    let k := fun (t : TileRef) => (t.slice, t.d3, t.d2, t.row, t.col)
    let lt := fun (x y : Nat × Nat × Nat × Nat × Nat) =>
      x.1 < y.1 ∨ (x.1 = y.1 ∧ (x.2.1 < y.2.1 ∨ (x.2.1 = y.2.1 ∧ (x.2.2.1 < y.2.2.1 ∨ (x.2.2.1 = y.2.2.1 ∧
        (x.2.2.2.1 < y.2.2.2.1 ∨ (x.2.2.2.1 = y.2.2.2.1 ∧ x.2.2.2.2 < y.2.2.2.2)))))))
    decide (lt (k a) (k b))

/-- No ready tile comes before t. -/
def State.firstReady (s : State) (v : Pav) (r : Run) (h : Handle) (t : TileRef) : Bool :=
  let g := h.image
  let held := s.heldSlices v g
  ((g.stepOps r.first).filter fun j => decide (j ≤ t.op)).all fun j =>
    (g.opTiles j held).all fun u => !(r.precedes g (held.headD 0) u t && s.tileReady v r h u)

/-! ### Trap records (R173 to R177, R501) -/

structure TrapInfo where
  op : Nat
  layer : Nat
  source : Nat
  place : Nat
  perSlice : Bool
  slice : Nat
  row : Nat
  col : Nat
  c2 : Nat
  c3 : Nat
  accLoc : Nat := 0xFFFFFFFF
  er : Nat
  ec : Nat
  cause : Bool
  /-- Building time of the finding, when it is not the present one. -/
  time : Option Nat := none
  deriving DecidableEq, Repr

def trapWord (x : TrapInfo) (logSeq iter step pid time : Nat) (runOn first : Bool) : Nat :=
  x.ec % 1024 * 2 ^ 12 + x.er % 1024 * 2 ^ 22 + x.accLoc * 2 ^ 32 + x.c3 * 2 ^ 64 + x.c2 * 2 ^ 96
    + x.col % 2 ^ 28 * 2 ^ 128 + x.row % 2 ^ 28 * 2 ^ 156 + x.slice % 65536 * 2 ^ 184 + x.place * 2 ^ 200
    + x.source * 2 ^ 216 + x.layer % 4096 * 2 ^ 220 + x.op % 2 ^ 24 * 2 ^ 232 + time * 2 ^ 256 + pid * 2 ^ 320
    + b2n first * 2 ^ 384 + b2n runOn * 2 ^ 385 + b2n x.cause * 2 ^ 386 + b2n x.perSlice * 2 ^ 387
    + step % 65536 * 2 ^ 400 + iter % 2 ^ 32 * 2 ^ 416 + logSeq % 2 ^ 64 * 2 ^ 448

/-- Write a record into the pavilion's trap log: index 0 for a first record, the ring 1 to 1,023 for others. -/
def State.putTrap (s : State) (p : Nat) (x : TrapInfo) (iter step pid : Nat) (runOn first : Bool) : State × Nat × Nat :=
  match s.pav p with
  | none => (s, 0, 0)
  | some v =>
    let l := v.traps
    let w := trapWord x (l.seq + 1) iter step pid (x.time.getD s.now) runOn first
    let i := 1 + l.ringNext % 1023
    let past := !first && decide (1023 ≤ l.ringNext)
    let l' : TrapLog := if first then { l with sticky := some w, seq := l.seq + 1, written := l.written + 1 }
      else { l with
        ring := tset l.ring i w, ringNext := l.ringNext + 1, seq := l.seq + 1, written := l.written + 1
        overwritten := l.overwritten + b2n past }
    let s := (s.modPav p fun v => { v with traps := l' }).count (ctrId p 8 0) 1
    (if past then s.count (ctrId p 8 1) 1 else s, if first then 0 else i, w)

/-- Record a NaN of the running program: the index of the record, the record, and the count of NOTE 0x0110 (R177). -/
def State.recordNan (s : State) (p : Nat) (x : TrapInfo) : State × Nat × Nat :=
  match s.runOf p with
  | none => (s, 0, 0)
  | some (_, r, h) =>
    let first := r.traps == 0
    let (s, idx, w) := s.putTrap p x r.iteration r.marks h.image.programId r.nanRunOn first
    (s.modRun p fun r => { r with
      traps := r.traps + 1, notes := if first && r.nanRunOn then r.notes ++ [0x0110] else r.notes }, idx, w)

/-- The record of a tile's first NaN. -/
def nanInfo (g : Image) (t : TileRef) (n : NanAt) : TrapInfo :=
  let o := g.op t.op
  { op := t.op, layer := o.layer, source := n.source, place := n.place, perSlice := g.perSlice o, slice := t.slice
    row := t.row, col := t.col, c2 := t.d2, c3 := t.d3, accLoc := n.accLoc, er := n.row, ec := n.col, cause := n.cause
    time := some n.time }

/-! ### Collectives that end with a run (R361) -/

/-- A collective message of the pavilion's job. -/
def collMsg (own : Nat) (v : Pav) (l : Layout) (op shard off next : Nat) (data : List Nat) : CollMsg :=
  { src := own, job := l.job, epoch := l.epoch, opIndex := op, jobStep := v.reshape.jobStep, shard := shard, stripe := 0
    elemOffset := off, nextSlice := next, data := data }

/-- End a collective operation: its sums are discarded, COLL_ABORT goes to every other position, and
EV_COLLECTIVE_FAILED is posted. -/
def State.endColl (s : State) (p op cause peer : Nat) : State :=
  match s.pav p with
  | none => s
  | some v =>
    let own := s.ownId
    let s := match v.reshape.active with
      | none => s
      | some l => forEach (l.holders.filter fun (x : Holder) => x.device != own) (fun s x =>
          s.trySend p x.device 32 4 (.coll x.device 0x24 (collMsg own v l op 0 0 0 []))) s
    let s := s.modPav p fun v => { v with
      colls := v.colls.filter (fun c => c.op != op)
      held := v.held.filter fun m => m.2.opIndex != op }
    let s := s.count (ctrId (placeHub 0 6 0) 6 (19 + cause)) 1
    s.postPav p 0x0520 2 (placeHub 0 6 0) (pack [(4, op), (2, peer), (1, cause), (1, 0), (2, v.reshape.jobStep.toNat)])

/-! ### Ending a run (R122, R125, R254, R272, R285) -/

/-- The gate die: the lowest-numbered die on which a pavilion holds clusters (R281). -/
def Pav.gateDie (v : Pav) : Nat := (v.clusters.map (· / 4)).foldl min 7
/-- Address of entry i of a copy of the step journal, in the firmware region of the gate die (R281, R288; log 51). -/
def journalAddr (p : Nat) (v : Pav) (copy i : Nat) : Nat :=
  v.gateDie * 2 ^ 38 + Config.journalAt v.gateDie p copy % (2 * mib) * 1024 + 64 * i
/-- The first bad word of an entry of which neither copy reads back (R288). -/
def State.journalLost (s : State) (p : Nat) (v : Pav) (i : Nat) : Option Nat :=
  let copy := fun (k : Nat) =>
    let a := journalAddr p v k i
    if !s.unitMapped 0 v.gateDie || s.route.lostStacks.contains (stackOf a) then some a
    else (s.mem.bad.find? fun w => overlaps w (codeWord w) a 64).orElse fun _ => s.mem.retired.find? fun g => overlaps g 4096 a 64
  (copy 0).bind fun w => (copy 1).map fun _ => w

/-- The shards staged under the coming seal of a pavilion, where its journal entry does not read in either copy: the step then
counts as SEALED (R288). -/
def State.sealedAnyway (s : State) (p : Nat) : List Nat :=
  match s.pav p with
  | none => []
  | some v =>
    if v.sealing.isSome || (s.journalLost p v ((v.stepSeq + 1) % 16)).isNone then []
    else (s.shardsOf p).filter fun n => (s.shard n).staged && (s.shard n).sealSeq == BitVec.ofNat 32 (v.stepSeq + 1)

/-- Return every shard of a pavilion in GATHERING, REDUCED or UPDATING to its resting state: its step ends before its seal
(R272, R285). -/
def State.unseal (s : State) (p : Nat) : State :=
  let kept := s.sealedAnyway p
  let s := forEach ((s.shardsOf p).filter fun n => !kept.contains n) (fun s n =>
    let r := s.shard n
    if r.state = 1 ∨ r.state = 2 ∨ r.state = 3 then
      s.modShard n fun r => { r with state := if r.gradCur then 4 else 0, gradNext := false, staged := false }
    else s) s
  -- new slot locations of shards placed afresh are released
  let fresh := s.ledger.fresh.filter fun e => (s.shard e.1).pavilion == p && !kept.contains e.1
  let s := forEach fresh (fun s e => s.freeMem p (4096 * e.2)) s
  let s := s.modLedger fun l => { l with fresh := l.fresh.filter fun e => !(fresh.any fun f => f.1 == e.1) }
  if kept.isEmpty then s
  else s.modPav p fun v => { v with
    stepSeq := v.stepSeq + 1, sealing := some { seq := v.stepSeq + 1, todo := kept, halted := true } }

/-- Make a tile of tensor i undefined, with the block scales that are formed with it. -/
def State.spoilTile (s : State) (p hd : Nat) (h : Handle) (i : Nat) (t : TileRef) : State :=
  let g := h.image
  let (nr, nc) := g.tileSize i t
  let sc := (g.tensor i).scaleTensor
  let scaled := (g.tensor i).scaleMode == 2
  forEach (List.range nr) (fun s a =>
    let s := forEach (List.range nc) (fun s b => s.spoilCode p hd h i t.slice (g.tileCoord i t a b)) s
    if !scaled then s
    else forEach (List.range (cdiv nc 32)) (fun s b =>
      let c := g.scaleCoord i sc t.slice (g.tileCoord i t a (32 * b))
      s.spoilCode p hd h sc t.slice (c.1 / 32, c.2)) s) s

/-- Tiles of one instance of any tensor, in tile order. -/
def Image.tensorTiles (g : Image) (x i sl : Nat) : List TileRef :=
  let d := g.dims x
  let t := g.tensor x
  (List.range (dim d 3)).flatMap fun z => (List.range (dim d 2)).flatMap fun y =>
    (List.range (cdiv (dim d 1) t.tileRows)).flatMap fun r => (List.range (cdiv (dim d 0) t.tileCols)).map fun c =>
      { op := i, slice := sl, d3 := z, d2 := y, row := r, col := c }

/-- Ranges of flat elements that a collective has placed in its output. -/
def Coll.ranges (c : Coll) (l : Layout) : List (Nat × Nat) :=
  c.placed.filterMap fun (n, first, count, _) => (l.pieceOf n).map fun e => (e.2 * e.1.pieceRows * e.1.cols + first, count)

/-- Tiles of a tensor that a collective operation has not placed whole. -/
def Image.unplaced (g : Image) (x i : Nat) (done : List (Nat × Nat)) : List TileRef :=
  (g.tensorTiles x i 0).filter fun t =>
    let (nr, nc) := g.tileSize x t
    !((List.range nr).all fun a => (List.range nc).all fun b =>
      let k := flatIdx (g.dims x) (g.tileCoord x t a b)
      done.any fun y => decide (y.1 ≤ k ∧ k < y.1 + y.2))

/-- Tiles that the step would have written and has not are undefined (R122), but for tiles that another finished
operation of the step wrote: OUT with its block scales, dγ and dβ, and the outputs of the collectives. -/
def State.spoilRun (s : State) (p : Nat) : State :=
  match s.runOf p with
  | none => s
  | some (v, r, h) =>
    let g := h.image
    let held := s.heldSlices v g
    let open_ := (g.stepOps r.first).filter fun j => !r.finished.contains j
    let own := open_.flatMap fun j =>
      let o := g.op j
      if !isTileOp o.code || o.out == 0 then []
      else
        let left := (g.opTiles j held).filter fun t => !r.done.contains t
        (left.filter fun t => !(r.done.any fun d => (g.op d.op).tileTensor == o.out && { d with op := j } == t)).map (fun t => (o.out, t))
          ++ (left.map (·.slice)).eraseDups.flatMap fun sl => ([o.out2, o.out3].filter (· != 0)).flatMap fun x =>
            (g.tensorTiles x j sl).map fun t => (x, t)
    let shared := (open_.filter fun j => (g.op j).code == 0x30 || (g.op j).code == 0x31).flatMap fun j =>
      let done := match v.reshape.active with
        | some l => ((v.colls.filter fun c => c.op == j).map fun c => c.ranges l).flatten
        | none => []
      (g.unplaced (g.op j).out j done).map fun t => ((g.op j).out, t)
    forEach (own ++ shared) (fun s e => s.spoilTile p r.handle h e.1 e.2) s

/-- The result of PROGRAM_RUN (R119) or STEP_RUN (R258). -/
def runResult (held : Nat) (r : Run) (h : Handle) : List Byte :=
  if r.isStep then
    pack [(4, r.stepsDone), (4, h.stepPos), (8, r.stepStart), (8, r.fwdEnd), (8, r.bwdEnd), (8, r.boundary),
          (4, cdiv held (max 1 r.mbSlices)), (1, r.stepStages), (3, 0)]
  else pack [(4, r.iteration), (4, r.marks), (8, r.runStart), (8, r.opsDone)]

/-- Commands of a lost host that have not started when the step of their pavilion has ended (R86). -/
def State.dropUnstarted (s : State) (p : Nat) : State :=
  forEach [0, 1] (fun s q =>
    if !(s.port q).lost then s
    else s.abortAll (fun c => c.port == q && c.pavilion == p && c.phase != .started && !c.orphan) 0x0304 (0xC000 + q) none) s

/-- A pavilion whose host is lost parks at its boundary, after its deferred commands and before a deferred
adoption (R419, R420). -/
def State.parkIfDue (s : State) (p : Nat) : State :=
  match s.pav p with
  | none => s
  | some v =>
    if !v.parking || !v.atBoundary
        || (s.cmds.any fun c => c.pavilion == p && c.phase == .deferred && c.opcode != 0x0121 && !s.idleWait.contains c.serial)
    then s
    else
      let q := 1 - v.homePort
      let s := s.dropUnstarted p
      let s := match v.barrier.bind fun b => s.cmd b.cmd with
        | some c => s.abort c 0x0304 (0xC000 + v.homePort) none
        | none => s
      let s := s.modPav p fun v => { v with parking := false, parked := true, parkedAt := s.now, barrier := none }
      s.postTo [ringKey q 0]
        { code := 0x0101, severity := 1, pav := p, place := 0xFFFF, time := s.now
          data := match s.pav p with
            | some v => pavStateData v
            | none => [] }

/-- Abandon the passes of an engine that a condition names: a row that stalls with one no longer does (R154). -/
def Engine.dropBanks (g : Engine) (hit : Nat → Bank → Bool) : Engine :=
  let gone := g.banks.filter fun b => hit b.1 b.2
  let cut := gone.any fun b => !b.2.complete
  { g with
    banks := g.banks.filter fun b => !hit b.1 b.2
    stalled := g.stalled && !cut, shadowReady := g.shadowReady || cut }

/-- End the run of a pavilion with a final status. The engines' banks and held stitch sums of the pavilion are
discarded; before the seal its shards return to rest, after it the commits wait for roll-forward. A PROGRAM_STOP that
waits for the boundary completes. -/
def State.endRun (s : State) (p status detail : Nat) (result : Option (List Byte)) (cause : Nat := 6) : State :=
  match s.runOf p with
  | none => s
  | some (v, r, h) =>
    let held := (s.heldSlices v h.image).length
    let res := result.getD (runResult held r h)
    let good := status == stDone
    -- a NaN that a tile in flight keeps under NAN_RUN_ON is recorded (R177, R179)
    let s := forEach (if r.nanRunOn then r.inflight.filterMap fun x => x.nan.map (nanInfo h.image x.tile) else [])
      (fun s x => (s.recordNan p x).1) s
    let r := ((s.runOf p).map (·.2.1)).getD r
    let s := if good then s else s.bumpFree.spoilRun p
    let s := forEach (v.colls.filter fun c => !c.done) (fun s c => s.endColl p c.op cause 0xFFFF) s
    let s := if good || v.sealing.isSome then s else s.unseal p
    let s := { s with
      engines := s.engines.map fun (e : Nat × Engine) => (e.1, e.2.dropBanks fun _ b => b.pav == p)
      stitches := s.stitches.filter fun x => x.pav != p }
    let s := s.modPav p fun v => { v with
      run := none, samples := [], arriving := []
      -- a finished gather goes on sending, and messages one step ahead stay held (R354)
      colls := if good then v.colls.filter (·.done) else [], held := if good then v.held else []
      sealing := v.sealing.map fun (x : Sealing) => { x with halted := true } }
    -- every PROGRAM_STOP that waits for the boundary completes
    let s := forEach (s.cmds.filter fun c => c.opcode == 0x0303 && c.pavilion == p && c.phase == .started)
      (fun s c => s.finish c []) s
    let s := match s.cmd r.cmd with
      | none => s
      | some c =>
        if good then
          let c := { c with notes := c.notes ++ r.notes }
          s.finish c res 0 (if firstNote c.notes = some 0x0110 then sat16 r.traps else 0xFFFF)
        else s.complete c status detail res
    (s.dropUnstarted p).parkIfDue p

/-- End a run because of a command: DETAIL of ST_ABORT (R72). -/
def State.abortRun (s : State) (p status target : Nat) (cause : Option Cmd) : State :=
  match s.runOf p with
  | none => s
  | some (_, r, _) =>
    let tag := match cause, s.cmd r.cmd with
      | some x, some c => if x.key = c.key then x.tag else 0xFFFF
      | _, _ => 0xFFFF
    s.endRun p status (target * 65536 + tag) none

/-- ST_FAIL_MEMORY for a run that read an uncorrectable word (R224). -/
def State.failRunMemory (s : State) (p w : Nat) : State :=
  (s.memError w 1).endRun p 0x0202 (s.placeOfAddr w * 65536 + 0xFFFF) (some (pack [(8, w)]))

/-- A NaN found by a unit of the pavilion: the record, and with NAN_RUN_ON = 0 the end of the run (R173, R177). -/
def State.nanFound (s : State) (p : Nat) (x : TrapInfo) : State :=
  match s.runOf p with
  | none => s
  | some (_, r, _) =>
    let (s, idx, w) := s.recordNan p x
    if r.nanRunOn then s else s.endRun p 0x0501 idx (some (fit 48 (leBytes 64 w)))

/-! ### Step starts and barriers (R101, R109, R247, R370) -/

/-- Release offloaded tiles and the LPDDR5X that holds them. -/
def Pav.dropOff (v : Pav) (hit : OffTile → Bool) : Pav :=
  let gone := (v.offTiles.filter hit).flatMap (·.ranges)
  { v with
    offTiles := v.offTiles.filter fun x => !hit x
    allocs := v.allocs.filter fun a => !(a.2.2 == 7 && gone.any fun r => r.1 == a.1) }

/-- Whether the contents of a tensor are undefined at the start of a run; those of a SCALE are as its owner's (R101). -/
def Image.startsUndefined (g : Image) (i : Nat) : Bool :=
  let t := g.tensor i
  [1, 3, 8].contains t.kind || (t.kind == 9 && [1, 3, 8].contains (g.tensor t.owner).kind)
/-- Drop the contents of tensors that are undefined at the start of a run. -/
def Pav.dropContents (v : Pav) (hd : Nat) (g : Image) : Pav :=
  ({ v with data := v.data.filter fun d => !(d.handle == hd && g.startsUndefined d.tensor) }).dropOff
    fun x => x.handle == hd && g.startsUndefined x.tensor

/-- CLEAR = 1: every element +0 at the start of each step (R98). A CONSTANT is never written (R101), and the contents of a
SHARDED PARAMETER or STATE are those that the ledger has committed; a SHARDED GRADIENT has the buffer zeroed that it reads
(log 23). -/
def State.clearStep (s : State) (p : Nat) : State :=
  match s.runOf p with
  | none => s
  | some (v, r, h) =>
    let g := h.image
    let held := s.heldSlices v g
    forEach ((List.range g.tensors.length).filter fun i => (g.tensor i).clear) (fun s i =>
      let t := g.tensor i
      let keys := if t.shared then [0] else held
      if t.kind = 5 then s
      else if t.kind = 6 ∨ t.kind = 7 then
        forEach keys (fun s sl => match s.place v h i sl (0, 0, 0, 0) with
          | .mem a _ _ => s.zeroMem a (tensorBytes t.format (g.dims i))
          | _ => s) s
      else if t.sharded then
        if t.kind ≠ 3 then s
        else forEach (s.regionRows v h i 0 [0, 0, 0, 0] ((List.range 4).map (dim (g.dims i)))) (fun s x => s.zeroMem x.1 x.2) s
      else s.modPav p fun v => { v with
        data := (v.data.filter fun d => !(d.handle == r.handle && d.tensor == i))
          ++ keys.map fun k => { handle := r.handle, tensor := i, slice := k, zero := true } }) s

/-- Begin the step: CLEAR tensors zeroed, its tiles and operations not started. -/
def State.beginStep (s : State) (p : Nat) : State :=
  (s.modRun p fun r => { r with
    phase := 0, stepStart := s.now, fwdEnd := 0, bwdEnd := 0, boundary := 0, done := [], finished := []
    startedOps := [], inflight := [], lastProgress := s.clock, stepStages := r.stages, snaps := [] }).clearStep p

/-- Use one instant of a barrier at a step start that was `late` ns late (R370). -/
def State.useInstant (s : State) (p late : Nat) : State :=
  match s.pav p with
  | none => s
  | some v => match v.barrier with
    | none => s
    | some b =>
      let b := { b with
        next := b.next + 1, used := b.used + 1, late := b.late + b2n (late != 0), maxLate := max b.maxLate late
        lastStart := s.now }
      if b.count ≠ 0xFFFFFFFF ∧ b.count ≤ b.next then
        let s := s.modPav p fun v => { v with barrier := none }
        match s.cmd b.cmd with
        | none => s
        | some c => s.finish { c with notes := if b.late = 0 then c.notes else c.notes ++ [0x0160] }
            (pack [(4, b.used), (4, b.late), (4, b.skipped), (4, sat32 b.maxLate), (8, b.lastStart)])
      else s.modPav p fun v => { v with barrier := some b }

/-- A step start (R370): it waits for its instant, or begins. -/
def State.stepStart (s : State) (p : Nat) : State :=
  match s.pav p with
  | none => s
  | some v => match v.barrier with
    | none => s.beginStep p
    | some b =>
      let t := b.at_ + b.next * b.period
      if s.now < t then s.modRun p fun r => { r with phase := 2 }
      else if s.now = t then (s.useInstant p 0).beginStep p
      else if !b.skipLate then (s.useInstant p (s.now - t)).beginStep p
      else
        -- the first later instant, when there is one
        let k := if b.period = 0 then b.count else (s.now - b.at_) / b.period + 1
        if b.count ≠ 0xFFFFFFFF ∧ b.count ≤ k then (s.useInstant p (s.now - t)).beginStep p
        else
          (s.modPav p fun v => { v with barrier := some { b with skipped := b.skipped + (k - b.next), next := k } }).modRun p
            fun r => { r with phase := 2 }

/-! ### Capacity (R124, R253; log 11) -/

/-- Bytes of a tensor over the held slices. -/
def Image.heldBytes (g : Image) (held i : Nat) : Nat :=
  tensorBytes (g.tensor i).format (g.dims i) * if (g.tensor i).shared then 1 else held

/-- Whether a layer belongs to a stage: it lies among those of the per-slice operations (R250, R252). -/
def Image.inStage (g : Image) (layer : Nat) : Bool :=
  let ls := (g.ops.filter g.perSlice).map (·.layer)
  ls.any (fun l => decide (l ≤ layer)) && ls.any fun l => decide (layer ≤ l)

/-- The gathered outputs of the step that begins at operation `first`, by R253: for each stage the largest total over
`ahead` + 1 consecutive layers, or every one where no window bounds them. -/
def Image.gatherBytes (g : Image) (held ahead stages first : Nat) : Nat :=
  let ops := ((g.stepOps first).map g.op).filter fun o => o.code == 0x30
  let total := fun (l : List Op) => sumNat ((l.map (·.out)).eraseDups.map (g.heldBytes held))
  if ahead = 0 then total ops
  else
    let staged := ops.filter fun o => g.inStage o.layer
    total (ops.filter fun o => !g.inStage o.layer) + sumNat ((List.range stages).map fun j =>
      let mine := staged.filter fun o => g.stageOf stages o.layer == j
      (mine.map fun o => total (mine.filter fun x => decide (o.layer ≤ x.layer ∧ x.layer ≤ o.layer + ahead))).foldl max 0)

/-- Stitch buffer space of the largest tile group in flight (R189): the raw sums of the rows that one pass stacks, over the
columns of a tile (log 44). Forerunner numerics forms no stitches (R190). -/
def Image.stitchBytes (g : Image) (mode : Nat) : Nat :=
  if mode ≠ 0 then 0
  else (g.ops.filter fun o => isMatrix o.code).foldl (fun m o =>
    let (rows, k, _, _) := g.matDims o.a o.transA
    let t := g.tensor o.out
    max m ((cdiv k 2048 - 1) * 4 * min rows (max 512 t.tileRows) * min (dim (g.dims o.out) 0) t.tileCols)) 0

/-- First operations of the steps of a stream. -/
def Image.stepFirsts (g : Image) : List Nat :=
  0 :: (List.range g.ops.length).filter fun i => decide (0 < i) && (g.op (i - 1)).code == 0x5F

/-- Bytes that the tensors of the held slices need in faster storage and in LPDDR5X. -/
def Image.demand (g : Image) (mode held ahead stages : Nat) : Nat × Nat :=
  let idx := (List.range g.tensors.length).filter fun i => i != 0
  let gathered := (g.ops.filter fun o => o.code == 0x30).map (·.out)
  let local_ := idx.filter fun i =>
    let t := g.tensor i
    !([5, 6, 7].contains t.kind) && !t.sharded && t.kind != 4 && !gathered.contains i
  (sumNat (local_.map (g.heldBytes held)) + (g.stepFirsts.map (g.gatherBytes held ahead stages)).foldl max 0 + g.stitchBytes mode,
   sumNat ((idx.filter fun i => (g.tensor i).memory == 1).map (g.heldBytes held)))

/-- The tile capacity check of R124. Tiles that the handle has offloaded lie in the space that its own demand counts. -/
def State.fits (s : State) (p hd ahead stages : Nat) : Bool :=
  match s.pav p with
  | none => false
  | some v => match tfind v.handles hd with
    | none => false
    | some h =>
      let (a, b) := h.image.demand h.mode (s.heldSlices v h.image).length ahead (max 1 stages)
      let off := sumNat ((v.offTiles.filter fun x => x.handle == hd).map fun x => sumNat (x.ranges.map (·.2)))
      decide (a ≤ s.room v 0 ∧ b ≤ s.room v 1 + off)

/-! ### Step boundaries (R247, R260, R265) -/

/-- Whether a deferred command must wait beyond the present boundary: for the end of the run (R120; R411 for a role change
to IDLE), for the commit
or abort of a reshape (R312), or for DONE of a sealed step (R287, R295, R305). -/
def State.heldBack (s : State) (c : Cmd) : Bool :=
  match s.pav c.pavilion with
  | none => false
  | some v =>
    (v.run.isSome && ([0x0302, 0x0401, 0x0410, 0xF001].contains c.opcode
        || (c.opcode == 0x0120 && c.expert && bits (c.word 3) 7 4 == 0)))
      || ((v.reshape.state == 1 || v.reshape.state == 2) && [0x0302, 0x0401, 0x0410, 0x0120].contains c.opcode)
      || (v.sealing.isSome && [0x0302, 0x0401, 0x0410, 0x0120, 0x0430].contains c.opcode)

/-- Deferred commands of a pavilion that run at the present boundary (R84). -/
def State.dueDeferred (s : State) (p : Nat) : List Cmd :=
  s.cmds.filter fun c => c.pavilion == p && c.phase == .deferred && !s.idleWait.contains c.serial && !s.heldBack c

/-- Clusters that no core can serve any more leave their pavilion (R21). -/
def State.dropLeaving (s : State) (p : Nat) : State :=
  match s.pav p with
  | none => s
  | some v =>
    let gone := v.clusters.filter fun c => (s.cluster c).leaving
    if gone.isEmpty then s
    else
      let s := forEach gone (fun s c => s.modCluster c fun k => { k with inService := false, leaving := false }) s
      s.modPav p fun v => { v with
        clusters := v.clusters.filter fun c => !gone.contains c
        handles := v.handles.map fun (e : Nat × Handle) => (e.1, { e.2 with
          clusterMask := bitsMask ((maskBits 32 e.2.clusterMask).filter fun c => !gone.contains c) })
        capacityDue := true }

/-- Actions 3 to 5 of R260, once the deferred commands have run. -/
def State.continueBoundary (s : State) (p : Nat) : State :=
  let s := if (s.runOf p).any fun x => x.2.1.phase == 1 then s.dropLeaving p else s
  match s.runOf p with
  | none => s
  | some (v, r, _) =>
    let s := if r.phase = 1 then (s.dropUnstarted p).modPav p fun v => { v with arriving := [] } else s
    if r.phase ≠ 1 then s
    else if v.parking then
      s.endRun p 0x0304 ((0xC000 + v.homePort) * 65536 + 0xFFFF) none
    else if r.lastStep then s.endRun p stDone 0 none
    else if r.endAtStep then
      (s.modRun p fun r => { r with notes := addNew r.notes 0x0150 }).endRun p stDone 0 none
    else
      let n := v.clusters.length
      let s := if r.stages ≤ n then s
        else s.modRun p fun r => { r with stages := max 1 n, notes := addNew r.notes 0x0130 }
      if v.capacityDue && !s.fits p r.handle r.gatherAhead (min r.stages (max 1 n)) then
        (s.modPav p fun v => { v with capacityDue := false }).endRun p 0x0282 0xFFFF0000 none
      else (s.modPav p fun v => { v with capacityDue := false }).stepStart p

/-- Action 1 of R260: the STEP_MARK at operation i completes. -/
def State.markStep (s : State) (p i : Nat) : State :=
  match s.runOf p with
  | none => s
  | some (_, r, h) =>
    let g := h.image
    let lastOp := i + 1 == g.ops.length
    let next := if lastOp then 0 else i + 1
    let last := (r.isStep && r.stepsAsked != 0xFFFFFFFF && decide (r.stepsAsked ≤ r.stepsDone + 1))
      || (!r.isStep && lastOp && decide (r.iterations ≤ r.iteration + 1))
    let r := r.signal (g.op i).signal
    let r' := { r with
      finished := r.finished ++ [i], marks := r.marks + 1, stepsDone := r.stepsDone + 1, opsDone := r.opsDone + 1
      first := next, iteration := if lastOp then r.iteration + 1 else r.iteration
      boundary := s.now, phase := 1, lastProgress := s.clock, done := [], inflight := [], snaps := [], lastStep := last
      tokens := r.tokens.filter fun e => (g.tokens.getD e.1 (false, 0)).1 }
    let s := s.modPav p fun v => { v with
      run := some r'
      handles := if r.isStep then tset v.handles r.handle { h with stepPos := next } else v.handles
      reshape := { v.reshape with jobStep := v.reshape.jobStep + 1, sealedInEpoch := v.reshape.sealedInEpoch } }
    let s := if r.notifySteps then
        s.postPav p 0x0401 0 0xFFFF (pack [(4, r'.stepsDone), (4, i), (8, r.stepStart), (8, r.fwdEnd), (8, r.bwdEnd), (8, s.now)])
      else s
    match r.stopAtStep with
    | some (id, _) => s.abortRun p 0x0303 (pavTarget p) (s.cmd id)
    | none =>
      -- the last boundary ends the run, as parked when its host is lost (R265)
      if last then s.continueBoundary p
      else if (s.dueDeferred p).any (fun c => c.opcode != 0x0121) then s
      else s.continueBoundary p

/-! ### Finishing tiles and operations (R109, R121, R258) -/

/-- An iteration of a stream that ends without a STEP_MARK (R113): the next one begins a new step (R247). -/
def State.endIteration (s : State) (p : Nat) : State :=
  match s.runOf p with
  | none => s
  | some (_, r, h) =>
    let g := h.image
    let last := g.stepLast r.first
    if (g.op last).code == 0x5F || !((g.stepOps r.first).all fun j => r.finished.contains j) then s
    else if r.iterations ≤ r.iteration + 1 then
      (s.modRun p fun r => { r with iteration := r.iteration + 1 }).endRun p stDone 0 none
    else (s.modRun p fun r => { r with iteration := r.iteration + 1, first := 0 }).stepStart p

/-- An operation has finished all of its instances: its SIGNAL token counts, and the phase may end. -/
def State.finishOp (s : State) (p i : Nat) : State :=
  match s.runOf p with
  | none => s
  | some (_, r, h) =>
    if r.finished.contains i then s
    else
      let g := h.image
      -- a tile operation or update made progress when it started and with its tiles, any other now (R121)
      let kept := r.startedOps.contains i && (isTileOp (g.op i).code || (g.op i).code == 0x40)
      let r1 := { r with
        finished := r.finished ++ [i], opsDone := r.opsDone + 1, snaps := r.snaps.filter fun x => x.op != i
        lastProgress := if kept then r.lastProgress else s.clock }.signal (g.op i).signal
      let past := fun (ph : Bool) => (g.op i).phase == ph && g.perSlice (g.op i)
        && (g.stepOps r.first).all fun j => !(g.perSlice (g.op j) && (g.op j).phase == ph) || r1.finished.contains j
      let s := s.modRun p fun _ => { r1 with
        fwdEnd := if past false then s.now else r1.fwdEnd
        bwdEnd := if past true then s.now else r1.bwdEnd }
      s.endIteration p

/-- The tile key of R390. -/
def tileKey (pid : Nat) (t : TileRef) (startedAt : Nat) : List Byte :=
  pack [(8, pid), (4, t.op), (2, t.slice), (4, t.row), (4, t.col), (4, t.d2), (4, t.d3), (8, startedAt / 1048576), (2, 0)]

/-- The effective RATE_LOG2 of a cluster (R397): under probation the more frequent of the two; 63 is off. -/
def State.rateOf (s : State) (c : Nat) : Nat :=
  let r := (s.cluster c).rateLog2
  if s.check.probation then min r s.check.probRate else r

/-- Operation codes whose output tiles are checked (R390). -/
def isChecked (code : Nat) : Bool := [1, 2, 0x10, 0x11, 0x18, 0x19, 0x1A, 0x1B, 0x32].contains code

/-- Droop events of an island, as its raw counter shows them. -/
def State.droopCount (s : State) (i : Nat) : Nat := (tget s.ctrs (ctrId i 3 0) {}).raw.toNat

/-- Times of the last `span` ns, with one more. -/
def recent (l : List Nat) (now span : Nat) : List Nat := l.filter fun t => decide (now < t + span)

/-- Stored codes of a tile: row × 1,024 + column, and code. -/
def State.tileCodes (s : State) (v : Pav) (hd : Nat) (h : Handle) (t : TileRef) : List (Nat × Nat) :=
  let g := h.image
  let o := (g.op t.op).out
  let (nr, nc) := g.tileSize o t
  (List.range nr).flatMap fun a => (List.range nc).map fun b =>
    (a * 1024 + b, s.codeAt v hd h o t.slice (g.tileCoord o t a b))

/-- A tile has been written: it leaves the tiles in flight, may be sampled for its cluster's checker, its NaNs are dealt
with, and the last tile finishes its operation. `place` is the engine that closed it, on core `core`; `more` are NaNs of
dγ and dβ that were written with it. -/
def State.finishTile (s : State) (p : Nat) (t : TileRef) (core place : Nat) (more : List TrapInfo := []) : State :=
  match s.runOf p with
  | none => s
  | some (_, r, h) =>
    match r.inflight.find? fun x => x.tile == t with
    | none => s
    | some x =>
      let g := h.image
      let o := g.op t.op
      let rate := ((x.rates.find? fun y => y.1 == core / 6).map (·.2)).getD (s.rateOf (core / 6))
      let sampled := isChecked o.code && decide (rate < 32)
        && leNat (shake256 4 (tileKey g.programId t x.startedAt)) % 2 ^ rate == 0
      let s := s.modRun p fun r => { r with
        inflight := r.inflight.filter (fun y => y.tile != t), done := r.done ++ [t], lastProgress := s.clock }
      let s := s.modCluster (core / 6) fun k => { k with tiles60 := recent k.tiles60 s.clock 60000000000 ++ [s.clock] }
      let isle := s.isle core
      let start := ((x.droops.find? fun y => y.1 == core).map (·.2)).getD (s.droopCount core)
      let heat := (s.isles.filter fun e => isleUnit e.1 == core / 24).foldl (fun m e => max m e.2.tempC) 0
      let s := if sampled then s.modPav p fun v => { v with samples := v.samples ++ [{
            tile := t, cluster := core / 6, place := place, finishedAt := s.now, clockAt := s.clock, initial := x.initial
            before := r.snaps.filter fun y => y.op == t.op && y.slice == t.slice
            stored := s.tileCodes v r.handle h t, runMhz := isle.run16 / 16, tempC := heat
            droops := (s.droopCount core + 2 ^ 48 - start) % 2 ^ 48 }] }
        else s
      let s := forEach ((x.nan.map (nanInfo g t)).toList ++ more) (fun s n => s.nanFound p n) s
      match s.runOf p with
      | none => s
      | some (v, r, h) =>
        if (h.image.opTiles t.op (s.heldSlices v h.image)).all fun u => r.done.contains u then s.finishOp p t.op else s

/-- The first NaN of written elements in ascending row, then column. -/
def firstNan (ws : List Written) : Option (Written × Nat × Bool) :=
  (ws.foldl (fun (a : Option (Written × Nat × Bool)) w => match w.nan with
    | none => a
    | some (src, cause) => match a with
      | none => some (w, src, cause)
      | some (b, _) => if w.r < b.r ∨ (w.r = b.r ∧ w.c < b.c) then some (w, src, cause) else a) none)

/-- Keep the first NaN of a tile's written elements with the tile (R174, R177). -/
def State.noteNan (s : State) (p : Nat) (t : TileRef) (place : Nat) (accLoc : Nat → Nat → Nat) (ws : List Written) : State :=
  match firstNan ws with
  | none => s
  | some (w, src, cause) =>
    let n : NanAt :=
      { row := w.r, col := w.c, source := src, accLoc := accLoc w.r w.c, cause := cause, place := place, time := s.now }
    s.modRun p fun r => { r with
      inflight := r.inflight.map fun (x : TileProg) => if x.tile != t then x else
        match x.nan with
        | some o => if o.row < n.row ∨ (o.row = n.row ∧ o.col ≤ n.col) then x else { x with nan := some n }
        | none => { x with nan := some n } }

/-- A NaN in a part of a tile that is not finished ends the run at once, unless NAN_RUN_ON keeps it for the tile's record.
Answers whether the run goes on. -/
def State.nanStops (s : State) (p : Nat) (t : TileRef) : State × Bool :=
  match s.runOf p with
  | none => (s, false)
  | some (_, r, h) =>
    match (r.inflight.find? fun x => x.tile == t).bind (·.nan) with
    | none => (s, true)
    | some n => if r.nanRunOn then (s, true) else (s.nanFound p (nanInfo h.image t n), false)

/-! ### Operands in device memory (R25, R224, R225, R481) -/

/-- Nothing in the machine can stop or fail an access to device memory. -/
def State.memSound (s : State) : Bool :=
  s.mem.bad.isEmpty && s.mem.retired.isEmpty && s.route.lostStacks.isEmpty && s.power.shut.isEmpty
    && s.route.bridgesDown.isEmpty && s.power.hbmStopped.isEmpty && !(s.cores.any fun e => e.2.unmapped)

/-- The rows of bytes that an access touches in device memory. -/
def State.accRows (s : State) (v : Pav) (h : Handle) (sl : Nat) (a : Acc) : List (Nat × Nat) :=
  s.regionRows v h a.ten sl a.lo a.hi
/-- The first uncorrectable or retired word of a region of a memory-backed tensor. -/
def State.badOperand (s : State) (v : Pav) (h : Handle) (sl : Nat) (a : Acc) : Option Nat :=
  if s.memSound then none else (s.accRows v h sl a).findSome? fun r => s.badRead r.1 r.2

/-- What a tile reads: its inputs, and OUT where it folds into its contents. -/
def Image.tileReads (g : Image) (t : TileRef) : List Acc :=
  (g.accesses (g.op t.op) t).filter fun a => !a.write || ((g.op t.op).acc && a.ten == (g.op t.op).out)

/-- The words in error that the operands of tiles meet are corrected, or left for their run to fail on. -/
def State.meetTiles (s : State) (p : Nat) (ts : List TileRef) (errs : MemErrors) : State :=
  match errs, s.runOf p with
  | [], _ => s
  | _, none => s
  | _, some (v, _, h) =>
    let rows := ts.flatMap fun t => (h.image.tileReads t).flatMap fun a => s.accRows v h t.slice a
    s.meet errs fun w => rows.any fun r => overlaps w (codeWord w) r.1 r.2

/-- The first bad word among the operands of a tile, or under a part of OUT that it writes. -/
def State.badTile (s : State) (p : Nat) (t : TileRef) : Option Nat :=
  match s.runOf p with
  | none => none
  | some (v, _, h) =>
    let g := h.image
    match (g.tileReads t).findSome? fun a => s.badOperand v h t.slice a with
    | some w => some w
    | none => if s.mem.bad.isEmpty || (g.op t.op).code == 0x38 then none
        else s.badUnder (s.tileRows v h (g.op t.op).out t)

/-- Every operand of a tile in device memory is within reach of the core that works on it: no failed die bridge cuts it off
(R25), and no stack on the way holds accesses back (R481). -/
def State.tileReach (s : State) (p core : Nat) (t : TileRef) : Bool :=
  s.memSound || match s.runOf p with
  | none => true
  | some (v, _, h) =>
    (h.image.accesses (h.image.op t.op) t).all fun a => (s.accRows v h t.slice a).all fun r =>
      s.dieReaches (core / 24) r.1 && !s.onStopped r.1 r.2

end Sys2Proof.Machine
end

