-- ==== Sys2Proof/Machine/Ring.lean ====
section
/-! DEFINITION. The ring machinery of chapter 03: reading slots, doorbells, the pointer mirror, RING_OPEN,
RING_CLOSE, HEARTBEAT and the allocation of ring sets. -/

namespace Sys2Proof.Machine

/-! ### Opcodes and forms (R77, R79, R80) -/

/-- The forms of an opcode: parameter words of the basic form, of the expert form where there is one, whether a
virtual function may submit it, and whether it needs a pavilion rather than the module as a whole. -/
structure Form where
  basic : Nat
  expert : Option Nat
  vf : Bool
  needsPav : Bool
  deriving DecidableEq, Repr

/-- The opcodes of R77 with those that chapters add, and the lengths that the owning chapters give. -/
def formOf : Nat → Option Form
  | 0x0001 => some ⟨2, some 4, true, false⟩ | 0x0002 => some ⟨0, some 1, true, false⟩
  | 0x0003 => some ⟨0, some 1, true, false⟩
  | 0x0101 => some ⟨2, some 4, false, true⟩ | 0x0102 => some ⟨0, some 1, false, true⟩
  | 0x0103 => some ⟨0, none, true, true⟩ | 0x0110 => some ⟨0, some 1, true, false⟩
  | 0x0120 => some ⟨2, some 4, false, true⟩ | 0x0121 => some ⟨0, some 1, false, true⟩
  | 0x0201 => some ⟨8, some 3, true, false⟩ | 0x0202 => some ⟨2, some 4, true, true⟩
  | 0x0203 => some ⟨3, some 6, true, true⟩ | 0x0210 => some ⟨0, some 1, false, false⟩
  | 0x0211 => some ⟨2, none, true, false⟩
  | 0x0301 => some ⟨2, some 3, true, true⟩ | 0x0302 => some ⟨1, some 2, true, true⟩
  | 0x0303 => some ⟨0, some 1, true, true⟩ | 0x0304 => some ⟨1, none, true, true⟩
  | 0x0401 => some ⟨1, some 2, true, true⟩ | 0x0410 => some ⟨2, some 4, true, true⟩
  | 0x0418 => some ⟨1, some 3, true, false⟩ | 0x0419 => some ⟨0, some 10, false, true⟩
  | 0x0430 => some ⟨2, some 3, false, true⟩ | 0x0431 => some ⟨1, some 2, false, true⟩
  | 0x0432 => some ⟨0, none, false, true⟩ | 0x0433 => some ⟨1, none, false, true⟩
  | 0x0434 => some ⟨0, some 2, false, true⟩
  | 0x0501 => some ⟨2, some 3, false, false⟩ | 0x0502 => some ⟨1, some 2, false, false⟩
  | 0x0510 => some ⟨1, some 2, false, false⟩
  | 0x0601 => some ⟨1, some 4, false, true⟩ | 0x0602 => some ⟨0, some 1, false, true⟩
  | 0x0603 => some ⟨3, none, false, true⟩ | 0x0610 => some ⟨0, some 1, false, true⟩
  | 0x0611 => some ⟨1, some 1, false, true⟩ | 0x0620 => some ⟨1, some 1, false, false⟩
  | 0x0701 => some ⟨0, some 1, true, false⟩ | 0x0702 => some ⟨4, some 7, false, false⟩
  | 0x0703 => some ⟨1, some 1, false, false⟩ | 0x0710 => some ⟨0, some 2, false, false⟩
  | 0x0801 => some ⟨0, some 1, true, false⟩ | 0x0802 => some ⟨1, some 3, true, true⟩
  | 0x0803 => some ⟨1, some 2, false, false⟩
  | 0x0901 => some ⟨0, some 1, false, false⟩ | 0x0902 => some ⟨0, some 1, false, false⟩
  | 0x0910 => some ⟨0, some 1, true, false⟩ | 0x0911 => some ⟨1, some 2, false, false⟩
  | 0x0A01 => some ⟨1, some 2, false, false⟩ | 0x0A02 => some ⟨0, some 2, true, false⟩
  | 0x0B01 => some ⟨5, some 6, true, false⟩ | 0x0B02 => some ⟨1, none, true, false⟩
  | 0x0C01 => some ⟨0, some 1, true, false⟩ | 0x0C02 => some ⟨0, some 1, false, false⟩
  | 0x0D01 => some ⟨1, some 3, true, false⟩ | 0x0D02 => some ⟨2, some 3, true, false⟩
  | 0xF001 => some ⟨1, some 2, true, true⟩
  | _ => none

/-- Indices of each KIND of TARGET (R69). -/
def targetCount (kind : Nat) : Nat :=
  match kind with
  | 0x0 => 1 | 0x1 => 8 | 0x2 => 32 | 0x3 => 192 | 0x4 => 576 | 0x5 => 6 | 0x6 => 32 | 0x7 => 24
  | 0x8 => 192 | 0x9 => 8 | 0xA => 1 | 0xC => 2 | _ => 0
def targetExists (t : Nat) : Bool :=
  let kind := t / 4096
  let i := t % 4096
  if kind = 0xB then decide (i < 6 ∨ (16 ≤ i ∧ i < 48)) else decide (i < targetCount kind)

/-- The core of an engine INDEX (R69). -/
def engineCore (i : Nat) : Nat := if i < 384 then i / 2 else i - 384

/-- Whether the unit that TARGET names belongs to the pavilion (R70). -/
def Pav.hasTarget (v : Pav) (p t : Nat) : Bool :=
  let i := t % 4096
  match t / 4096 with
  | 0 => true
  | 1 => i == p
  | 2 => v.clusters.contains i
  | 3 => v.clusters.contains (i / 6)
  | 4 => v.clusters.contains (engineCore i / 6)
  | 6 => v.hbm.any fun g => g.1 == i / 4
  | 7 => v.lpddr.any fun g => g.1 == i / 12
  | 8 => v.clusters.contains (i / 6)
  | 9 => v.clusters.any fun c => c / 4 == i
  | _ => false

/-! ### Reading a slot (R56, R64, R67 to R70, R73, R77 to R80) -/

/-- The header of R67, without parameters. -/
def parseHeader (l : List Byte) (serial port fn slot : Nat) : Cmd :=
  let w0 := field l 0 4
  { serial := serial, port := port, fn := fn, slot := slot
    opcode := bits w0 15 0, notify := bitAt w0 28, deferOk := bitAt w0 29, fence := bitAt w0 30
    expert := bitAt w0 31, tag := field l 4 2, pavilion := field l 6 1 % 16, target := field l 8 2
    deadline := field l 16 8, paramRef := field l 24 8, params := [], hot := false }

/-- Whether the expert form of a class is withheld from virtual functions (R80, R437). -/
def State.withheld (s : State) (opcode : Nat) : Bool :=
  let cls := opcode / 256
  let mask := match s.boot.bundle with
    | some b => b.withhold
    | none => 0
  mask.testBit (if cls = 0xF0 then 15 else cls)

/-- The checks on a header at the reading, in the order of log 6. A command that passes carries its parameter
words. `opens` says that the slot may carry RING_OPEN. -/
def State.checkHeader (s : State) (c : Cmd) (l : List Byte) : Chk Cmd := do
  let words := field l 7 1
  let r := s.ring c.key
  need (r.isOpen || (c.opcode == 0x0001 && c.slot == 0)) { code := 0x0105 }
  need (!(s.cmds.any fun x => x.key == c.key && x.tag == c.tag && !x.orphan)
    && !(r.tags.any fun t => t.tag == c.tag)) { code := 0x010C, off := 0 }
  match formOf c.opcode with
  | none => .error { code := 0x0101, off := 0 }
  | some f =>
    need (c.fn == 0 || f.vf) { code := 0x0103, off := 0 }
    let cls0 := c.opcode / 256 == 0
    need (if c.fn != 0 then c.pavilion + 1 == c.fn
          else (decide (c.pavilion < 8) && (cls0 || c.opcode == 0x0101 || (s.pav c.pavilion).isSome))
            || (c.pavilion == 0xF && !f.needsPav)) { code := 0x0106, off := 0 }
    -- a PAVILION_DESTROY of it has started (R409)
    need (cls0 || !(s.cmds.any fun x => x.opcode == 0x0102 && x.phase == .started && x.pavilion == c.pavilion))
      { code := 0x0106, off := 0 }
    need (targetExists c.target) { code := 0x0107, off := 1 }
    -- FUNCTION_RESET limits TARGET itself (R413), LINK_STATUS may name any link (R348)
    need (c.fn == 0 || c.opcode == 0x0110 || (c.opcode == 0x0701 && c.target / 4096 == 5)
      || ((s.pav c.pavilion).any fun v => v.hasTarget c.pavilion c.target) || c.target == 0)
      { code := 0x0107, off := 1 }
    need (!c.expert || (f.expert.isSome && (c.fn == 0 || !s.withheld c.opcode))) { code := 0x010B, off := 0 }
    let len := if c.expert then f.expert.getD 0 else f.basic
    let rearm := c.opcode == 0x0101 && !c.expert && words == 0 && c.paramRef == 0
    if c.paramRef = 0 then
      need (words == len || rearm) { code := 0x0102, off := 0 }
      .ok { c with params := (List.range words).map fun i => field l (32 + 8 * i) 8 }
    else
      need (words == cdiv len 8 && decide (0 < words)) { code := 0x0102, off := 0 }
      need (c.paramRef % 64 == 0) { code := 0x010A, off := 3 }
      let n := 64 * words
      need (s.mapped c.paramRef n && (c.fn == 0 || s.inStaging c.key c.paramRef n
        || ((s.pav c.pavilion).any fun v => v.ownsRange c.paramRef n))) { code := 0x010A, off := 3 }
      match s.badRead c.paramRef n with
      | some w => .error { code := 0x0202, detail := some (s.placeOfAddr w * 65536 + 0xFFFF), result := pack [(8, w)] }
      | none =>
        let b := s.readMem c.paramRef n
        .ok { c with params := (List.range len).map fun i => field b (8 * i) 8 }

/-- A hot command (R78). -/
def State.isHot (s : State) (c : Cmd) : Bool :=
  [0x0302, 0x0303, 0x0401].contains c.opcode && c.paramRef == 0
    && ((s.pav c.pavilion).any fun v => !v.handles.isEmpty)

/-- Free completion entries beyond those reserved (R64). -/
def RingSet.freeCq (r : RingSet) : Nat :=
  let n := 2 ^ r.cqLog2
  n - 1 - (r.cqTail + n - r.cqHead) % n - r.reserved

/-- The conditions of R64, R59 and R419 for reading one slot. -/
def State.mayRead (s : State) (k : Nat) : Bool :=
  let r := s.ring k
  r.ready && r.sqHead != r.sqTail && r.closing.isNone && !r.closeHold && !r.draining
    && !(s.port (k / 9)).lost && decide (s.outstanding k < r.outMax) && decide (2 ≤ r.freeCq)

/-- COMMAND_READ (R56): one slot is read, its header checked, and the command becomes outstanding or is rejected. -/
def execCommandRead (r : FnRef) (s : State) : Host.Outcome State Fault Refusal :=
  let k := fnKey r
  if !s.mayRead k then .next s
  else
    let g := s.ring k
    let a := g.base + 256 * g.sqHead
    let bad := s.badRead a 256
    let l := match bad with
      | none => s.readMem a 256
      | some w => fit 256 (s.readMem a (w - a))
    let c0 := parseHeader l s.nextCmd r.port.val r.fn.val g.sqHead
    let chk := if bad.isSome then .error { code := 0x0202 } else s.checkHeader c0 l
    let s := { s with nextCmd := s.nextCmd + 1 }.modRing k fun g => { g with
      sqHead := (g.sqHead + 1) % 2 ^ g.sqLog2, reserved := g.reserved + 2, dirty := true }
    match bad, chk with
    | some w, _ => .next (({ s with cmds := s.cmds ++ [c0] }).failMemory c0 w)
    | none, .error e =>
      let s := { s with cmds := s.cmds ++ [c0] }
      if e.code = 0x0202 then .next (s.failMemory c0 (field e.result 0 8)) else .next (s.reject c0 e)
    | none, .ok c =>
      let c := { c with hot := s.isHot c }
      let s := { s with cmds := s.cmds ++ [c] }
      .next (if c.opcode = 0x0002 then s.modRing k fun g => { g with closing := some c.serial } else s)

/-! ### Which functions answer (R31, R457, R466, R468) -/

/-- A function's registers answer: its port is configured (R31, R457), it exists, and it is in D0 (R468). -/
def State.serves (s : State) (r : FnRef) : Bool :=
  (s.port r.port.val).cfgReady && s.present r.port.val r.fn.val && !(s.port r.port.val).d3.contains r.fn.val
/-- The answer to an access that no register serves: none from a port that is invisible (R31), else Unsupported Request
(R466, R468). -/
def State.unserved (s : State) (r : FnRef) : State :=
  if (s.port r.port.val).cfgReady then s.emit (.unsupported r.port.val r.fn.val) else s

/-! ### Doorbells (R61, R63, R461) -/

/-- The value of a doorbell write, or none for a 4-byte write to the high half, which is discarded. -/
def doorbellValue (v : W64) (h : Half) : Option Nat :=
  match h with
  | .full => some v.toNat
  | .low => some (v.toNat % 2 ^ 32)
  | .high => none

/-- A posted write that the BAR does not permit: discarded, counted and reported as advisory (R461, R495). -/
def State.discardWrite (s : State) (r : FnRef) : State :=
  (s.count (ctrId 0xFFFF 9 (4 + r.port.val)) 1).emit (.advisory r.port.val r.fn.val)

/-- EV_DOORBELL_INVALID with the value written (R63, R76). -/
def State.doorbellInvalid (s : State) (k v : Nat) : State := s.postRing k 0x0002 1 (pack [(8, v)])

def execSqDb (r : FnRef) (value : W64) (half : Half) (s : State) : Host.Outcome State Fault Refusal :=
  if !s.serves r then .next (s.unserved r)
  else match doorbellValue value half with
  | none => .next (s.discardWrite r)
  | some v =>
    let k := fnKey r
    let g := s.ring k
    if !g.ready then .next s
    else
      let n := 2 ^ g.sqLog2
      let i := v % 2 ^ 13
      if i ≥ n ∨ (g.sqTail + n - g.sqHead) % n + (i + n - g.sqTail) % n > n - 1 then .next (s.doorbellInvalid k v)
      else .next (s.modRing k fun g => { g with sqTail := i })

/-- Whether an entry index lies among the m entries from h on, in a ring of n. -/
def ringWithin (n h m i : Nat) : Bool := decide ((i + n - h) % n < m)

def execCqDb (r : FnRef) (value : W64) (half : Half) (s : State) : Host.Outcome State Fault Refusal :=
  if !s.serves r then .next (s.unserved r)
  else match doorbellValue value half with
  | none => .next (s.discardWrite r)
  | some v =>
    let k := fnKey r
    let g := s.ring k
    if !g.ready then .next s
    else
      let n := 2 ^ g.cqLog2
      let i := v % 2 ^ 14
      let m := (i + n - g.cqHead) % n
      if i ≥ n ∨ m > (g.cqTail + n - g.cqHead) % n then .next (s.doorbellInvalid k v)
      else
        -- a TAG is free again once its final entry is consumed (R74)
        let s := s.modRing k fun g => { g with
          cqHead := i, tags := g.tags.filter fun t => !ringWithin n g.cqHead m t.index }
        .next (if (s.ring k).closeHold && (s.ring k).cqHead == (s.ring k).cqTail then s.releaseHold k else s)

def execEqDb (r : FnRef) (value : W64) (half : Half) (s : State) : Host.Outcome State Fault Refusal :=
  if !s.serves r then .next (s.unserved r)
  else match doorbellValue value half with
  | none => .next (s.discardWrite r)
  | some v =>
    let k := fnKey r
    let g := s.ring k
    if !g.ready then .next s
    else
      let n := 2 ^ g.eqLog2
      let i := v % 2 ^ 13
      if i ≥ n ∨ (i + n - g.eqHead) % n > (g.eqTail + n - g.eqHead) % n then .next (s.doorbellInvalid k v)
      else
        let lost := g.droppedNew
        let s := s.modRing k fun g => { g with eqHead := i }
        if 0 < lost ∧ i ≠ g.eqHead then
          .next ((s.modRing k fun g => { g with droppedNew := 0 }).postRing k 0x0001 1 (pack [(4, sat32 lost)]))
        else .next s

/-! ### Mirror writes and their messages (R65, R66) -/

/-- Whether NOTIFY entries are held (R58, R66): both coalescing fields nonzero and fewer entries pending than asked. -/
def RingSet.holds (r : RingSet) (n : Nat) : Bool :=
  n != 0 && r.coalUs != 0 && r.coalCount != 0 && decide (n < r.coalCount)

/-- The messages that a mirror write covers (R66): one for NOTIFY entries that are due and not held, one for new
events, and one alone where both signal the same vector. -/
def State.mirrorMessages (s : State) (k : Nat) : State :=
  let r := s.ring k
  let due := r.held + r.notifyNew
  let hold := r.holds due
  let cq := if due = 0 || hold then [] else [r.cqVector]
  let eq := if r.eventNew = 0 || cq.contains r.eqVector then [] else [r.eqVector]
  let s := s.modRing k fun r => { r with
    held := if hold then due else 0, notifyNew := 0, eventNew := 0
    heldSince := if hold && r.held == 0 then s.clock else r.heldSince }
  forEach (cq ++ eq) (fun s v => s.sendMsix (k / 9) (k % 9) v) s

/-- MIRROR_WRITE: after a pointer of the module has changed. -/
def execMirrorWrite (r : FnRef) (s : State) : Host.Outcome State Fault Refusal :=
  let k := fnKey r
  if (s.ring k).dirty && s.mirrorDue k then .next ((s.writeMirror k).mirrorMessages k) else .next s

/-- MIRROR_REFRESH: every 100 ms ± 1 ms when nothing has changed. -/
def execMirrorRefresh (r : FnRef) (s : State) : Host.Outcome State Fault Refusal :=
  let k := fnKey r
  if !(s.ring k).dirty && s.mirrorDue k && decide (s.clock ≥ (s.ring k).mirrorAt + 99000000) then
    .next (s.writeMirror k)
  else .next s

/-- COALESCE_TIMEOUT: the hold of COALESCE_US ends with one message for every held entry. -/
def execCoalesceTimeout (r : FnRef) (s : State) : Host.Outcome State Fault Refusal :=
  let k := fnKey r
  let g := s.ring k
  if 0 < g.held ∧ s.clock ≥ g.heldSince + 1000 * g.coalUs then
    .next ((s.modRing k fun g => { g with held := 0 }).sendMsix (k / 9) (k % 9) g.cqVector)
  else .next s

/-! ### Host heartbeats (R87, R419, R469) -/

/-- A counted heartbeat of a port: when its host had been lost, reading and sending resume and every mirror is due. -/
def State.heartbeat (s : State) (q : Nat) : State :=
  let wasLost := (s.port q).lost
  let s := s.modPort q fun p => { p with lastBeat := s.now, lastBeatLocal := s.clock, latePosted := false, lost := false }
  if wasLost then
    { s with rings := tmap (fun k r => if k / 9 = q ∧ (r.isOpen ∨ r.closeHold) then { r with dirty := true } else r) s.rings }
  else s

/-! ### RING_OPEN, RING_CLOSE, HEARTBEAT (R58, R59, R81) -/

/-- EV_START_COMPLETE (R454): stage, START_COUNT and the milliseconds from LOAD to stage 9. -/
def State.startCompleteData (s : State) : List Byte :=
  pack [(4, s.boot.stage), (4, s.flash.starts.count.toNat), (8, (s.boot.readyLocal - s.boot.loadAt) / 1000000)]

def bodyRingOpen (s : State) (c : Cmd) : Chk State := do
  let k := c.key
  need (!(s.ring k).isOpen) { code := 0x0108 }
  let w := c.word
  need (w 0 % 64 == 0 && w 0 != 0) (c.badParam 0)
  need (decide (bits (w 1) 7 0 < 64 ∧ bits (w 1) 15 8 < 64)) (c.badParam 1)
  let om := bits (w 2) 47 32
  need (!c.expert || decide (1 ≤ om ∧ om ≤ 1024)) (c.badParam 2)
  let first := c.fn == 0 && !(s.ring k).startPosted && decide (9 ≤ s.boot.stage)
  let s := s.modRing k fun r => { r with
    isOpen := true, epoch := r.epoch + 1, mirrorAddr := w 0, cqVector := bits (w 1) 7 0, eqVector := bits (w 1) 15 8
    outMax := if c.expert then om else 1024
    coalUs := if c.expert then bits (w 2) 31 16 else 0
    coalCount := if c.expert then bits (w 2) 15 0 else 0
    eventMask := if c.expert then bits (w 3) 15 0 ||| 1 else 0xFFFF
    seq := 0, eqDropped := 0, droppedNew := 0, eventNew := 0, dirty := true, startPosted := r.startPosted || first }
  let r := s.ring k
  let s := s.finish c (res [(4, r.epoch.toNat), (4, 2 ^ r.sqLog2), (4, 2 ^ r.cqLog2), (4, 2 ^ r.eqLog2),
    (8, r.staging), (4, stagingBytes)])
  .ok (if first then s.postRing k 0x0C01 0 s.startCompleteData else s)

def execRingOpen (id : Nat) (s : State) : Host.Outcome State Fault Refusal :=
  .next (s.startCmd id 0x0001 bodyRingOpen)

/-- RING_CLOSE starts, in ring order like every command (R82): with ABORT = 1 every command of the ring that has not started completes with ST_ABORT_CLOSE;
it completes when it is the ring's last command. -/
def bodyRingClose (s : State) (c : Cmd) : Chk State :=
  let ab := c.expert && bitAt (c.word 0) 0
  let s := s.started c
  let s := if ab then
      s.abortAll (fun x => x.key == c.key && x.serial != c.serial && x.phase != .started && !x.orphan) 0x0305 0xFFFF (some c)
    else s
  .ok (s.closeCheck c.key)

def execRingClose (id : Nat) (s : State) : Host.Outcome State Fault Refusal :=
  .next (s.startCmd id 0x0002 bodyRingClose)

def bodyHeartbeat (s : State) (c : Cmd) : Chk State :=
  let s := if c.fn = 0 then s.heartbeat c.port else s
  .ok (s.finish c (res [(8, s.beat.toNat), (8, (s.port c.port).lastBeat), (4, s.outstanding c.key),
    (1, s.boot.leadHub), (3, 0), (8, if c.expert then c.word 0 else 0)]))

def execHeartbeat (id : Nat) (s : State) : Host.Outcome State Fault Refusal :=
  .next (s.startCmd id 0x0003 bodyHeartbeat)

/-! ### Allocation of ring sets (R54, R57, R90) -/

/-- Where a function's ring set lies (log 11): for a physical function 256 MiB of the firmware region of the first die
that has room, for a virtual function a range of its pavilion's HBM3E. None: no HBM3E to be had. -/
def State.allocRing (s : State) (port fn : Nat) : Option (Nat × State) :=
  if fn = 0 then
    (((List.range 8).map fun d => d * 2 ^ 38 + port * 256 * mib).find? fun a =>
      s.mapped a (256 * mib) && (s.retiredIn a (256 * mib)).isNone).map fun a => (a, s)
  else s.allocMem (fn - 1) 0 (256 * mib) 4096 6

def validSizes (eq cq sq : Nat) : Bool :=
  decide (6 ≤ eq ∧ eq ≤ 12 ∧ 7 ≤ cq ∧ cq ≤ 13 ∧ 6 ≤ sq ∧ sq ≤ 12 ∧ sq + 1 ≤ cq)

def State.ringError (s : State) (k e : Nat) : State := s.modRing k fun r => { r with error := e }

/-- RINGSET_CFG takes the value written (R6). -/
def State.writeCfg (s : State) (k : Nat) (on : Bool) (eq cq sq : BitVec 4) : State :=
  s.modRing k fun g => { g with enable := on, cfgSizes := eq.toNat * 256 + cq.toNat * 16 + sq.toNat }

/-- RINGSET_CFG written with ENABLE = 1. A write during the hold of R59 ends it first; of several errors the first in
the order 5, 2, 3, 1, 4 is reported (log 41). -/
def execRingsetCfgEnable (r : FnRef) (eq cq sq : BitVec 4) (s : State) : Host.Outcome State Fault Refusal :=
  let k := fnKey r
  if !s.serves r then .next (s.unserved r)
  else if !s.roleUp 0 then .next s
  else
    let s := if (s.ring k).closeHold then s.endHold k else s
    let g := s.ring k
    if g.isOpen || g.draining || g.busy then .next (s.ringError k 5)
    else
      let s := s.writeCfg k true eq cq sq
      if s.boot.stage < 9 then .next (s.ringError k 2)
      else if r.fn.val ≠ 0 ∧ (s.pav (r.fn.val - 1)).isNone then .next (s.ringError k 3)
      else if !validSizes eq.toNat cq.toNat sq.toNat then .next (s.ringError k 1)
      else
        let s := s.freeRing k
        match s.allocRing r.port.val r.fn.val with
        | none => .next (s.ringError k 4)
        | some (a, s) =>
          .next ((s.zeroMem a (ringBytes + stagingBytes)).modRing k fun g => { g with
            eqLog2 := eq.toNat, cqLog2 := cq.toNat, sqLog2 := sq.toNat, error := 0, ready := true
            base := a, staging := a + stagingOffset })

/-- Free a ring set as RINGSET_CFG ENABLE = 0 does: in an open session it acts as RING_CLOSE with ABORT = 1, and the
ring set goes when its started commands have ended. -/
def State.disableRing (s : State) (k : Nat) : State :=
  if (s.ring k).isOpen then
    let s := s.modRing k fun g => { g with draining := true, busy := true, enable := false, error := 0 }
    let s := s.abortAll (fun x => x.key == k && x.phase != .started && !x.orphan) 0x0305 0xFFFF none
    s.closeCheck k
  else
    let s := if (s.ring k).closeHold then s.endHold k else s
    (s.freeRing k).modRing k fun g => { g with enable := false }

/-- RINGSET_CFG written with ENABLE = 0. -/
def execRingsetCfgDisable (x : RingOff) (s : State) : Host.Outcome State Fault Refusal :=
  let k := fnKey x.fn
  if !s.serves x.fn then .next (s.unserved x.fn)
  else if !s.roleUp 0 then .next s
  else
    let s := if (s.ring k).closeHold then s.endHold k else s
    if (s.ring k).draining || (s.ring k).busy then .next (s.ringError k 5)
    else .next ((s.writeCfg k false x.eqLog2 x.cqLog2 x.sqLog2).disableRing k)

end Sys2Proof.Machine
end

