-- ==== Sys2Proof/Machine/Start.lean ====
section
/-! DEFINITION. Power, reset and the start sequence of chapters 17 and 19: PWR_GOOD, the ten stages of R439, the
verification of the bundle (R432 to R438) and the flash records. -/

namespace Sys2Proof.Machine

def gibAt (d g : Nat) : Nat := d * 2 ^ 38 + g * gib

/-! ### Power and module reset (R472 to R475) -/

/-- Everything except the flash is lost (R475, R455). The hosts' memories and what was sent are not the module's. -/
def State.moduleReset (s : State) : State :=
  { State.reset with
    pending := s.pending, freeCtr := s.freeCtr, out := s.out, flash := s.flash, host0 := s.host0, host1 := s.host1 }

/-- Set BOOT_STAGE, and the running start's entry for the next start's record (R444). -/
def State.setStage (s : State) (n : Nat) : State :=
  { s with
    boot := { s.boot with stage := n }
    flash := { s.flash with prev := { s.flash.prev with stage := n } } }

/-- PWR_GOOD is asserted (R474): stage 1, with everything but the flash as after reset. -/
def execPowerUp (mv : Nat) (s : State) : Host.Outcome State Fault Refusal :=
  if s.power.pwrGood || !(decide (39000 < mv ∧ mv < 61000)) then .next s
  else
    let s := s.moduleReset.modPower fun p => { p with inputMv := mv, resetN := true, pwrGood := true }
    .next ((s.modBoot fun b => { b with hubResetAt := s.clock }).setStage 1)

/-- RESET_N is low: the module resets whether it was powered or not (R473, R490). -/
def execResetNAssert (s : State) : Host.Outcome State Fault Refusal :=
  .next (s.moduleReset.modPower fun p => { p with inputMv := s.power.inputMv, resetN := false })

def execInputBelowStop (mv : Nat) (s : State) : Host.Outcome State Fault Refusal :=
  if mv < 37000 then .next (s.moduleReset.modPower fun p => { p with inputMv := mv, resetN := s.power.resetN })
  else .next s

def execInputOvervoltage (mv : Nat) (s : State) : Host.Outcome State Fault Refusal :=
  if 62000 < mv then
    .next (s.moduleReset.modPower fun p => { p with inputMv := mv, resetN := s.power.resetN, overVolt := true })
  else .next s

/-- EV_INPUT (R489): once an excursion outside 40 to 60 V has lasted 100 ms; a value within the band ends it. -/
def execEvInput (mv : Nat) (s : State) : Host.Outcome State Fault Refusal :=
  let s := s.modPower fun p => { p with inputMv := mv }
  if !s.power.pwrGood then .next s
  else if 40000 ≤ mv ∧ mv ≤ 60000 then
    .next (s.modPower fun p => { p with inputBadSince := none, evInputPosted := false })
  else match s.power.inputBadSince with
    | none => .next (s.modPower fun p => { p with inputBadSince := some s.clock })
    | some t =>
      if s.power.evInputPosted || decide (s.clock < t + 100000000) then .next s
      else .next ((s.modPower fun p => { p with evInputPosted := true }).postModule 0x0A05 1 0xFFFF
        (pack [(1, if mv < 40000 then 1 else 2), (1, 0), (2, mv)]))

/-! ### Stages 2 and 3: the lead hub and the identity (R28, R31, R430, R431) -/

def lookupHub (l : List (Nat × Bool)) (h : Nat) : Option Bool := (l.find? (fun e => e.1 == h)).map (·.2)

/-- Choose the lead hub once both self-tests have an outcome (R28); with none that passes nothing becomes visible
(R31). The identity region of the flash is then protected (R429). -/
def State.chooseLead (s : State) : State :=
  match lookupHub s.boot.hubTested 0, lookupHub s.boot.hubTested 1 with
  | some w, some e =>
    if w || e then
      let h := if w then 0 else 1
      (s.modBoot fun b => { b with leadHub := h, roleHub := [h, h, h] }).setStage 2
    else s
  | _, _ => s

/-- HUB_SELFTEST. Hub W leads only when it passes within 200 ms of its release (R28). DESIGN CHOICE (log 22): a Hub W that
passes later counts as failed for this whole start; it neither leads nor becomes a standby. -/
def execHubSelftest (hub : Fin 2) (pass : Bool) (s : State) : Host.Outcome State Fault Refusal :=
  if s.boot.stage ≠ 1 ∨ (lookupHub s.boot.hubTested hub.val).isSome then .next s
  else
    let ok := pass && (hub.val == 1 || decide (s.clock ≤ s.boot.hubResetAt + 200000000))
    .next (s.modBoot fun b => { b with hubTested := b.hubTested ++ [(hub.val, ok)] }).chooseLead

/-- LEAD_HUB_TIMEOUT: 200 ms after release Hub W has not passed. -/
def execLeadHubTimeout (s : State) : Host.Outcome State Fault Refusal :=
  if s.boot.stage ≠ 1 ∨ (lookupHub s.boot.hubTested 0).isSome ∨ s.clock < s.boot.hubResetAt + 200000000 then .next s
  else .next (s.modBoot fun b => { b with hubTested := b.hubTested ++ [(0, false)] }).chooseLead

def setBootError (s : State) (q e : Nat) : State :=
  (s.modBootPort q fun b => { b with error := e, failed := true, busy := false }).modFlash fun f =>
    { f with prev := { f.prev with error := e } }

/-- The start record of this start, with ERROR and BOOT_STAGE of the one before (R439, R444). -/
def newStartRecord (f : Flash) : Flash :=
  { f with
    starts := { count := f.starts.count + 1, error := f.prev.error, stage := f.prev.stage }
    prev := { count := f.starts.count + 1, error := 0, stage := 3 } }

/-- EV_IDENTITY_FAULT: the hub, and 1 for the seed check, 2 for a public key that differs (R454). -/
def State.identityFault (s : State) (h : Nat) (o : IdOutcome) : State :=
  s.postModule 0x0B01 3 (placeHub h 0 0) (pack [(1, h), (1, if o = .seedMismatch then 1 else 2)])

def execIdentityDerive (hub : Fin 2) (o : IdOutcome) (s : State) : Host.Outcome State Fault Refusal :=
  let h := hub.val
  if s.boot.stage < 2 then .next s
  else if h = s.boot.leadHub then
    if s.boot.stage = 2 then
      if o = .ok then
        .next ((({ s with flash := newStartRecord s.flash }).modBoot fun b => { b with
          identity := b.identity ++ [(h, true)], hasIdentity := true }).setStage 3)
      else .next (setBootError (setBootError s 0 0x000B) 1 0x000B)
    else if o = .ok then .next s
    -- a later derivation that disagrees stops signing until the next start
    else .next ((s.modBoot fun b => { b with signingStopped := true }).identityFault h o)
  else if o = .ok then .next (s.modBoot fun b => { b with identity := b.identity ++ [(h, true)] })
  else .next ((s.modBoot fun b => { b with identity := b.identity ++ [(h, false)], standbyReady := false }).identityFault h o)

/-- The identity digest: the first 128 bits of SHAKE256 over the public key (R430). -/
def identityDigest : Nat := digest128 (leBytes 1952 Config.identityKey.toNat)

/-! ### Stage 4: the pull (R441, R462) -/

/-- The lowest-numbered die that works holds the staging area (R439). -/
def State.stagingDieOf (s : State) : Nat := ((List.range 8).find? fun d => !s.dieLost d).getD 0
def dieStoreAddr (d : Nat) : Nat := 4 * 2 ^ 48 + d * 2 ^ 26

/-- Length of the next read request: at most 4,096 bytes, and never across a 4 KiB boundary (R462). -/
def readChunk (addr left : Nat) : Nat := min left (4096 - addr % 4096)

/-- Issue one read request toward a host. -/
def State.hostRequest (s : State) (q : Nat) (cmd : Option Nat) (addr len : Nat) : State :=
  let t := (s.port q).nextTag
  (s.modPort q fun p => { p with
    requests := p.requests ++ [(t, cmd, addr, len, s.clock)], nextTag := p.nextTag + 1 }).emit
    (.hostRead q t addr len)

def execLoad (port : Fin 2) (s : State) : Host.Outcome State Fault Refusal :=
  let q := port.val
  let b := s.bootPort q
  if s.boot.stage < 2 then .next s
  else if !s.boot.hasIdentity then .next s
  else if s.boot.stage ≠ 3 ∨ s.boot.loaded ∨ s.boot.loadPort.isSome then
    .next (s.modBootPort q fun b => { b with error := 0x000F })
  else if b.bundleAddr.toNat % 4096 ≠ 0 ∨ b.bundleBytes.toNat < 256 ∨ 33554432 < b.bundleBytes.toNat then
    .next (setBootError s q 0x0001)
  else
    let s := s.modBootPort q fun b => { b with busy := true, failed := false, error := 0, bytesDone := 0 }
    let s := s.modBoot fun x => { x with loadPort := some q, loadAt := s.clock, stagingDie := s.stagingDieOf }
    .next (s.hostRequest q none b.bundleAddr.toNat (readChunk b.bundleAddr.toNat b.bundleBytes.toNat))

/-- End a load that is busy: the requests toward the host are dropped, the staging area is zeroed and the stage stays
at 3 (R441, R442). -/
def State.endLoad (s : State) (e : Nat) : State :=
  match s.boot.loadPort with
  | none => s
  | some q =>
    let s := s.modPort q fun p => { p with requests := p.requests.filter fun r => r.2.1.isSome }
    let s := (setBootError s q e).zeroMem (dieStoreAddr s.boot.stagingDie) 0x2000000
    (s.modBoot fun b => { b with loadPort := none, loaded := false, bundle := none }).setStage 3

def execAbandon (port : Fin 2) (s : State) : Host.Outcome State Fault Refusal :=
  if s.boot.loadPort = some port.val ∧ s.boot.stage ≤ 4 then .next (s.endLoad 0x000E) else .next s

def execBundlePullDone (s : State) : Host.Outcome State Fault Refusal :=
  match s.boot.loadPort with
  | none => .next s
  | some q =>
    if s.boot.stage = 3 ∧ (s.bootPort q).bytesDone = (s.bootPort q).bundleBytes.toNat then .next (s.setStage 4)
    else .next s

/-! ### Stage 5: verification (R432 to R437) -/

/-- The parts of a bundle header (R432). -/
structure BundleHdr where
  label : Nat
  sigOff : Nat
  imgOff : Nat
  keyOff : Nat
  bytes : Nat
  images : Nat
  keys : Nat
  deriving DecidableEq, Repr

def parseBundleHdr (l : List Byte) : BundleHdr :=
  { label := field l 32 4, sigOff := field l 28 4, imgOff := field l 24 4, keyOff := field l 20 4
    bytes := field l 16 4, images := field l 15 1, keys := field l 14 1 }

/-- The regions that R435 step 1 compares: header, key table, image table, signature area and images. -/
def bundleRegions (h : BundleHdr) (imgs : List ImageInfo) : List (Nat × Nat) :=
  [(0, 256), (h.keyOff, 5376 * h.keys), (h.imgOff, 64 * h.images), (h.sigOff, 3328 * h.images)]
    ++ imgs.map fun i => (i.offset, i.bytes)

def pairwiseDisjoint : List (Nat × Nat) → Bool
  | [] => true
  | (a, n) :: t => t.all (fun e => !overlaps a n e.1 e.2) && pairwiseDisjoint t

def parseImages (l : List Byte) (h : BundleHdr) : List ImageInfo :=
  (List.range h.images).map fun i =>
    let o := h.imgOff + 64 * i
    { type := field l o 1, keyIndex := field l (o + 1) 1, version := field l (o + 8) 4, offset := field l (o + 16) 4
      bytes := field l (o + 20) 4, digest := field l (o + 32) 32 }

/-- R435 step 1. -/
def bundleShapeOk (l : List Byte) (h : BundleHdr) (imgs : List ImageInfo) (n : Nat) : Bool :=
  field l 0 4 == 0x52434954 && field l 4 2 == 1 && h.bytes == n
    && decide (6 ≤ h.images ∧ h.images ≤ 16 ∧ 1 ≤ h.keys ∧ h.keys ≤ 4)
    && h.keyOff % 64 == 0 && h.imgOff % 64 == 0 && h.sigOff % 64 == 0
    && imgs.all (fun i => i.offset % 4096 == 0 && decide (1 ≤ i.bytes))
    && (bundleRegions h imgs).all (fun r => decide (r.1 + r.2 ≤ n)) && pairwiseDisjoint (bundleRegions h imgs)

def keyBytes (l : List Byte) (h : BundleHdr) (k : Nat) : List Byte := slice l (h.keyOff + 5376 * k) 1952

/-- R435 step 2: key 0 against the ROM digest, the other keys against key 0. -/
def keysCheck (l : List Byte) (h : BundleHdr) : Option Nat :=
  if digest128 (keyBytes l h 0) ≠ Config.romRootDigest.toNat then some 0x0004
  else if (List.range h.keys).all fun k => k == 0 || Config.mldsaVerify (keyBytes l h 0)
      (slice l (h.keyOff + 5376 * k) 1960) (slice l (h.keyOff + 5376 * k + 1960) 3309) then none
  else some 0x0005

/-- R435 step 3 for image i: permission, digest, signature over the entry with OFFSET zero. -/
def imageCheck (l : List Byte) (h : BundleHdr) (i : Nat) (m : ImageInfo) : Option Nat :=
  let o := h.imgOff + 64 * i
  if h.keys ≤ m.keyIndex ∨ (m.keyIndex ≠ 0 ∧ !(field l (h.keyOff + 5376 * m.keyIndex + 1952) 4).testBit m.type) then some 0x0008
  else if digest256 (slice l m.offset m.bytes) ≠ m.digest then some 0x0006
  else if !Config.mldsaVerify (keyBytes l h m.keyIndex)
      (slice l o 16 ++ leBytes 4 0 ++ slice l (o + 20) 44) (slice l (h.sigOff + 3328 * i) 3309) then some 0x0007
  else none

def imagesCheck (l : List Byte) (h : BundleHdr) : Nat → List ImageInfo → Option Nat
  | _, [] => none
  | i, m :: t => match imageCheck l h i m with
    | some e => some e
    | none => imagesCheck l h (i + 1) t

/-- The configuration image (R437): the fleet header and the module's own section, or none when it is not valid. -/
def parseConfig (l : List Byte) (ident : Nat) : Option (Nat × Bool × Nat × Nat × Bool × Nat × List Nat) :=
  let n := field l 6 2
  let secs := (List.range n).map fun i => slice l (64 + 64 * i) 64
  let ids := secs.map fun x => field x 0 16
  if field l 0 4 ≠ 0x46474E43 ∨ field l 4 2 ≠ 1 ∨ 16384 < n ∨ l.length ≠ 64 * (1 + n) ∨ ¬ ids.Nodup then none
  else
    let cap := field l 14 2
    let rate := field l 10 1 % 64
    let hdr := (if cap = 0 then 7200 else cap, bitAt (field l 11 1) 0, if rate = 0 then 12 else rate, field l 8 2)
    match secs.find? fun x => field x 0 16 == ident with
    | none => some (hdr.1, hdr.2.1, hdr.2.2.1, hdr.2.2.2, false, 0, [])
    | some x =>
      let so := field x 16 12
      let cores := (List.range 32).map fun c => bits so (3 * c + 2) (3 * c)
      if cores.contains 6 then none
      else some (hdr.1, hdr.2.1, hdr.2.2.1, hdr.2.2.2, true, field x 28 4, cores.map fun k => if k = 7 then 4 else k)

/-- R435 in its order: the bundle, or the BOOT_STATUS error of the first failure. -/
def verifyBundle (l : List Byte) : Except Nat Bundle :=
  let h := parseBundleHdr l
  let imgs := parseImages l h
  if !bundleShapeOk l h imgs l.length then .error 0x0003
  else match keysCheck l h with
    | some e => .error e
    | none => match imagesCheck l h 0 imgs with
      | some e => .error e
      | none =>
        if !([1, 2, 3, 4, 5, 6].all fun t => (imgs.filter fun i => i.type == t).length == 1) then .error 0x0009
        else
          let cfg := (imgs.find? fun i => i.type == 5).map fun i => slice l i.offset i.bytes
          match parseConfig (cfg.getD []) identityDigest with
          | none => .error 0x000A
          | some (cap, st, rate, wh, sec, dis, so) =>
            .ok { bytes := l.length, label := h.label, images := imgs, capW := cap, coreSelftest := st, rateLog2 := rate
                  digest := digest128 (l.take 256 ++ slice l h.keyOff (5376 * h.keys) ++ slice l h.imgOff (64 * h.images))
                  withhold := wh, sectionApplied := sec, clusterDisable := dis, storeOnly := so }

def execBundleVerify (s : State) : Host.Outcome State Fault Refusal :=
  match s.boot.loadPort with
  | none => .next s
  | some q =>
    if s.boot.stage ≠ 4 then .next s
    else match verifyBundle (s.readMem (dieStoreAddr s.boot.stagingDie) (s.bootPort q).bundleBytes.toNat) with
      | .error e => .next (s.endLoad e)
      | .ok b =>
        let s := s.modBootPort q fun x => { x with busy := false }
        .next ((s.modBoot fun x => { x with bundle := some b, loaded := true, fwRunning := true }).setStage 5)

/-! ### Stages 6 to 9 -/

/-- Power-management firmware runs and sets the nominal targets. Ceilings, temperatures and droop runs are the islands'
own and go on (R42). -/
def execPowerFirmwareStart (s : State) : Host.Outcome State Fault Refusal :=
  if s.boot.stage = 5 then
    .next ((({ s with isles := tmap (fun i (x : Isle) => { x with targetMhz := nominalMhz i }) s.isles }).modPower
      fun p => { p with lastHour := s.clock }).setStage 6)
  else .next s

/-- Copy the bytes of a range to another place; the two do not overlap. -/
def State.copyMem (s : State) (src dst n : Nat) : State :=
  let part := s.mem.cells.filter fun c => decide (src ≤ c.1 ∧ c.1 < src + n)
  let s := s.zeroMem dst n
  s.modMem fun m => { m with cells := part.foldl (fun cs c => cellPut cs (dst + (c.1 - src)) c.2) m.cells }

/-- The state of stage 3 that codes 0x000C and 0x000D return to (R442): every firmware core but the boot ROM halted. -/
def State.backToStage3 (s : State) (e : Nat) : State :=
  let q := s.boot.loadPort.getD 0
  let s := ({ s.moduleReset with
    power := s.power, ports := s.ports
    time := { localNs := s.time.localNs, elapsed := s.clock }
    boot := { s.boot with
      fwRunning := false, standbyReady := false, loaded := false, loadPort := none, bundle := none, ccRunning := []
      coreDown := [], lostRoles := [], mbox := [] } }).setStage 3
  setBootError s q e

/-- Where the verified images are kept: the firmware region of the staging die (R428, R439; log 11). -/
def imageStore (d : Nat) : Nat := gibAt d 1

/-- MEMORY_TRAINED: stacks that failed are lost (R421); without any stack of the staging die the start fails. -/
def execMemoryTrained (failed : BitVec 32) (s : State) : Host.Outcome State Fault Refusal :=
  if s.boot.stage ≠ 6 then .next s
  else
    let d := s.boot.stagingDie
    let lost := maskBits 32 failed.toNat
    if (List.range 4).all fun i => lost.contains (4 * d + i) then .next (s.backToStage3 0x000C)
    else
      let n := match s.boot.bundle with
        | some b => b.bytes
        | none => 0
      let s := (s.copyMem (dieStoreAddr d) (imageStore d) n).zeroMem (dieStoreAddr d) 0x2000000
      .next ((s.modRoute fun r => { r with lostStacks := lost }).setStage 7)

/-- The store-only and checker cores of a cluster (R14, R15). -/
def dutyOf (storeOnly : Nat) : Nat × Nat := (storeOnly, if storeOnly = 5 then 4 else 5)

/-- Put one cluster in service with its duties; `bad` are its cores that failed the self-test of R438. -/
def State.setDuties (s : State) (b : Bundle) (c : Nat) (bad : List Nat) : State :=
  let named := b.sectionApplied
  let so := if named then b.storeOnly.getD c 4 else bad.head?.getD 4
  let extra := bad.filter fun j => j != so
  let (st, ch) := dutyOf so
  let stand := extra.find? fun j => j != ch
  let s := s.modCluster c fun _ => {
    inService := !b.clusterDisable.testBit c, disabled := b.clusterDisable.testBit c
    storeOnly := st, checker := ch, rateLog2 := b.rateLog2
    standin := if extra.contains ch then none else stand
    failedCore := stand }
  forEach extra (fun s j => s.modCore (6 * c + j) fun k => { k with
    retired := true, unmapped := j != ch && (extra.contains ch || decide (some j ≠ stand)) }) s

/-- The retirement list applied at start (R226, R228): pages in state 1 or 2, and soft-repaired pages that had been
retired for an uncorrectable error, are retired. -/
def startRetired (l : List RetRec) : List Nat :=
  (l.filter fun r => r.state == 1 || r.state == 2 || (r.state == 3 && r.cause != 3)).map (·.address)

/-- CONFIG_APPLY: the configuration (R437, R438), the retirement list and soft repairs, and the remaining firmware
cores. The failing cores matter only when a self-test ran. -/
def execConfigApply (failedCores : List (Fin 192)) (s : State) : Host.Outcome State Fault Refusal :=
  match s.boot.bundle with
  | none => .next s
  | some b =>
    if s.boot.stage ≠ 7 then .next s
    else
      let tested := b.coreSelftest || !b.sectionApplied
      let bad := if tested then failedCores.map (·.val) else []
      let s := forEach (List.range 32)
        (fun s c => s.setDuties b c ((List.range 6).filter fun j => bad.contains (6 * c + j))) s
      let s := s.modPower fun p => { p with capW := b.capW, cfgCapW := b.capW, windowMs := 1000 }
      -- a page marked to retire on release retires: no pavilion holds it any longer
      let s := s.modFlash fun (f : Flash) => { f with
        retire := f.retire.map fun (r : RetRec) => if r.state = 2 then { r with state := 1 } else r }
      let s := s.modMem fun m => { m with
        retired := startRetired s.flash.retire
        softRepairs := m.softRepairs + (s.flash.retire.filter fun r => r.state == 3).length }
      let both := (lookupHub s.boot.hubTested 0).getD false && (lookupHub s.boot.hubTested 1).getD false
      let idOk := (lookupHub s.boot.identity (1 - s.boot.leadHub)).getD false
      .next ((s.modBoot fun x => { x with
        standbyReady := both && idOk
        ccRunning := (List.range 32).filter fun c => !b.clusterDisable.testBit c }).setStage 8)

/-- MODULE_READY: every axis has passed its loopback self-test; host loss is counted from here. -/
def execModuleReady (s : State) : Host.Outcome State Fault Refusal :=
  if s.boot.stage = 8 ∧ (List.range 3).all fun a => (s.axis a).loopAt.isSome then
    .next ((s.modBoot fun b => { b with stage9At := s.now, stage9Local := s.clock, readyLocal := s.clock
                                        loadPort := none }).setStage 9)
  else .next s

def execStartTimeout (s : State) : Host.Outcome State Fault Refusal :=
  if 5 ≤ s.boot.stage ∧ s.boot.stage < 9 ∧ s.boot.loadAt + 90000000000 ≤ s.clock then
    .next (s.backToStage3 0x000D)
  else .next s

/-- PORT_CONFIG_READY (R457, R440): the port answers configuration requests once PWR_GOOD is asserted; with no lead
hub it stays invisible (R31). -/
def execPortConfigReady (port : Fin 2) (s : State) : Host.Outcome State Fault Refusal :=
  if s.power.pwrGood && decide (2 ≤ s.boot.stage) then .next (s.modPort port.val fun p => { p with cfgReady := true })
  else .next s

end Sys2Proof.Machine
end

