-- ==== Sys2Proof/Machine/Thermal.lean ====
section
/-! DEFINITION. Clock islands (R39 to R43, R52), power budgets and caps (R476 to R478), telemetry (R479, R480),
thermal and coolant conditions (R481 to R483, R489), the thermal history (R497) and SMBus (R487). -/

namespace Sys2Proof.Machine

/-! ### Islands -/

/-- The running frequency of R39: the lowest of target, thermal ceiling and power-cap ceiling. -/
def Isle.lowest (x : Isle) : Nat := min (16 * x.targetMhz) (min x.therm16 x.cap16)

/-- A new target from the power-management core, within the operating range (R39, R43). -/
def execIslandTargetSet (i : Fin 332) (mhz : Nat) (s : State) : Host.Outcome State Fault Refusal :=
  let r := rangeMhz i.val
  if s.roleUp 1 && decide (r.1 ≤ mhz ∧ mhz ≤ r.2) then .next (s.modIsle i.val fun x => { x with targetMhz := mhz })
  else .next s

/-- FREQUENCY_CHANGE: at a cycle boundary the island moves to the lowest of the three values. -/
def execFrequencyChange (i : Fin 332) (s : State) : Host.Outcome State Fault Refusal :=
  .next (s.modIsle i.val fun x => { x with run16 := x.lowest })

def State.unitTemp (s : State) (u : Nat) : UnitTemp := tget s.power.units u {}
def State.modUnitTemp (s : State) (u : Nat) (f : UnitTemp → UnitTemp) : State :=
  s.modPower fun p => { p with units := tset p.units u (f (tget p.units u {})) }

/-- DROOP_DETECT: a run of lengthened periods begins or goes on; each run is one droop event (R40). -/
def execDroopDetect (i : Fin 332) (cycles : Nat) (s : State) : Host.Outcome State Fault Refusal :=
  let first := b2n (!(s.isle i.val).drooping)
  let s := (s.count (ctrId i.val 3 0) first).count (ctrId i.val 3 1) cycles
  let s := s.modUnitTemp (isleUnit i.val) fun t => { t with droops := sat32 (t.droops + first) }
  let s := s.modPower fun p => { p with hourDroops := sat32 (p.hourDroops + first) }
  .next (s.modIsle i.val fun x => { x with drooping := true, lastDroop := some s.clock })

def execDroopEnd (i : Fin 332) (goodCycles : Nat) (s : State) : Host.Outcome State Fault Refusal :=
  if 16 ≤ goodCycles then .next (s.modIsle i.val fun x => { x with drooping := false }) else .next s

/-! ### Temperatures and THERM_ALERT_N (R41, R481, R482) -/

/-- A measured junction temperature: the island's word and the extremes of its die or hub (R480, R497). -/
def State.setTemp (s : State) (i t : Nat) : State :=
  (s.modIsle i fun x => { x with tempC := t }).modUnitTemp (isleUnit i) fun u => { u with
    low := min u.low t, high := max u.high t, highAt := if u.high < t then s.now else u.highAt
    hourLow := min u.hourLow t, hourHigh := max u.hourHigh t }

/-- THERM_ALERT_N: asserted and released with the two limits of R482. -/
def State.updateAlert (s : State) : State :=
  let p := s.power
  if s.isles.any (fun e => decide (100 ≤ e.2.tempC)) || decide (400 < p.inletDeciC) || !p.shut.isEmpty then
    s.modPower fun p => { p with alert := true }
  else if s.isles.all (fun e => decide (e.2.tempC < 97)) && decide (p.inletDeciC < 395) then
    s.modPower fun p => { p with alert := false }
  else s

/-- EV_THERMAL when a die or hub comes under a thermal ceiling, or is free of it again (R489). -/
def State.updateLimited (s : State) (u t : Nat) : State :=
  let lim := s.isles.any fun e => isleUnit e.1 == u && decide (e.2.therm16 < 16 * e.2.targetMhz)
  if lim = (s.unitTemp u).limited then s
  else (s.modUnitTemp u fun x => { x with limited := lim }).postModule 0x0A02 1 0xFFFF (pack [(1, u), (1, b2n lim), (1, t)])

/-- Whether a step of a ceiling may follow the last step of either direction after the given time; the first step
waits for nothing (log 40). -/
def Isle.stepDue (x : Isle) (now gap : Nat) : Bool := match x.lastThermStep with
  | none => true
  | some t => decide (t + gap ≤ now)

/-- At 100 °C one sixteenth of nominal every 50 µs, down to the floor (R41). -/
def execThermalCeilingLower (i : Fin 332) (tempC : Nat) (s : State) : Host.Outcome State Fault Refusal :=
  let s := (s.setTemp i.val tempC).updateAlert
  if 100 ≤ tempC ∧ (s.isle i.val).stepDue s.clock 50000 then
    .next ((s.modIsle i.val fun x => { x with
      therm16 := max (16 * floorMhz i.val) (x.therm16 - nominalMhz i.val)
      lastThermStep := some s.clock }).updateLimited (isleUnit i.val) tempC)
  else .next s

/-- Below 97 °C the same step every 200 µs, until the ceiling no longer limits (R41). -/
def execThermalCeilingRaise (i : Fin 332) (tempC : Nat) (s : State) : Host.Outcome State Fault Refusal :=
  let s := (s.setTemp i.val tempC).updateAlert
  let x := s.isle i.val
  if tempC < 97 ∧ x.therm16 < 16 * x.targetMhz ∧ x.stepDue s.clock 200000 then
    .next ((s.modIsle i.val fun x => { x with
      therm16 := x.therm16 + nominalMhz i.val, lastThermStep := some s.clock }).updateLimited (isleUnit i.val) tempC)
  else .next s

/-- HBM3E stacks (R481): above 95 °C doubled refresh, above 105 °C no new accesses. -/
def execHbmOvertemp (hs : Fin 32) (tempC : Nat) (s : State) : Host.Outcome State Fault Refusal :=
  .next (s.modPower fun p => { p with
    hbmHot := if 95 < tempC then addNew p.hbmHot hs.val else p.hbmHot
    hbmStopped := if 105 < tempC then addNew p.hbmStopped hs.val else p.hbmStopped })

def execHbmTemperatureFall (hs : Fin 32) (tempC : Nat) (s : State) : Host.Outcome State Fault Refusal :=
  .next (s.modPower fun p => { p with
    hbmHot := if tempC < 95 then p.hbmHot.filter (· != hs.val) else p.hbmHot
    hbmStopped := if tempC < 100 then p.hbmStopped.filter (· != hs.val) else p.hbmStopped })

/-! ### Power (R476 to R478) -/

/-- Input power: the draw outside the die stacks and the draw of the dies, as last measured (log 5). -/
def State.inputPower (s : State) : Nat :=
  s.power.otherDraw + sumNat ((List.range 8).map fun d => (s.unitTemp d).draw)

/-- EV_POWER_CAP (R489). -/
def State.capEvent (s : State) (reason : Nat) : State :=
  s.postModule 0x0A01 1 0xFFFF (pack [(1, reason), (1, 0), (2, s.power.capW), (2, s.power.meanW)])

/-- POWER_BUDGET_DIVISION: the budgets of R476 from the cap and the measured draw. -/
def execPowerBudgetDivision (otherDraw : Nat) (s : State) : Host.Outcome State Fault Refusal :=
  if !s.roleUp 1 then .next s
  else
    let share := (s.power.capW - otherDraw) / 8
    let miss := decide (share < 150)
    let s := s.modPower fun p => { p with otherDraw := otherDraw, dieBudget := max 150 share, hubBudget := 230 }
    let w := s.inputPower
    let was := s.power.capMissed
    let s := s.modPower fun p => { p with
      meanW := w, peakW := max w p.meanW
      inputDeciA := w * 10000 / max 1 p.inputMv, capMissed := miss }
    .next (if miss && !was then s.capEvent 2 else s)

/-- Islands whose power-cap ceilings a monitor sets: core islands and cluster fabrics of a die (R476), the hub's own
island. -/
def monitorIsles (u : Nat) : List Nat :=
  if u < 8 then (List.range 24).map (fun j => 24 * u + j) ++ (List.range 4).map (fun k => 192 + 4 * u + k) else [232 + (u - 8)]

def execPowerMonitorSample (u : Fin 10) (draw : Nat) (s : State) : Host.Outcome State Fault Refusal :=
  let budget := if u.val < 8 then s.power.dieBudget else s.power.hubBudget
  let t := s.unitTemp u.val
  let s := s.modUnitTemp u.val fun t => { t with draw := draw }
  if budget < draw then
    let s := s.modUnitTemp u.val fun t => { t with belowSince := none }
    .next (forEach (monitorIsles u.val) (fun s i => s.modIsle i fun x => { x with
      cap16 := max (16 * floorMhz i) (x.cap16 - nominalMhz i) }) s)
  else if 100 * draw ≤ 95 * budget then
    match t.belowSince with
    | none => .next (s.modUnitTemp u.val fun t => { t with belowSince := some s.clock })
    | some b =>
      if b + 1000000 ≤ s.clock then
        .next (forEach (monitorIsles u.val) (fun s i =>
          if (s.isle i).cap16 < 16 * (rangeMhz i).2 then s.modIsle i fun x => { x with cap16 := x.cap16 + nominalMhz i }
          else s) s)
      else .next s
  else .next (s.modUnitTemp u.val fun t => { t with belowSince := none })

/-- Set a cap, post EV_POWER_CAP and complete the command (R477). -/
def State.applyCap (s : State) (c : Cmd) (capW windowMs : Nat) : State :=
  let prev := s.power.capW
  let s := (s.modPower fun p => { p with capW := capW, windowMs := windowMs }).capEvent 1
  s.finish c (res [(2, prev), (2, capW), (4, windowMs), (4, s.power.meanW), (4, s.power.peakW)])

def bodyPowerCap (s : State) (c : Cmd) : Chk State := do
  let cap := bits (c.word 0) 15 0
  let win := if c.expert then bits (c.word 0) 31 16 else 0
  need (decide (cap = 0 ∨ (3000 ≤ cap ∧ cap ≤ 7200))) (c.badParam 0)
  need (decide (win = 0 ∨ (100 ≤ win ∧ win ≤ 10000))) (c.badParam 0)
  let at_ := if c.expert then c.word 1 else 0
  need (at_ == 0 || s.timeOn) (c.bad 0x01F0 1 1)
  let cap := if cap = 0 then s.power.cfgCapW else cap
  let win := if win = 0 then 1000 else win
  if !s.roleUp 1 then .ok (s.abort c 0x0306 0xFFFF none)
  else if s.now < at_ then
    .ok ((s.started c).modPower fun p => { p with
      pendingCaps := p.pendingCaps ++ [{ cmd := c.serial, capW := cap, windowMs := win, atTime := at_ }] })
  else .ok (s.applyCap c cap win)

def execPowerCap (id : Nat) (s : State) : Host.Outcome State Fault Refusal := .next (s.startCmd id 0x0A01 bodyPowerCap)

/-- CAP_TAKE_EFFECT: building time has reached the AT_TIME of a POWER_CAP. -/
def execCapTakeEffect (s : State) : Host.Outcome State Fault Refusal :=
  match s.power.pendingCaps.find? fun p => decide (p.atTime ≤ s.now) with
  | none => .next s
  | some p =>
    let s := s.modPower fun x => { x with pendingCaps := x.pendingCaps.filter fun q => q.cmd != p.cmd }
    match s.cmd p.cmd with
    | none => .next s
    | some c => .next (s.applyCap c p.capW p.windowMs)

/-! ### Coolant (R479, R483, R489) -/

def State.coolantEvent (s : State) (reason : Nat) : State :=
  s.postModule 0x0A04 1 0xFFFF (pack [(1, reason), (1, 0), (2, s.power.inletDeciC), (2, s.power.flow)])

/-- A flow estimate in hundredths of a litre per minute, 0xFFFF when it is not reported; the outlet temperature is
the one that it stands for under R479. Below 7 L/min for 10 s posts EV_COOLANT once. -/
def execCoolantLowFlow (flow : Nat) (s : State) : Host.Outcome State Fault Refusal :=
  let s := s.modPower fun p => { p with
    flow := flow
    outletDeciC := if flow = 0xFFFF ∨ flow = 0 then p.inletDeciC else p.inletDeciC + p.meanW * 60000 / (3744 * flow) }
  if 700 ≤ flow then .next (s.modPower fun p => { p with lowFlowSince := none, lowFlowPosted := false })
  else match s.power.lowFlowSince with
    | none => .next (s.modPower fun p => { p with lowFlowSince := some s.clock })
    | some t =>
      if s.power.lowFlowPosted || decide (s.clock < t + 10000000000) then .next s
      else .next ((s.modPower fun p => { p with lowFlowPosted := true }).coolantEvent 1)

/-- Inlet above 40 °C, below 20 °C, or back in range (R482, R489). -/
def execCoolantInletTemperature (deciC : Nat) (s : State) : Host.Outcome State Fault Refusal :=
  let p := s.power
  let high := decide (400 < deciC) || (p.inletHigh && decide (395 ≤ deciC))
  let low := decide (deciC < 200)
  let s := (s.modPower fun p => { p with inletDeciC := deciC, inletHigh := high, inletLow := low }).updateAlert
  let s := if high && !p.inletHigh then s.coolantEvent 2 else s
  .next (if low && !p.inletLow then s.coolantEvent 3 else s)

/-- One entry of the thermal history at the end of each hour after stage 6, in a ring of 168 (R497). -/
def execThermalHistoryWrite (meanW peakW : Nat) (s : State) : Host.Outcome State Fault Refusal :=
  if !s.roleUp 1 || decide (s.clock < s.power.lastHour + 3600000000000) then .next s
  else
    let e : ThermEntry := {
      endTime := s.now, meanW := meanW, peakW := peakW, droop := s.power.hourDroops
      temps := (List.range 10).map fun u => ((s.unitTemp u).hourLow, (s.unitTemp u).hourHigh) }
    let full := decide (168 ≤ s.power.history.length)
    let units := tmap (fun _ (t : UnitTemp) => { t with hourLow := 255, hourHigh := 0 }) s.power.units
    .next (s.modPower fun p => { p with
      history := (if full then p.history.drop 1 else p.history) ++ [e]
      historyLost := p.historyLost + b2n full, lastHour := s.clock, hourDroops := 0, units := units })

/-- A thermal history entry as its 64 bytes (R497). -/
def thermBytes (e : ThermEntry) : List Byte :=
  leBytes 28 0 ++ pack [(4, e.droop), (2, e.peakW), (2, e.meanW)]
    ++ e.temps.flatMap (fun t => pack [(1, t.1), (1, t.2)]) ++ leBytes 8 e.endTime

/-! ### THERMAL_STATUS (R52, R480) -/

/-- The island state word of R52; RUN_MHZ is rounded down to whole MHz (log 40). HELD: power-management firmware has
started (stage 6) and its core does not run, so that a target is held. -/
def State.isleWord (s : State) (i : Nat) : Nat :=
  let x := s.isle i
  let held := decide (6 ≤ s.boot.stage) && !s.roleUp 1
  let recent := match x.lastDroop with
    | none => false
    | some t => decide (s.clock ≤ t + 1000000)
  i * 2 ^ 55 + x.targetMhz * 2 ^ 43 + (x.run16 / 16) * 2 ^ 31 + b2n x.thermal * 2 ^ 30 + b2n x.capped * 2 ^ 29
    + b2n recent * 2 ^ 28 + b2n held * 2 ^ 27 + (x.tempC % 256) * 2 ^ 19

/-- Whether an island belongs to a pavilion: its cores, cluster fabrics and control cores, and the networks of the
dies on which it holds clusters (R70). -/
def Pav.hasIsle (v : Pav) (i : Nat) : Bool :=
  if i < 192 then v.clusters.contains (i / 6)
  else if i < 224 then v.clusters.contains (i - 192)
  else if i < 232 then v.clusters.any fun c => c / 4 == i - 224
  else if 300 ≤ i then v.clusters.contains (i - 300) else false

/-- The hottest island: its temperature and the die or hub it lies in. -/
def State.hottest (s : State) : Nat × Nat :=
  s.isles.foldl (fun b e => if b.1 < e.2.tempC then (e.2.tempC, isleUnit e.1) else b) (0, 0)

/-- The 32-byte record of a die or hub (R480). -/
def State.unitRecord (s : State) (u : Nat) : List Byte :=
  let t := s.unitTemp u
  let nowMax := s.isles.foldl (fun b e => if isleUnit e.1 = u then max b e.2.tempC else b) 0
  let lim := s.isles.any fun e => isleUnit e.1 == u && e.2.thermal
  fit 32 (pack [(2, t.draw), (2, if u < 8 then s.power.dieBudget else s.power.hubBudget), (1, nowMax), (1, t.low), (1, t.high),
    (1, if s.power.shut.contains u then 2 else if lim then 1 else 0), (8, t.highAt), (4, t.droops)])

def bodyThermalStatus (s : State) (c : Cmd) : Chk State :=
  if c.expert then do
    let kind := bits (c.word 1) 1 0
    need (decide (kind < 2)) (c.badParam 1)
    let mine := fun (f : Pav → Bool) => c.fn == 0 || (s.pav (c.fn - 1)).any f
    let l := if kind = 0 then
        (List.range 332).flatMap fun i => leBytes 8 (if mine (·.hasIsle i) then s.isleWord i else 0)
      else (List.range 10).flatMap fun u =>
        if u ≥ 8 || mine (fun v => v.clusters.any fun k => k / 4 == u) then s.unitRecord u else leBytes 32 0
    let s ← s.toBuffer c 0 (c.word 0) l 64
    .ok (s.finish c (res [(4, l.length)]))
  else
    let p := s.power
    .ok (s.finish c (res [(2, p.inputMv), (2, p.inputDeciA), (2, p.meanW), (2, p.peakW), (2, p.capW), (1, s.hottest.1),
      (1, s.hottest.2), (2, p.inletDeciC), (2, p.outletDeciC), (2, p.flow),
      (2, (s.isles.filter fun e => e.2.thermal).length), (2, (s.isles.filter fun e => e.2.capped).length),
      (1, bitsMask (p.shut.filter (· < 8))), (1, b2n (s.roleUp 1) + 2 * b2n p.alert), (8, s.now)]))

def execThermalStatus (id : Nat) (s : State) : Host.Outcome State Fault Refusal :=
  .next (s.startCmd id 0x0A02 bodyThermalStatus)

/-! ### SMBus (R487) -/

/-- The read-word commands; none for a command that is not acknowledged. -/
def State.smbusWord (s : State) (cmd : Nat) : Option Nat :=
  let p := s.power
  match cmd with
  | 1 => some p.inputMv
  | 2 => some p.inputDeciA
  | 3 => some p.meanW
  | 4 => some (s.hottest.1 % 256 + 256 * b2n p.alert)
  | 5 => some p.inletDeciC
  | 6 => some p.outletDeciC
  | 7 => some (s.boot.stage + 256 * s.boot.leadHub + 512 * b2n s.boot.fwRunning)
  | 8 => some p.capW
  | 9 => some (bitsMask (p.shut.filter (· < 8)))
  | _ => none

def execSmbusRead (cmd : Byte) (s : State) : Host.Outcome State Fault Refusal :=
  .next (s.emit (.smbus (if 2 ≤ s.boot.stage then s.smbusWord cmd.toNat else none)))

end Sys2Proof.Machine
end

