-- ==== Sys2Proof/Machine/Counter.lean ====
section
/-! DEFINITION. Raw counters and totals (R491 to R495, R498) and the reading of logs (R496, R499). -/

namespace Sys2Proof.Machine

/-! ### Folds (R491 to R493) -/

/-- One fold of a counter. -/
def Ctr.fold (c : Ctr) (now clk : Nat) : Ctr :=
  { c with total := c.total + BitVec.ofNat 64 (c.raw - c.last).toNat, last := c.raw, foldTime := now, foldLocal := clk }

def ctrBlock (id : Nat) : Nat := id / 256 % 256
def ctrUnit (id : Nat) : Nat := id / 65536

/-- Class B: mover bytes, vector elements written, collective bytes by TYPE (R492). -/
def classB (id : Nat) : Bool :=
  let i := id % 256
  match ctrBlock id with
  | 2 => i == 1
  | 4 => decide (i < 2)
  | 6 => decide (i < 18)
  | _ => false

/-- The cluster of a PLACE_ID inside a cluster. -/
def placeClusterOf (u : Nat) : Option Nat :=
  if u.testBit 15 || decide (u / 128 % 8 = 7) then none else some (4 * (u / 4096 % 8) + u / 1024 % 4)
/-- The cluster of an island (R51). -/
def isleCluster (i : Nat) : Option Nat :=
  if i < 192 then some (i / 6) else if i < 224 then some (i - 192) else if 300 ≤ i ∧ i < 332 then some (i - 300) else none

/-- The folding core: the cluster control core of a cluster for its cores, engines, movers and islands, else 32, the
lead scheduler core. -/
def ctrFolder (id : Nat) : Nat :=
  match ctrBlock id with
  | 3 => (isleCluster (ctrUnit id)).getD 32
  | b => if b ≤ 4 then (placeClusterOf (ctrUnit id)).getD 32 else 32

def State.folderUp (s : State) (f : Nat) : Bool := if f = 32 then s.roleUp 2 else s.boot.ccRunning.contains f

/-- Building time and oscillator time of a counter's last fold. -/
def State.lastFold (s : State) (id : Nat) : Nat × Nat :=
  let c := tget s.ctrs id {}
  let g := tget s.folds (2 * ctrFolder id + b2n (classB id)) (0, 0)
  (max c.foldTime g.1, max c.foldLocal g.2)

/-- The scheduled folds of a class: every folding core that runs and whose interval has passed. -/
def State.foldClass (s : State) (b : Bool) (interval : Nat) : State :=
  let clk := s.clock
  let due := (List.range 33).filter fun f =>
    s.folderUp f && decide ((tget s.folds (2 * f + b2n b) (0, 0)).2 + interval ≤ clk)
  let hit := fun (id : Nat) => classB id == b && due.contains (ctrFolder id)
  { s with
    ctrs := tmap (fun id c => if hit id then c.fold s.now clk else c) s.ctrs
    folds := due.foldl (fun t f => tset t (2 * f + b2n b) (s.now, clk)) s.folds }

/-- COUNTER_FOLD_A: every 600 s ± 1 s. -/
def execCounterFoldA (s : State) : Host.Outcome State Fault Refusal := .next (s.foldClass false 599000000000)
/-- COUNTER_FOLD_B: every 10 s ± 0.1 s. -/
def execCounterFoldB (s : State) : Host.Outcome State Fault Refusal := .next (s.foldClass true 9900000000)

/-- Fold the raw counters of a unit before they return to zero (R493). -/
def State.resetCounters (s : State) (hit : Nat → Bool) : State :=
  { s with ctrs := tmap (fun id c =>
      if hit id then { c.fold s.now s.clock with raw := 0, last := 0 } else c) s.ctrs }

/-- Counters of a core: its accounting, engines, mover, store and island. -/
def ctrOfCore (p id : Nat) : Bool :=
  let u := ctrUnit id
  let b := ctrBlock id
  (b == 3 && u == p) || ([0, 1, 2, 4, 5].contains b && (List.range 6).any fun k => u == placeCore p k)
/-- Counters of a cluster's units. -/
def ctrOfCluster (c id : Nat) : Bool :=
  let b := ctrBlock id
  if b = 3 then isleCluster (ctrUnit id) == some c
  else ([0, 1, 2, 4, 5].contains b) && placeClusterOf (ctrUnit id) == some c

/-! ### The complete table (R495) -/

/-- A unit with counters: its number, BLOCK, number of counters, and its TARGET value where it has one (R69). -/
structure CtrUnit where
  unit : Nat
  block : Nat
  count : Nat
  target : Option Nat := none

/-- TARGET of the unit that an island belongs to. -/
def isleTarget (i : Nat) : Option Nat :=
  if i < 192 then some (0x3000 + i) else if i < 224 then some (0x2000 + (i - 192))
  else if i < 232 then some (0x9000 + (i - 224)) else if i < 234 then none
  else if i < 240 then some (0x5000 + (i - 234)) else if i < 294 then none
  else if i < 300 then some (0xB000 + (i - 294)) else some (0xB010 + (i - 300))

def coreUnits (p : Nat) : List CtrUnit :=
  [⟨placeCore p 5, 0, 13, some (0x3000 + p)⟩, ⟨placeCore p 0, 1, 6, some (0x4000 + 2 * p)⟩,
   ⟨placeCore p 1, 1, 6, some (0x4000 + 2 * p + 1)⟩, ⟨placeCore p 2, 2, 5, some (0x4000 + 384 + p)⟩,
   ⟨placeCore p 3, 4, 9, some (0x8000 + p)⟩, ⟨placeCore p 4, 5, 5, some (0x3000 + p)⟩]
def ctrUnits : List CtrUnit :=
  (List.range 192).flatMap coreUnits
    ++ (List.range 332).map (fun i => ⟨i, 3, 2, isleTarget i⟩)
    ++ (List.range 32).map (fun c => ⟨placeCluster c 0, 5, 5, some (0x2000 + c)⟩)
    ++ (List.range 8).map (fun d => ⟨placeDie d 0 0, 5, 5, none⟩)
    ++ (List.range 32).map (fun h => ⟨placeDie (h / 4) 3 (h % 4), 5, 5, some (0x6000 + h)⟩)
    ++ (List.range 24).map (fun l => ⟨placeHub (l / 12) 5 (l % 12), 5, 5, some (0x7000 + l)⟩)
    ++ (List.range 2).map (fun h => ⟨placeHub h 6 0, 6, 26, some 0xA000⟩)
    ++ (List.range 6).map (fun l => ⟨placeLink l, 7, 16, some (0x5000 + l)⟩)
    ++ (List.range 8).map (fun p => ⟨p, 8, 5, some (0x1000 + p)⟩)
    ++ [⟨0xFFFF, 9, 6, none⟩]

def ctrExists (id : Nat) : Bool :=
  ctrUnits.any fun u => u.unit == ctrUnit id && u.block == ctrBlock id && decide (id % 256 < u.count)

/-- EV_COUNTER_LOST: longer than the LOST interval without a fold (R492). -/
def execEvCounterLost (counter : Nat) (s : State) : Host.Outcome State Fault Refusal :=
  let c := tget s.ctrs counter {}
  let limit := if classB counter then 200000000000 else 86400000000000
  if !ctrExists counter || c.lost || decide (s.clock ≤ (s.lastFold counter).2 + limit) then .next s
  else
    .next ({ s with ctrs := tset s.ctrs counter { c with lost := true } }.postModule 0x0D02 1 0xFFFF (pack [(4, counter)]))

/-! ### COUNTERS_READ (R498) -/

/-- Counters of cycles, which the model does not follow (log 12): the accounting of R261 but for the throttles (R263), a
store-only core, whose counters stay at zero, and the CHECKER_DUTY of an active core, which never counts (R264); and those of
R156, R216, R246 and R374. -/
def State.timed (s : State) (id : Nat) : Bool :=
  let i := id % 256
  match ctrBlock id with
  | 0 =>
    let core := fun (hit : Nat → Bool) => (List.range 192).any fun p => ctrUnit id == placeCore p 5 && hit p
    i != 8 && i != 9 && !core s.isStoreOnly && (i != 11 || !core s.isActive)
  | 1 => i == 0 || i == 3
  | 2 => i == 0 || i == 4
  | 4 => i == 8
  | 6 => i == 19
  | _ => false

/-- TOTAL and RAW of a counter at its last fold: a counter of cycles holds free values once time has passed (log 12). -/
def State.ctrValue (s : State) (id : Nat) : Nat × Nat :=
  let c := tget s.ctrs id {}
  let t := (s.lastFold id).2
  if s.timed id && decide (0 < t) then
    (Config.cycles id t s.freeCtr 0 % 2 ^ 64, Config.cycles id t s.freeCtr 1 % 2 ^ 48)
  else (c.total.toNat, c.last.toNat)

/-- The counter record. -/
def State.ctrRecord (s : State) (id : Nat) : List Byte :=
  let c := tget s.ctrs id {}
  let v := s.ctrValue id
  leBytes 32 (v.1 * 2 ^ 192 + (s.lastFold id).1 * 2 ^ 128 + v.2 * 2 ^ 80 + b2n c.lost * 2 ^ 32 + id)

/-- Whether the unit of one TARGET value lies in the unit of another. -/
def targetIn (outer inner : Nat) : Bool :=
  let i := inner % 4096
  let o := outer % 4096
  outer == inner || match outer / 4096, inner / 4096 with
    | 2, 3 => i / 6 == o
    | 2, 4 => engineCore i / 6 == o
    | 2, 8 => i / 6 == o
    | 2, 0xB => decide (16 ≤ i) && i - 16 == o
    | 3, 4 => engineCore i == o
    | 3, 8 => i == o
    | _, _ => false

/-- COUNTER_IDs in scope, ascending. -/
def State.ctrScope (s : State) (c : Cmd) (mask : Nat) : List Nat :=
  let v := s.pav c.pavilion
  let held := fun (t : Nat) => v.any fun v => v.hasTarget c.pavilion t
  let us := ctrUnits.filter fun u => (mask == 0 || mask.testBit u.block) &&
    (if c.target = 0 then c.pavilion == 0xF || u.target.any held
     else u.target.any fun t => (if c.target = pavTarget c.pavilion then held t else targetIn c.target t))
  sortBy (fun a b => decide (a ≤ b)) (us.flatMap fun u => (List.range u.count).map fun k => ctrId u.unit u.block k)

def bodyCountersRead (s : State) (c : Cmd) : Chk State := do
  let w := c.word
  let mask := if c.expert then bits (w 1) 15 0 else 0
  let fresh := !c.expert || bitAt (w 1) 16
  let limit := if c.expert then bits (w 2) 31 0 else 0
  let all := s.ctrScope c mask
  let ids := if limit = 0 then all else all.take limit
  s.checkAddr c 0 (w 0) (max 1 (32 * ids.length)) 32
  let clk := s.clock
  let s := if fresh then { s with ctrs := ids.foldl (fun t id => tset t id ((tget t id {}).fold s.now clk)) s.ctrs } else s
  let t ← s.toBuffer c 0 (w 0) (ids.flatMap s.ctrRecord) 32
  .ok (t.finish c (pack [(4, ids.length), (4, all.length), (8, s.now)]))

def execCountersRead (id : Nat) (s : State) : Host.Outcome State Fault Refusal :=
  .next (s.startCmd id 0x0D01 bodyCountersRead)

/-! ### LOG_READ (R496, R499) -/

/-- A log as LOG_READ sees it: the sticky entry, ring entries by write sequence, the next sequence, overwritten. -/
structure LogView where
  sticky : Option (List Byte)
  ring : List (Nat × List Byte)
  next : Nat
  lost : Nat

def EventLog.view (l : EventLog) : LogView :=
  { sticky := l.sticky.map fun x => eventBytes x.2 x.1, ring := l.ring.map fun e => (e.1, eventBytes e.2 e.1)
    next := l.next, lost := l.overwritten }

/-- Cluster of the checked engine of an evidence record. -/
def evidenceCluster (w : Nat) : Option Nat := placeClusterOf (bits w 287 272)

/-- The log that a LOG_READ names; a virtual function sees the evidence of its own clusters alone (R396). -/
def State.logView (s : State) (c : Cmd) (log : Nat) : Option LogView :=
  match log with
  | 0 => some (if c.pavilion = 0xF then s.modLog.view else (tget s.pavLogs c.pavilion {}).view)
  | 1 => (s.pav c.pavilion).map fun v =>
    { sticky := v.traps.sticky.map (leBytes 64)
      ring := sortBy (fun (a b : Nat × List Byte) => decide (a.1 ≤ b.1)) (v.traps.ring.map fun e => (e.2 / 2 ^ 448, leBytes 64 e.2))
      next := v.traps.seq + 1, lost := v.traps.overwritten }
  | 2 =>
    let mine := fun (w : Nat) => match c.own with
      | none => true
      | some p => (evidenceCluster w).any fun k => s.ownerOfCluster k == some p
    some { sticky := (s.check.stickyEvidence.filter mine).map (leBytes 64)
           ring := (s.check.evidence.filter fun e => mine e.2).map fun e => (e.1, leBytes 64 e.2)
           next := s.check.written, lost := s.check.overwritten }
  | _ =>
    let h := s.power.history
    some { sticky := none, ring := (List.range h.length).zipWith (fun i e => (s.power.historyLost + i, thermBytes e)) h
           next := s.power.historyLost + h.length, lost := s.power.historyLost }

def bodyLogRead (s : State) (c : Cmd) : Chk State := do
  let w := c.word
  let n := bits (w 1) 63 32
  need (decide (1 ≤ n)) (c.badParam 1)
  match s.logView c (bits (w 1) 1 0) with
  | none => .error { code := 0x0106, off := 0 }
  | some l =>
    let sticky := if c.expert then [] else l.sticky.toList
    let room := n - sticky.length
    let ring := if c.expert then (l.ring.filter fun e => decide (w 2 ≤ e.1)).take n else l.ring.drop (l.ring.length - room)
    let out := sticky ++ ring.map (·.2)
    s.checkAddr c 0 (w 0) (max 1 (64 * out.length)) 64
    let first := (ring.head?.map (·.1)).getD l.next
    let t ← s.toBuffer c 0 (w 0) out.flatten 64
    .ok (t.finish c (pack [(4, out.length), (4, 0), (8, first), (8, l.next), (8, l.lost)]))

def execLogRead (id : Nat) (s : State) : Host.Outcome State Fault Refusal := .next (s.startCmd id 0x0D02 bodyLogRead)

end Sys2Proof.Machine
end

