-- ==== Sys2Proof/Machine/Program.lean ====
section
/-! DEFINITION. The commands on programs (R117 to R125, R182, R257 to R260), deferred commands at a step boundary
(R84), and the operations of a running program that need no matrix engine. -/

namespace Sys2Proof.Machine

/-! ### PROGRAM_LOAD (R116 to R118, R102) -/

/-- Bytes at BIND_ADDR of tensor i: a CONSTANT whole, an INPUT or OUTPUT with the held parts alone. -/
def Image.boundBytes (g : Image) (i held : Nat) : Nat :=
  let t := g.tensor i
  let whole := tensorBytes t.format t.dims
  if t.kind = 5 ∨ t.shared then whole
  else if t.divided then held * (whole / g.sliceCount)
  else held * whole

/-- The first tensor whose BIND_ADDR lies outside permitted memory. -/
def State.badBind (s : State) (c : Cmd) (v : Pav) (g : Image) : Option Nat :=
  let held := (s.heldSlices v g).length
  (List.range g.tensors.length).find? fun i =>
    [5, 6, 7].contains (g.tensor i).kind && (s.badRange c.port c.fn (g.tensor i).bindAddr (g.boundBytes i held)).isSome

/-- Release what a handle holds: the image copy, the constants and its tensor contents. -/
def State.freeHandle (s : State) (p hd : Nat) : State :=
  match s.pav p with
  | none => s
  | some v => match tfind v.handles hd with
    | none => s
    | some h =>
      let s := forEach (h.addr :: h.constants.map (·.2.1)) (fun s a => s.freeMem p a) s
      s.modPav p fun v =>
        { v with handles := tdel v.handles hd, data := v.data.filter fun d => d.handle != hd }.dropOff fun x => x.handle == hd

/-- Allocate in HBM3E, or in LPDDR5X when there is no room. -/
def State.allocAny (s : State) (p n align use : Nat) : Option (Nat × State) :=
  match s.allocMem p 0 n align use with
  | some x => some x
  | none => s.allocMem p 1 n align use

/-- Copy every CONSTANT into the pavilion's memory. -/
def State.loadConstants (s : State) (p : Nat) (g : Image) : List Nat → Option (List (Nat × Nat × Nat) × State)
  | [] => some ([], s)
  | i :: t =>
    let n := g.boundBytes i 0
    match s.allocAny p n 4096 1 with
    | none => none
    | some (a, s) =>
      match (s.writeMem a (s.readMem (g.tensor i).bindAddr n)).loadConstants p g t with
      | none => none
      | some (l, s) => some ((i, a, n) :: l, s)

def bodyProgramLoad (s : State) (c : Cmd) : Chk State := do
  let p := c.pavilion
  let a := c.word 0
  let n := bits (c.word 1) 31 0
  need (a % 64 == 0) (c.badParam 0)
  match s.pav p with
  | none => .error { code := 0x0106, off := 0 }
  | some v =>
    let mask := if c.expert then bits (c.word 2) 63 32 else 0
    need ((maskBits 32 mask).all v.clusters.contains) (c.badParam 2)
    s.checkAddr c 0 a (max n 128) 64
    match s.badRead a (max n 128) with
    | some w => .ok (s.failMemory c w)
    | none =>
      match parseImage (s.readMem a n) n with
      | .error e => .error { code := e.code, reason := e.reason, result := pack [(4, e.off)] }
      | .ok g =>
        match s.badBind c v g with
        | some i => .error { code := 0x0180, reason := 10
                             result := pack [(4, field (s.readMem a 80) 76 4 + 64 * i + 56)] }
        | none =>
          let used := fun (h : Nat) => thas v.handles h
          let running := fun (h : Nat) => v.run.any fun r => r.handle == h
          let pick ← if c.expert then do
              let h := bits (c.word 2) 2 0
              need (!used h || bitAt (c.word 2) 8) { code := 0x0182, reason := 0 }
              need (!running h) { code := 0x0104 }
              pure h
            else match (List.range 8).find? fun h => !used h with
              | none => .error { code := 0x0182, reason := 0 }
              | some h => .ok h
          let consts := (List.range g.tensors.length).filter fun i => (g.tensor i).kind == 5
          match consts.findSome? fun i => s.badRead (g.tensor i).bindAddr (g.boundBytes i 0) with
          | some w => .ok (s.failMemory c w)
          | none =>
            let s1 := s.freeHandle p pick
            match s1.allocAny p n 4096 0 with
            | none => .error { code := 0x0184, reason := 0 }
            | some (copy, s1) =>
              match (s1.writeMem copy (s.readMem a n)).loadConstants p g consts with
              | none => .error { code := 0x0184, reason := 0 }
              | some (l, s1) =>
                let h : Handle :=
                  { image := g, addr := copy, bytes := n, clusterMask := mask, constants := l
                    mode := if g.level = 2 then 1 else 0 }
                let s1 := s1.modPav p fun v => { v with handles := tset v.handles pick h }
                .ok (s1.finish c (pack [(8, g.programId), (1, pick), (3, 0), (4, g.ops.length),
                  (8, n + sumNat (l.map fun x => x.2.2))]))

def execProgramLoad (id : Nat) (s : State) : Host.Outcome State Fault Refusal :=
  .next (s.startCmd id 0x0301 bodyProgramLoad)

def bodyProgramUnload (s : State) (c : Cmd) : Chk State := do
  let h := bits (c.word 0) 2 0
  match s.pav c.pavilion with
  | none => .error { code := 0x0106, off := 0 }
  | some v =>
    need (thas v.handles h) (c.bad 0x0183 0 0)
    need (!(v.run.any fun r => r.handle == h)) { code := 0x0104 }
    .ok ((s.freeHandle c.pavilion h).finish c [])

def execProgramUnload (id : Nat) (s : State) : Host.Outcome State Fault Refusal :=
  .next (s.startCmd id 0x0304 bodyProgramUnload)

/-! ### FORERUNNER_NUMERICS (R181 to R183) -/

def bodyForerunnerNumerics (s : State) (c : Cmd) : Chk State := do
  let hd := bits (c.word 0) 2 0
  let on := bitAt (c.word 0) 8
  match s.pav c.pavilion with
  | none => .error { code := 0x0106, off := 0 }
  | some v => match tfind v.handles hd with
    | none => .error (c.bad 0x0183 0 0)
    | some h =>
      need (!(v.run.any fun r => r.handle == hd)) { code := 0x0104, defer := true }
      need (on || h.image.level != 2) { code := 0x0190, reason := 2 }
      match (if on && h.image.level == 3 then h.image.forerunnerFault else none) with
      | some (some (i, op)) => .error { code := 0x0190, reason := 1, result := pack [(4, i), (1, b2n op)] }
      | some none =>
        -- FEATURES alone is at fault: the manual names no tensor entry or operation record (log 50)
        let x := Config.freeNat s.freeCtr
        .ok (s.bumpFree.reject c { code := 0x0190, reason := 1, result := pack [(4, x % 2 ^ 32), (1, x / 2 ^ 32 % 256)] })
      | none =>
        let m := if !on then 0 else if c.expert && bitAt (c.word 1) 0 then 2 else 1
        let s := s.modPav c.pavilion fun v => { v with handles := tset v.handles hd { h with mode := m } }
        .ok (s.finish c (pack [(1, h.mode), (1, m)]))

def execForerunnerNumerics (id : Nat) (s : State) : Host.Outcome State Fault Refusal :=
  .next (s.startCmd id 0xF001 bodyForerunnerNumerics)

/-! ### PROGRAM_RUN, STEP_RUN, PROGRAM_STOP (R119 to R124, R257 to R259, R297, R312) -/

/-- How a loaded image disagrees with a layout's map: false for its shape, true for CLASS (R307, R314). -/
def Image.mapFault (g : Image) (l : Layout) : Option Bool :=
  l.map.findSome? fun m =>
    let t := g.tensor m.tensor
    let rows := dim t.dims 1 * dim t.dims 2 * dim t.dims 3
    if t.kind ≠ 2 ∨ !t.sharded ∨ m.tensor ≥ g.tensors.length ∨ dim t.dims 0 ≠ m.cols ∨ m.pieces ≠ cdiv rows m.pieceRows then
      some false
    else if t.cls ≠ m.cls then some true else none

/-- The rejection while a sealed step is not DONE (R287): deferred while roll-forward can go on. -/
def State.sealedRej (s : State) (p : Nat) : Rej :=
  { code := 0x01C0, reason := 5, defer := (s.pav p).any fun v => v.sealing.any fun x => x.halted && !x.pending }

/-- The checks common to PROGRAM_RUN and STEP_RUN, and the new run. -/
def State.startRun (s : State) (c : Cmd) (hd ahead stages : Nat) (isStep : Bool) (mk : Run → Run) : Chk State := do
  let p := c.pavilion
  match s.pav p with
  | none => .error { code := 0x0106, off := 0 }
  | some v =>
    need (v.role != 0) (stState 1)
    match tfind v.handles hd with
    | none => .error (c.bad 0x0183 0 0)
    | some h =>
      let g := h.image
      need v.run.isNone { code := 0x0104, defer := true }
      need v.sealing.isNone (s.sealedRej p)
      need (v.reshape.state != 1 && v.reshape.state != 2) { code := 0x01D0, reason := 2, defer := true }
      if g.tensors.any (·.sharded) then
        match v.reshape.active with
        | none => .error { code := 0x01D1, reason := 9 }
        | some l =>
          need (l.sliceCount == g.sliceCount && g.mapFault l != some false) { code := 0x01D1, reason := 10 }
          need (g.mapFault l != some true) { code := 0x01C0, reason := 9 }
      if isStep then
        need ((g.op (g.ops.length - 1)).code == 0x5F) { code := 0x01B0, reason := 1 }
        need (decide (stages ≤ v.clusters.length)) (c.bad 0x01B0 1 2)
      need (s.fits p hd ahead stages) { code := 0x0184, reason := 0 }
      let r : Run := mk {
        cmd := c.serial, handle := hd, isStep := isStep, runStart := s.now, first := if isStep then h.stepPos else 0
        lastProgress := s.clock, gatherAhead := ahead, stages := stages, stepStages := stages }
      let s := (s.started c).modPav p fun v => { v.dropContents hd g with
        run := some r, capacityDue := false, handles := if isStep then v.handles else tset v.handles hd { h with stepPos := 0 } }
      .ok (s.bumpFree.stepStart p)

def bodyProgramRun (s : State) (c : Cmd) : Chk State := do
  let w := c.word
  let ms := if c.expert then bits (w 1) 63 32 else 0
  need (ms == 0 || decide (100 ≤ ms ∧ ms ≤ 600000)) (c.badParam 1)
  s.startRun c (bits (w 0) 2 0) 0 1 false fun r => { r with
    iterations := max 1 (bits (w 0) 63 32), progressMs := if ms = 0 then 10000 else ms
    notifySteps := c.expert && bitAt (w 1) 9, nanRunOn := c.expert && bitAt (w 1) 8 }

def execProgramRun (id : Nat) (s : State) : Host.Outcome State Fault Refusal :=
  .next (s.startCmd id 0x0302 bodyProgramRun)

def bodyStepRun (s : State) (c : Cmd) : Chk State := do
  let w := c.word
  let x := fun (hi lo d : Nat) => if c.expert then bits (w 1) hi lo else d
  let ms := x 63 32 0
  need (ms == 0 || decide (100 ≤ ms ∧ ms ≤ 600000)) (c.badParam 1)
  need (decide (x 19 16 0 ≤ 8)) (c.badParam 1)
  s.startRun c (bits (w 0) 2 0) (x 23 20 2) (max 1 (x 19 16 1)) true fun r => { r with
    stepsAsked := max 1 (bits (w 0) 63 32), progressMs := if ms = 0 then 10000 else ms
    mbSlices := max 1 (x 31 24 1), bwdAscending := c.expert && bitAt (w 1) 10
    notifySteps := c.expert && bitAt (w 1) 9, nanRunOn := c.expert && bitAt (w 1) 8 }

def execStepRun (id : Nat) (s : State) : Host.Outcome State Fault Refusal :=
  .next (s.startCmd id 0x0401 bodyStepRun)

/-- PROGRAM_STOP: at once at a tile boundary, or at the next step boundary. After the seal both forms take effect
after DONE (R287). -/
def bodyProgramStop (s : State) (c : Cmd) : Chk State :=
  let p := c.pavilion
  match s.runOf p with
  | none => .ok (s.finish c [])
  | some (v, r, _) =>
    let atStep := (c.expert && bitAt (c.word 0) 0) || v.sealing.isSome
    if atStep && r.phase == 0 then
      .ok ((s.started c).modRun p fun r => { r with stopAtStep := some (c.serial, 0) })
    else .ok ((s.abortRun p 0x0303 (pavTarget p) (some c)).finish c [])

def execProgramStop (id : Nat) (s : State) : Host.Outcome State Fault Refusal :=
  .next (s.startCmd id 0x0303 bodyProgramStop)

/-! ### Step boundaries (R84, R85, R260) -/

/-- DEFERRED_COMMAND_START: at the step boundary of a pavilion the first deferred command comes to its start, where its
DEADLINE is compared; its own row then runs it. With none left the boundary's other actions follow. -/
def execDeferredCommandStart (p : Fin 8) (s : State) : Host.Outcome State Fault Refusal :=
  if !((s.pav p.val).any (·.atBoundary)) then .next s
  else if (s.cmds.any fun x => x.phase == .deferred && x.pavilion == p.val && x.atBoundary) then .next s
  else
    let parking := (s.pav p.val).any (·.parking)
    match (s.dueDeferred p.val).find? fun c => !(parking && c.opcode == 0x0121) with
    | none => .next ((s.continueBoundary p.val).parkIfDue p.val)
    | some c =>
      if !(c.hot || s.roleUp 2) then .next s
      else match s.deadlineCheck c with
        | some e => .next (s.reject c e)
        | none => .next (s.modCmd c.serial fun c => { c with atBoundary := true })

/-- Every earlier operation of the step has finished. -/
def Run.earlierDone (r : Run) (g : Image) (i : Nat) : Bool :=
  ((g.stepOps r.first).filter fun j => decide (j < i)).all r.finished.contains

/-- STEP_MARK (R105, R260): once every earlier operation has finished and the step is DONE. At a boundary whose
deferred commands have run, the row goes on with actions 3 to 5. -/
def execStepMark (p : Fin 8) (op : Nat) (s : State) : Host.Outcome State Fault Refusal :=
  match s.runOf p.val with
  | none => .next s
  | some (v, r, h) =>
    if r.phase = 1 then .next (if (s.dueDeferred p.val).isEmpty then s.continueBoundary p.val else s)
    else if r.phase = 0 && (h.image.op op).code == 0x5F && (h.image.stepOps r.first).contains op && r.earlierDone h.image op
        && r.reached h.image (h.image.op op).wait && v.sealing.isNone then .next (s.markStep p.val op)
    else .next s

/-- BARRIER_INSTANT (R370): local building time has reached the instant that the step start waits for. -/
def execBarrierInstant (p : Fin 8) (s : State) : Host.Outcome State Fault Refusal :=
  match s.runOf p.val with
  | none => .next s
  | some (v, r, _) => match v.barrier with
    | none => .next s
    | some b =>
      if r.phase = 2 && decide (b.at_ + b.next * b.period ≤ s.now) then .next ((s.useInstant p.val 0).beginStep p.val)
      else .next s

/-- PROGRESS_TIMEOUT (R121). -/
def execProgressTimeout (p : Fin 8) (s : State) : Host.Outcome State Fault Refusal :=
  match s.runOf p.val with
  | none => .next s
  | some (v, r, h) =>
    if s.clock < r.lastProgress + r.progressMs * 1000000 ∨ (v.colls.any fun c => !c.done) then .next s
    else
      let left := if r.phase = 0 then
          ((h.image.stepOps r.first).find? fun j => !r.finished.contains j).getD r.first
        else r.first
      .next (s.endRun p.val 0x0201 (0xFFFF * 65536 + left % 65536) none)

/-! ### Tokens (R109, R110) -/

/-- A pavilion operation of the step may start: not finished, its WAIT reached, no WAIT_TOKEN before it (R251). -/
def State.opReady (s : State) (p i code : Nat) : Option (Pav × Run × Handle) :=
  match s.runOf p with
  | none => none
  | some (v, r, h) =>
    if r.phase = 0 && (h.image.stepOps r.first).contains i && (h.image.op i).code == code && !r.finished.contains i
        && r.tokensAllow h.image i then some (v, r, h) else none

def execWaitToken (p : Fin 8) (op : Nat) (s : State) : Host.Outcome State Fault Refusal :=
  match s.opReady p.val op 0x50 with
  | none => .next s
  | some _ => .next (s.finishOp p.val op)

def execSignalToken (p : Fin 8) (op : Nat) (s : State) : Host.Outcome State Fault Refusal :=
  match s.opReady p.val op 0x51 with
  | none => .next s
  | some (_, r, h) => .next (if r.earlierDone h.image op then s.finishOp p.val op else s)

/-! ### Tiles -/

/-- TILE_START (R108, R110, R249): the first ready tile in the order of precedence goes in flight, with the contents
of OUT kept for its checker when ACC = 1 (R391). -/
def execTileStart (p : Fin 8) (t : TileRef) (s : State) : Host.Outcome State Fault Refusal :=
  match s.runOf p.val with
  | none => .next s
  | some (v, r, h) =>
    if !s.tileReady v r h t || !s.firstReady v r h t then .next s
    else
      let x : TileProg :=
        { tile := t, startedAt := s.now
          initial := if (h.image.op t.op).acc then s.tileCodes v r.handle h t else []
          rates := v.clusters.map fun c => (c, s.rateOf c) }
      let snaps := s.snapsFor v r h t
      .next (s.modRun p.val fun r => { r with
        inflight := r.inflight ++ [x], startedOps := addNew r.startedOps t.op, snaps := r.snaps ++ snaps
        lastProgress := if r.startedOps.contains t.op then r.lastProgress else s.clock })

/-- A tile in flight of an operation with a code: its instance. -/
def State.flying (s : State) (p code : Nat) (t : TileRef) : Option Inst :=
  match s.runOf p with
  | none => none
  | some (_, r, h) =>
    if r.phase == 0 && (h.image.op t.op).code == code && (r.inflight.any fun x => x.tile == t) then s.inst p t else none

/-- dγ or dβ of a NORM_BWD instance (R208), written tile by tile, with the first NaN of each tile. -/
def State.writeSums (s : State) (p place : Nat) (t : TileRef) (i : Nat) (els : List Elem) : State × List TrapInfo :=
  match s.runOf p with
  | none => (s, [])
  | some (_, r, h) =>
    let g := h.image
    let o := g.op t.op
    let w := (g.tensor i).tileCols
    (List.range (if i = 0 then 0 else cdiv els.length w)).foldl (fun (a : State × List TrapInfo) k =>
      let u : TileRef := { t with d3 := 0, d2 := 0, row := 0, col := k }
      let part := ((els.drop (w * k)).take w).map fun e => { e with c := e.c - w * k }
      let (s, ws) := a.1.writeTile p r.handle h i u part
      (s, a.2 ++ ((firstNan ws).map fun (n, src, cause) =>
        { op := t.op, layer := o.layer, source := src, place := place, perSlice := g.perSlice o, slice := t.slice
          row := 0, col := k, c2 := 0, c3 := 0, er := n.r, ec := n.c, cause := cause }).toList)) (s, [])

/-- A whole tile of a vector operation on its home core's vector engine (R199 to R211). The last tile of a NORM_BWD instance
writes dγ and dβ too. -/
def State.vectorTile (s : State) (p code : Nat) (t : TileRef) : State :=
  match s.flying p code t with
  | none => s
  | some x =>
    let core := s.homeCore p t
    if !s.tileReach p core t then s
    else match s.badTile p t with
    | some w => s.failRunMemory p w
    | none =>
      let place := placeCore core 2
      let els := x.tile t
      let last := code == 0x19 && (x.img.instTiles x.o t.op t.slice).all fun u =>
        u == t || (s.runOf p).any fun y => y.2.1.done.contains u
      let sums := if last then x.normSums else ([], [])
      let written := fun (i : Nat) (l : List Elem) => if i = 0 then 0 else l.length
      let work := x.workOf t
      let s := s.count (ctrId place 2 1) (els.length + written x.o.out2 sums.1 + written x.o.out3 sums.2)
      let s := (s.count (ctrId place 2 2) work.1).count (ctrId place 2 3) work.2
      let (s, ws) := s.writeTile p x.hd x.h x.o.out t els
      let s := s.noteNan p t place (fun _ _ => 0xFFFFFFFF) ws
      let (s, m2) := s.writeSums p place t x.o.out2 sums.1
      let (s, m3) := s.writeSums p place t x.o.out3 sums.2
      s.finishTile p t core place (m2 ++ m3)

def execElementwise (p : Fin 8) (t : TileRef) (s : State) : Host.Outcome State Fault Refusal :=
  .next (s.vectorTile p.val 0x10 t)
def execReduce (p : Fin 8) (t : TileRef) (s : State) : Host.Outcome State Fault Refusal :=
  .next (s.vectorTile p.val 0x11 t)
def execNormFwd (p : Fin 8) (t : TileRef) (s : State) : Host.Outcome State Fault Refusal :=
  .next (s.vectorTile p.val 0x18 t)
def execNormBwd (p : Fin 8) (t : TileRef) (s : State) : Host.Outcome State Fault Refusal :=
  .next (s.vectorTile p.val 0x19 t)
def execSoftmaxFwd (p : Fin 8) (t : TileRef) (s : State) : Host.Outcome State Fault Refusal :=
  .next (s.vectorTile p.val 0x1A t)
def execSoftmaxBwd (p : Fin 8) (t : TileRef) (s : State) : Host.Outcome State Fault Refusal :=
  .next (s.vectorTile p.val 0x1B t)
def execTieSum (p : Fin 8) (t : TileRef) (s : State) : Host.Outcome State Fault Refusal :=
  .next (s.vectorTile p.val 0x32 t)

/-- A tile that a mover copies bit for bit (R243): the bytes read and written are counted on the core mover, no NaN test. -/
def State.moverTile (s : State) (p type : Nat) (t : TileRef) (read written : Nat) : State :=
  let core := s.homeCore p t
  let place := placeMover core
  ((((s.count (ctrId place 4 0) read).count (ctrId place 4 1) written).count (ctrId place 4 (1 + type)) 1)).finishTile p t core place

/-- Bytes of a tile. -/
def Inst.tileBytes (x : Inst) (i : Nat) (t : TileRef) : Nat :=
  let (r, c) := x.img.tileSize i t
  r * rowBytes (x.img.tensor i).format c

/-- WINDOW_GATHER (R234, R243). -/
def execWindowGather (p : Fin 8) (t : TileRef) (s : State) : Host.Outcome State Fault Refusal :=
  match s.flying p.val 0x20 t with
  | none => .next s
  | some x =>
    if !s.tileReach p.val (s.homeCore p.val t) t then .next s
    else match s.badTile p.val t with
    | some w => .next (s.failRunMemory p.val w)
    | none =>
      let s := forEach (x.windowCodes t) (fun s e =>
        s.putCode p.val x.hd x.h x.o.out t.slice (x.img.tileCoord x.o.out t e.1 e.2.1) e.2.2) s
      .next (s.moverTile p.val 3 t (x.windowReads t * formatBits (x.img.tensor x.o.a).format / 8) (x.tileBytes x.o.out t))

/-! #### Offloaded tiles (R243; log 48) -/

/-- The codes of a tile as bytes, row after row, the lowest column in the lowest bits. -/
def Inst.tileImage (x : Inst) (i : Nat) (t : TileRef) : List Byte :=
  let (nr, nc) := x.img.tileSize i t
  let f := (x.img.tensor i).format
  (List.range nr).flatMap fun r => leBytes (rowBytes f nc)
    ((List.range nc).foldr (fun c w =>
      w * 2 ^ formatBits f + x.s.codeAt x.v x.hd x.h i t.slice (x.img.tileCoord i t r c)) 0)
/-- The code at a row and column of such bytes. -/
def Inst.imageCode (x : Inst) (i nc r c : Nat) (l : List Byte) : Nat :=
  let f := (x.img.tensor i).format
  leNat ((l.drop (r * rowBytes f nc)).take (rowBytes f nc)) / 2 ^ (formatBits f * c) % 2 ^ formatBits f

/-- LPDDR5X for n bytes: half in each hub window where the pavilion has granules in both, else in one range. -/
def State.offRanges (s : State) (p n : Nat) : Option (State × List (Nat × Nat)) :=
  let whole := (s.allocMem p 1 n 64 7).map fun y => (y.2, [(y.1, n)])
  let hub := fun (h a : Nat) => a / 2 ^ 40 % 256 == h
  let a := n - n / 2
  let both := (s.pav p).any fun v => v.lpddr.any (·.1 == 0) && v.lpddr.any (·.1 == 1)
  if !both || n < 2 then whole
  else match s.allocMem p 1 a 64 7 (hub 0) with
    | none => whole
    | some (x, s1) => match s1.allocMem p 1 (n - a) 64 7 (hub 1) with
      | none => whole
      | some (y, s2) => some (s2, [(x, a), (y, n - a)])

def OffTile.is (x : OffTile) (hd i key : Nat) (t : TileRef) : Bool :=
  x.handle == hd && x.tensor == i && x.slice == key && x.d3 == t.d3 && x.d2 == t.d2 && x.row == t.row && x.col == t.col

/-- OFFLOAD inside a program (R243): the tile goes to LPDDR5X with every bit, in place of an older copy; the faster storage is
released with the last tile. It waits while there is no room. -/
def execOffloadOp (p : Fin 8) (t : TileRef) (s : State) : Host.Outcome State Fault Refusal :=
  match s.flying p.val 0x38 t with
  | none => .next s
  | some x =>
    let i := x.o.a
    let ten := x.img.tensor i
    let key := ten.key t.slice
    let n := x.tileBytes i t
    if !s.tileReach p.val (s.homeCore p.val t) t then .next s
    else match s.badTile p.val t with
    | some w => .next (s.failRunMemory p.val w)
    | none =>
      match (s.modPav p.val fun v => v.dropOff fun y => y.is x.hd i key t).offRanges p.val n with
      | none => .next s
      | some (s, rs) =>
        let bytes := x.tileImage i t
        let s := (forEach rs (fun (a : State × List Byte) r => (a.1.writeMem r.1 (a.2.take r.2), a.2.drop r.2)) (s, bytes)).1
        let off : OffTile :=
          { handle := x.hd, tensor := i, slice := key, d3 := t.d3, d2 := t.d2, row := t.row, col := t.col, ranges := rs }
        let s := s.renew rs
        let last := s.pavs.any fun e => e.1 == p.val && e.2.run.any fun r =>
          (x.img.opTiles t.op (s.heldSlices e.2 x.img)).all fun u => u == t || r.done.contains u
        let s := s.modPav p.val fun v => { v with
          offTiles := v.offTiles ++ [off]
          data := if last then v.data.filter fun d => !(d.handle == x.hd && d.tensor == i) else v.data }
        .next (s.moverTile p.val 4 t n n)

/-- RESTORE inside a program (R243): the tile comes back with every bit, and its LPDDR5X is released. A word that cannot be
corrected ends the run (R224). -/
def execRestoreOp (p : Fin 8) (rd : TileRead) (s : State) : Host.Outcome State Fault Refusal :=
  let t := rd.tile
  match s.flying p.val 0x39 t with
  | none => .next s
  | some x =>
    let i := x.o.out
    let key := (x.img.tensor i).key t.slice
    let n := x.tileBytes i t
    match x.v.offTiles.find? fun y => y.is x.hd i key t with
    | none => .next (s.moverTile p.val 5 t n n)
    | some off =>
      let s := s.meet rd.errs fun w => off.ranges.any fun r => overlaps w (codeWord w) r.1 r.2
      match off.ranges.findSome? fun r => s.badRead r.1 r.2 with
      | some w => .next (s.failRunMemory p.val w)
      | none =>
        let (nr, nc) := x.img.tileSize i t
        let l := off.ranges.flatMap fun r => s.readMem r.1 r.2
        let s := forEach (List.range nr) (fun s r => forEach (List.range nc) (fun s c =>
          s.putCode p.val x.hd x.h i t.slice (x.img.tileCoord i t r c) (x.imageCode i nc r c l)) s) s
        let s := s.modPav p.val fun v => v.dropOff fun y => y.is x.hd i key t
        .next (s.moverTile p.val 5 t n n)

end Sys2Proof.Machine
end

