-- ==== Sys2Proof/Machine/Ledger.lean ====
section
/-! DEFINITION. The updater and the shard ledger (R266 to R295): update arithmetic, digests, staging, seal, commit,
roll-forward, and the commands SHARD_UPDATE, LEDGER_QUERY and LEDGER_REPAIR. -/

namespace Sys2Proof.Machine

/-! ### Records (R269, R270) -/

def recFlags (r : Rec) : Nat :=
  b2n r.valid * 2 ^ 15 + b2n r.gradNext * 2 ^ 14 + b2n r.gradCur * 2 ^ 13 + b2n r.staged * 2 ^ 12
    + b2n r.damaged * 2 ^ 11 + b2n r.gradLost * 2 ^ 10 + b2n r.mirrorPending * 512 + b2n r.migrating * 256
    + b2n r.paired * 128 + b2n r.frozen * 64 + b2n r.remapped * 32

def recBytes (r : Rec) : List Byte :=
  leBytes 64 (r.digest % 2 ^ 128 * 2 ^ 384 + r.slotPage % 2 ^ 40 * 2 ^ 344 + r.gradPage % 2 ^ 40 * 2 ^ 304
    + r.length % 2 ^ 32 * 2 ^ 272 + r.cols % 2 ^ 24 * 2 ^ 248 + r.version.toNat * 2 ^ 232 + r.tensor % 65536 * 2 ^ 216
    + r.slice % 65536 * 2 ^ 200 + r.shardId % 2 ^ 20 * 2 ^ 180 + r.layer % 4096 * 2 ^ 168 + recFlags r * 2 ^ 152
    + r.pavilion % 16 * 2 ^ 148 + r.state % 8 * 2 ^ 145 + b2n r.cur * 2 ^ 144 + r.cls % 4 * 2 ^ 142
    + r.form % 4 * 2 ^ 140 + r.sealSeq.toNat * 2 ^ 96 + r.twinVersion.toNat * 2 ^ 80 + r.commitTime % 2 ^ 64)

def recOfBytes (l : List Byte) : Rec :=
  let x := leNat (l.take 64)
  { digest := bits x 511 384, slotPage := bits x 383 344, gradPage := bits x 343 304, length := bits x 303 272
    cols := bits x 271 248, version := BitVec.ofNat 16 (bits x 247 232), tensor := bits x 231 216
    slice := bits x 215 200, shardId := bits x 199 180, layer := bits x 179 168, valid := bitAt x 167
    gradNext := bitAt x 166, gradCur := bitAt x 165, staged := bitAt x 164, damaged := bitAt x 163
    gradLost := bitAt x 162, mirrorPending := bitAt x 161, migrating := bitAt x 160, paired := bitAt x 159
    frozen := bitAt x 158, remapped := bitAt x 157, pavilion := bits x 151 148, state := bits x 147 145
    cur := bitAt x 144, cls := bits x 143 142, form := bits x 141 140, sealSeq := BitVec.ofNat 32 (bits x 127 96)
    twinVersion := BitVec.ofNat 16 (bits x 95 80), commitTime := bits x 63 0 }

/-- PLACE_ID of the updater of a shard's die. -/
def updaterPlace (n : Nat) : Nat := placeDie (n / 131072) 2 0
def low16 (n : Nat) : Nat := n % 65536

/-! ### Slots and digests (R267, R280) -/

/-- The arrays of a slot whose first byte is `a`. -/
def State.readArrays (s : State) (r : Rec) (a : Nat) : List (List Byte) :=
  (List.range 5).map fun k => s.readMem (a + r.arrayOff k) (r.arrays.getD k 0)
/-- The first word of a slot that cannot be read. -/
def State.badSlot (s : State) (r : Rec) (a : Nat) : Option Nat :=
  (List.range 5).findSome? fun k => if r.arrays.getD k 0 = 0 then none else s.badRead (a + r.arrayOff k) (r.arrays.getD k 0)
/-- Write a slot, each array filled with zeros to whole pages. -/
def State.writeSlot (s : State) (r : Rec) (a : Nat) (arrays : List (List Byte)) : State :=
  forEach (List.range 5) (fun s k =>
    let l := arrays.getD k []
    s.writeMem (a + r.arrayOff k) (fit (4096 * pages l.length) l)) s

def slotDigest (shardId version : Nat) (arrays : List (List Byte)) : Nat :=
  digest128 (leBytes 4 shardId ++ leBytes 2 version ++ arrays.flatten)

/-- Little-endian words of a byte string. -/
def wordsOf (size : Nat) : Nat → List Byte → List Nat
  | 0, _ => []
  | n + 1, l => leNat (l.take size) :: wordsOf size n (l.drop size)
def words (size : Nat) (l : List Byte) : List Nat := wordsOf size (l.length / size) l
def unwords (size : Nat) (l : List Nat) : List Byte := l.flatMap (leBytes size)

/-! ### Update arithmetic (R274 to R278, R290) -/

/-- Exponent of δ(hi) (R274). -/
def deltaExp (hi : Nat) : Int := let e := hi / 128 % 256; if e = 0 then -148 else (e : Int) - 149

/-- The master of an element, as binary32. -/
def masterOf (cls hi lo : Nat) : Nat :=
  let h := fBf16.dec hi
  if cls ≠ 1 ∨ !h.isFin ∨ lo = 0 then r32 h else r32 (h.add ((Val.ofInt (twos 16 lo)).scale2 (deltaExp hi)))

/-- A finite value rounded to an integer, ties to even. -/
def roundVal : Val → Int
  | .fin sg m e =>
    let n : Nat := if 0 ≤ e then m * 2 ^ e.toNat else rne m (-e).toNat
    if sg then -(n : Int) else n
  | _ => 0

/-- Place w - d on the grid of the class (R278): HI and LO. -/
def placeMaster (cls w d : Nat) : Nat × Nat :=
  let x := (d32 w).sub (d32 d)
  let hi := fBf16.enc false x
  let h := fBf16.dec hi
  if cls ≠ 1 ∨ !h.isFin then (hi, 0)
  else (hi, ((roundVal ((x.sub h).scale2 (-(deltaExp hi)))) % 65536).toNat)

structure UpdOut where
  hi : List Nat
  lo : List Nat
  m : List Nat
  r : List Nat
  c : List Nat
  /-- Squared norms of w', g and w' - w. -/
  norms : Nat × Nat × Nat
  /-- The first NaN in the order of R501: array, index, and whether one came in. -/
  nan : Option (Nat × Nat × Bool)
  deriving DecidableEq, Repr

def normSq (l : List Nat) : Nat := l.foldl (fun a x => fma32 x x a) 0
def foldSum (l : List Nat) : Nat := l.foldl add32 0

/-- R276 on whole arrays: binary32 gradients, the arrays of the current slot, the hyper-parameter block. -/
def updateShard (cls form cols : Nat) (gs his los ms rs cs : List Nat) (hyper : List Byte) : UpdOut :=
  let h := fun (o : Nat) => field hyper o 4
  let (lr, b1, b2, eps, wd, gsc, clip) := (h 60, h 56, h 52, h 48, h 44, h 40, h 36)
  let n := gs.length
  let rows := n / cols
  let ws := (List.range n).map fun i => masterOf cls (nth his i) (nth los i)
  let g := gs.map fun x => mul32 x gsc
  let (r', c', u1, m', u) :=
    if form = 0 then
      let m' := zipMap (fun m x => fma32 b1 m x) ms g
      (([] : List Nat), ([] : List Nat), ([] : List Nat), m', m')
    else
      let ob1 := sub32 one32 b1
      let ob2 := sub32 one32 b2
      let sq := g.map fun x => fma32 x x eps
      let at_ := fun i j => nth sq (i * cols + j)
      let a := (List.range rows).map fun i => foldSum ((List.range cols).map fun j => at_ i j)
      let b := (List.range cols).map fun j => foldSum ((List.range rows).map fun i => at_ i j)
      let r' := (List.range rows).map fun i => fma32 b2 (nth rs i) (mul32 ob2 (divNat32 (nth a i) cols))
      let c' := (List.range cols).map fun j => fma32 b2 (nth cs j) (mul32 ob2 (divNat32 (nth b j) rows))
      let rbar := divNat32 (foldSum r') rows
      let u0 := (List.range n).map fun e =>
        mul32 (nth g e) (rsqrt32 (div32 (mul32 (nth r' (e / cols)) (nth c' (e % cols))) rbar))
      let rms := sqrt32 (divNat32 (normSq u0) n)
      let clipped := gt0 clip && (d32 clip).lt (d32 rms)
      let u1 := if clipped then u0.map fun x => mul32 x (div32 clip rms) else u0
      let m' := zipMap (fun m x => fma32 b1 m (mul32 ob1 x)) ms u1
      (r', c', u1, m', m')
  let ds := (List.range n).map fun i => mul32 lr (fma32 wd (nth ws i) (nth u i))
  let ps := (List.range n).map fun i => placeMaster cls (nth ws i) (nth ds i)
  let w' := ps.map fun x => masterOf cls x.1 x.2
  let find := fun (k : Nat) (l : List Nat) => (l.findIdx? isNan32).map fun i => (k, i)
  let first := [find 0 g, find 1 r', find 2 c', find 3 u1, find 4 m', find 5 w'].findSome? id
  { hi := ps.map (·.1), lo := ps.map (·.2), m := m', r := r', c := c'
    norms := (normSq w', normSq g, normSq (zipMap sub32 w' ws))
    nan := first.map fun x => (x.1, x.2, anyNan gs || anyNan ws || anyNan ms || anyNan rs || anyNan cs) }

/-- The result of an update as the arrays of a slot. -/
def UpdOut.arrays (o : UpdOut) (r : Rec) : List (List Byte) :=
  [unwords 2 o.hi, if r.cls = 1 then unwords 2 o.lo else [], unwords 4 o.m,
   if r.form = 1 then unwords 4 o.r else [], if r.form = 1 then unwords 4 o.c else []]

/-- R276 on a shard: the slot `base` with the gradient in buffer `buf`. -/
def State.updateFrom (s : State) (r : Rec) (base : Nat) (grad hyper : List Byte) : UpdOut :=
  let a := s.readArrays r base
  updateShard r.cls r.form r.cols (words 4 grad) (words 2 (a.getD 0 [])) (words 2 (a.getD 1 [])) (words 4 (a.getD 2 []))
    (words 4 (a.getD 3 [])) (words 4 (a.getD 4 [])) hyper

/-- The trap of R501. -/
def updTrap (n : Nat) (r : Rec) (op : Nat) (x : Nat × Nat × Bool) : TrapInfo :=
  let none28 := 0xFFFFFFF
  let row := if x.1 = 1 then x.2.1 else if x.1 = 2 then none28 else x.2.1 / r.cols
  let col := if x.1 = 1 then none28 else if x.1 = 2 then x.2.1 else x.2.1 % r.cols
  { op := op, layer := r.layer, source := 7, place := updaterPlace n, perSlice := false, slice := 0, row := row, col := col
    c2 := n, c3 := x.1, er := 1023, ec := 1023, cause := x.2.2 }

/-! ### Versions (R289) -/

/-- Version a is newer than b, or older, modulo 65,536; a pair 32,768 apart is neither. -/
def newer (a b : BitVec 16) : Bool := decide (0 < (a - b).toNat ∧ (a - b).toNat < 32768)
def older (a b : BitVec 16) : Bool := decide (32768 < (a - b).toNat)

/-! ### Damage (R288) -/

def State.shardDamaged (s : State) (p n what : Nat) : State :=
  s.postPav p 0x0422 2 (updaterPlace n) (pack [(4, n), (1, what)])

/-- The current slot of a shard cannot be read: the page retires and DAMAGED is set. -/
def State.slotLost (s : State) (n w : Nat) : State :=
  ((s.memError w 1).modShard n fun r => { r with damaged := true }).shardDamaged (s.shard n).pavilion n 2

/-- The updater of a shard's die reaches the shard's slots and gradient buffers (R25, R481). -/
def State.shardReach (s : State) (n : Nat) : Bool :=
  s.memSound ||
    let r := s.shard n
    [r.slotAddr false, r.slotAddr true, r.gradAddr 0, r.gradAddr 1].all fun a =>
      s.dieReaches (n / 131072) a && !s.onStopped a 4096

/-- A record cannot be read: EV_SHARD_DAMAGED and ST_FAIL_LEDGER (R288). -/
def State.recordLost (s : State) (c : Cmd) (n : Nat) : State :=
  (s.shardDamaged (s.shard n).pavilion n 1).fail c 0x0290 (updaterPlace n) (low16 n)

/-- How the staging of a shard ends. -/
inductive StageEnd where
  | staged
  /-- The current slot, or the gradient, cannot be read at the word. -/
  | slotBad (w : Nat)
  | gradBad (w : Nat)
  | noRoom (w : Nat)
  /-- A NaN: the record as a trap. -/
  | nan (x : TrapInfo)
  deriving DecidableEq, Repr

/-- Slot and gradient bytes of a record. -/
def gradLen (r : Rec) : Nat := 4 * r.length

/-- Place both slots of a shard afresh in its tier and copy the slot at `keep`; the new SLOT_PAGE (R285, R295). -/
def State.placeFresh (s : State) (n : Nat) : Option State :=
  let r := s.shard n
  (s.allocMem r.pavilion (4096 * r.slotPage / 2 ^ 48) (8192 * r.slotPages) 4096 2).map fun (a, s) =>
    let r' := { r with slotPage := a / 4096 }
    (s.writeSlot r (r'.slotAddr r.cur) (s.readArrays r (r.slotAddr r.cur))).modLedger fun l => { l with
      fresh := tset l.fresh n (a / 4096) }

/-- The address of the non-current slot, in a fresh pair when there is one. -/
def State.nextSlot (s : State) (n : Nat) : Nat :=
  let r := s.shard n
  ({ r with slotPage := (tfind s.ledger.fresh n).getD r.slotPage } : Rec).slotAddr !r.cur

/-- Run the optimizer on shard n, write the non-current slot and stage it (R272, R276, R277). `op` is the operation
index of a trap record. -/
def State.stageShard (s : State) (n op : Nat) (hyper : List Byte) (seq : Nat) (runOn : Bool) : State × StageEnd :=
  let r := s.shard n
  let s := s.modShard n fun r => { r with state := 3, staged := false }
  match s.badSlot r (r.slotAddr r.cur) with
  | some w => (s, .slotBad w)
  | none =>
    let ga := r.gradAddr r.nextBuf
    match s.badRead ga (gradLen r) with
    | some w => (s, .gradBad w)
    | none =>
      let o := s.updateFrom r (r.slotAddr r.cur) (s.readMem ga (gradLen r)) hyper
      match (if runOn then none else o.nan) with
      | some x => (s, .nan (updTrap n r op x))
      | none =>
        let spoiled := s.retiredIn (r.slotAddr !r.cur) (4096 * r.slotPages)
        match (if spoiled.isSome then s.placeFresh n else some s) with
        | none => (s, .noRoom (spoiled.getD 0))
        | some s =>
          let d := slotDigest n (r.version + 1).toNat (o.arrays r)
          let s := (s.writeSlot r (s.nextSlot n) (o.arrays r)).modShard n fun r => { r with
            staged := true, sealSeq := BitVec.ofNat 32 seq }
          (s.modLedger fun l => { l with
            nextHyper := tset l.nextHyper n hyper
            nextDigest := tset l.nextDigest n d
            nextNorms := tset l.nextNorms n { w := o.norms.1, g := o.norms.2.1, d := o.norms.2.2, seq := BitVec.ofNat 32 seq } },
           match o.nan with
           | some x => .nan (updTrap n r op x)
           | none => .staged)

/-! ### UPDATE (R254, R276) -/

/-- Held shards that the UPDATE at operation i names, in ascending SHARD_ID. -/
def State.updateShards (s : State) (p : Nat) (v : Pav) (g : Image) (i : Nat) : List Nat :=
  match v.reshape.active with
  | none => []
  | some l => (s.shardsOf p).filter fun n =>
      (s.shard n).tensor == (g.op i).a && (l.holderOf (l.owner n)).any fun x => x.device == s.ownId

/-- A first write waits while a comparison is due for the shard's group, or a disagreement is unresolved (R384). -/
def Pav.mayWrite (v : Pav) (n : Nat) : Bool :=
  v.twin.state != 2 || (!v.twin.blocked.contains (n / 4096) && !v.twin.disagree.any fun d => d.shard == n && !d.mirror)

/-- End a run at a shard that cannot be used. -/
def State.endRunShard (s : State) (p status n : Nat) : State :=
  s.endRun p status (updaterPlace n * 65536 + low16 n) none

/-- UPDATE on one shard. -/
def execUpdate (p : Fin 8) (op shard : Nat) (s : State) : Host.Outcome State Fault Refusal :=
  match s.opReady p.val op 0x40 with
  | none => .next s
  | some (v, r, h) =>
    let g := h.image
    let o := g.op op
    let x := s.shard shard
    if !(s.updateShards p.val v g op).contains shard || x.frozen || x.staged || x.migrating || !v.mayWrite shard
        || !s.hazardFree v r h op (g.accesses o (noTile op)) || v.sealing.isSome || s.dieLost (shard / 131072)
        || !s.shardReach shard then .next s
    else if s.ledger.unreadable.contains shard then
      .next ((s.shardDamaged p.val shard 1).endRunShard p.val 0x0290 shard)
    else if x.damaged then .next (s.endRunShard p.val 0x0291 shard)
    else if x.state ≠ 2 then .next s
    else match s.badOperand v h 0 (g.wholeAcc o.hyper none false) with
      | some w => .next (s.failRunMemory p.val w)
      | none =>
        let hyper := (List.range 64).map fun j => BitVec.ofNat 8 (s.codeAt v r.handle h o.hyper 0 (j, 0, 0, 0))
        let (s, e) := s.stageShard shard op hyper (v.stepSeq + 1) r.nanRunOn
        let s := s.modRun p.val fun r => { r with
          startedOps := addNew r.startedOps op
          lastProgress := if r.startedOps.contains op then r.lastProgress else s.clock }
        .next (match e with
          | .staged => s
          | .slotBad w => (s.slotLost shard w).endRun p.val 0x0202 (s.placeOfAddr w * 65536 + 0xFFFF) (some (pack [(8, w)]))
          | .gradBad w => s.failRunMemory p.val w
          | .noRoom w => s.failRunMemory p.val w
          | .nan t => s.nanFound p.val t)

/-! ### Seal, commit, DONE (R281, R282, R290) -/

/-- STEP_MARK index of the step for the journal. -/
def Run.markIndex (r : Run) (g : Image) : Nat := g.stepLast r.first

/-- Per-layer norms (R290): the layers with a shard committed under the seal. -/
def State.layerNorms (s : State) (p seq : Nat) : State :=
  let mine := s.shardsOf p
  let low := BitVec.ofNat 32 seq
  let layers := ((mine.filter fun n => (tget s.ledger.norms n {}).seq == low && (s.shard n).sealSeq == low).map
    fun n => (s.shard n).layer).eraseDups
  forEach layers (fun s ly =>
    let es := (mine.filter fun n => (s.shard n).layer == ly && thas s.ledger.norms n).map fun n => tget s.ledger.norms n {}
    let f := fun (k : ShardNorm → Nat) => foldSum (es.map k)
    s.modPav p fun v => { v with norms := tset v.norms ly (f (·.w), f (·.g), f (·.d), seq % 2 ^ 32) }) s

/-- Groups of the pavilion that hold a PAIRED shard (R383). -/
def State.pairedGroups (s : State) (p : Nat) : List Nat :=
  (((s.shardsOf p).filter fun n => (s.shard n).paired).map (· / 4096)).eraseDups

/-- DONE is written: norms formed, the step's UPDATEs finished, a SHARD_UPDATE completed, the step-end comparison due
(R384). -/
def State.sealDone (s : State) (p : Nat) : State :=
  match s.pav p with
  | none => s
  | some v => match v.sealing with
    | none => s
    | some x =>
      let i := x.seq % 16
      let groups := s.pairedGroups p
      let s := s.modPav p fun v => { v with
        sealing := none
        journal := match tfind v.journal i with
          | some e => tset v.journal i { e with doneTime := s.now, commitCount := x.committed, state := 2 }
          | none => v.journal
        twin := if v.twin.state = 2 && !groups.isEmpty then
            { v.twin with due := some (x.seq, false), blocked := groups.foldl addNew v.twin.blocked }
          else v.twin }
      let s := s.layerNorms p x.seq
      let s := match x.cmd.bind s.cmd with
        | some c => s.finish c (pack [(4, x.committed), (4, x.frozen), (8, x.seq)])
        | none => s
      match s.runOf p with
      | none => s
      | some (_, r, h) =>
        forEach ((h.image.stepOps r.first).filter fun j => (h.image.op j).code == 0x40) (fun s j => s.finishOp p j) s

/-- Write the seal (R281, R282). -/
def State.writeSeal (s : State) (p : Nat) (todo : List Nat) (programId opIndex kind : Nat) (cmd : Option Nat)
    (frozen : Nat) : State :=
  match s.pav p with
  | none => s
  | some v =>
    let seq := v.stepSeq + 1
    let e : JEntry :=
      { stepSeq := seq, sealTime := s.now, programId := programId, stagedCount := todo.length, opIndex := opIndex
        state := 1, kind := kind }
    let s := s.modPav p fun v => { v with
      stepSeq := seq, journal := tset v.journal (seq % 16) e
      sealing := some { seq := seq, todo := todo, cmd := cmd, frozen := frozen }
      reshape := { v.reshape with sealedInEpoch := true } }
    if todo.isEmpty then s.sealDone p else s

/-- SEAL_WRITE: the seal of a running step once the conditions of R282 and R391 hold, or of a SHARD_UPDATE. -/
def execSealWrite (p : Fin 8) (s : State) : Host.Outcome State Fault Refusal :=
  match s.pav p.val with
  | none => .next s
  | some v =>
    let mine := s.shardsOf p.val
    if v.sealing.isSome || v.stopped || (mine.any fun n => (s.shard n).paired && (s.shard n).mirrorPending) then .next s
    else match s.runOf p.val with
      | some (_, r, h) =>
        let g := h.image
        let step := g.stepOps r.first
        let ups := step.filter fun j => (g.op j).code == 0x40 && !r.finished.contains j
        let gate := step.all fun j => r.finished.contains j || !(g.perSlice (g.op j) || (g.op j).code == 0x31)
        let all := ups.flatMap fun j => s.updateShards p.val v g j
        if r.phase ≠ 0 ∨ ups.isEmpty ∨ !gate ∨ !v.samples.isEmpty
            ∨ !(ups.all fun j => r.tokensAllow g j) ∨ !(all.all fun n => (s.shard n).staged || (s.shard n).frozen) then .next s
        else .next (s.writeSeal p.val (all.filter fun n => (s.shard n).staged).eraseDups g.programId (r.markIndex g) 0 none 0)
      | none =>
        match s.cmds.find? fun c => c.opcode == 0x0410 && c.phase == .started && c.pavilion == p.val with
        | none => .next s
        | some c => .next (s.writeSeal p.val (mine.filter fun n => (s.shard n).staged) 0 0 1 (some c.serial)
            (c.params.getLast?.getD 0))

/-- The commit write of a staged shard (R272, R283). -/
def State.commitShard (s : State) (p n : Nat) : State :=
  let r := s.shard n
  let v' := r.version + 1
  let d := (tfind s.ledger.nextDigest n).getD (slotDigest n v'.toNat (s.readArrays r (s.nextSlot n)))
  let fresh := tfind s.ledger.fresh n
  let s := s.modShard n fun r => { r with
    cur := !r.cur, version := v', digest := d, gradCur := true, gradNext := false, staged := false, commitTime := s.now
    mirrorPending := r.paired, state := 4, slotPage := fresh.getD r.slotPage }
  let s := s.modLedger fun l => { l with
    norms := match tfind l.nextNorms n with | some x => tset l.norms n x | none => l.norms
    nextNorms := tdel l.nextNorms n
    hyper := match tfind l.nextHyper n with | some x => tset l.hyper n x | none => l.hyper
    nextHyper := tdel l.nextHyper n
    nextDigest := tdel l.nextDigest n
    fresh := tdel l.fresh n }
  let s := if fresh.isSome then s.freeMem p (4096 * r.slotPage) else s
  s.modPav p fun v => { v with
    sealing := v.sealing.map fun (x : Sealing) => { x with todo := x.todo.filter (· != n), committed := x.committed + 1 } }

/-! ### Roll-forward (R285, R288) -/

/-- Commit one shard after its seal: true when it commits. A staged slot that cannot be read is computed again first (R285,
R288). -/
def State.commitOne (s : State) (p n : Nat) : State × Bool :=
  let r := s.shard n
  if s.ledger.unreadable.contains n then (s.shardDamaged p n 1, false)
  else match s.badSlot r (s.nextSlot n) with
    | none => (s.commitShard p n, true)
    | some w =>
      let s := s.memError w 1
      match s.badSlot r (r.slotAddr r.cur), s.badRead (r.gradAddr r.nextBuf) (gradLen r) with
      | some w, _ => (s.slotLost n w, false)
      | none, some w =>
        (((s.memError w 1).modShard n fun r => { r with gradLost := true }).shardDamaged p n 3, false)
      | none, none =>
        let hyper := (tfind s.ledger.nextHyper n).getD []
        let o := s.updateFrom r (r.slotAddr r.cur) (s.readMem (r.gradAddr r.nextBuf) (gradLen r)) hyper
        match s.placeFresh n with
        | none => (s, false)
        | some s => ((s.writeSlot r (s.nextSlot n) (o.arrays r)).commitShard p n, true)
/-- The same in a roll-forward, which recomputes the digest of the non-current slot from memory. -/
def State.rollShard (s : State) (p n : Nat) : State × Bool :=
  (s.modLedger fun l => { l with nextDigest := tdel l.nextDigest n }).commitOne p n

/-- A sealed step that cannot commit every shard stays SEALED (R288). -/
def State.leavePending (s : State) (p seq count : Nat) : State :=
  let s := s.modPav p fun v => { v with sealing := v.sealing.map fun (y : Sealing) => { y with halted := true, pending := true } }
  s.postPav p 0x0421 2 (placeDie (((s.pav p).map (·.gateDie)).getD 0) 2 0) (pack [(8, seq), (4, count)])

/-- SHARD_COMMIT: after the seal, the next staged shard commits; the last one writes DONE. -/
def execShardCommit (p : Fin 8) (shard : Nat) (s : State) : Host.Outcome State Fault Refusal :=
  match s.pav p.val with
  | none => .next s
  | some v => match v.sealing with
    | none => .next s
    | some x =>
      if x.halted || v.stopped || x.todo.head? != some shard || !(s.shard shard).staged || !s.shardReach shard then .next s
      else
        let (s, ok) := s.commitOne p.val shard
        .next (if !ok then s.leavePending p.val x.seq x.todo.length
          else if (s.pav p.val).any fun v => v.sealing.any fun x => x.todo.isEmpty then s.sealDone p.val else s)

/-- Roll a SEALED step forward: the shards committed and those that cannot commit. `note` marks interrupted commands
with NOTE 0x0140. -/
def State.rollForward (s : State) (p : Nat) : State × Nat × List Nat :=
  match s.pav p with
  | none => (s, 0, [])
  | some v => match v.sealing with
    | none => (s, 0, [])
    | some x =>
      let (s, bad) := x.todo.foldl (fun (a : State × List Nat) n =>
        let (s, ok) := a.1.rollShard p n
        (s, if ok then a.2 else a.2 ++ [n])) (s, [])
      let done := x.todo.length - bad.length
      if bad.isEmpty then
        let s := (match x.cmd with
          | some id => s.modCmd id fun c => { c with notes := addNew c.notes 0x0140 }
          | none => s).modRun p fun r => { r with notes := addNew r.notes 0x0140 }
        let s := s.postPav p 0x0420 0 (placeDie v.gateDie 2 0) (pack [(8, x.seq), (4, done)])
        (s.sealDone p, done, [])
      else (s.leavePending p x.seq bad.length, done, bad)

/-- ROLL_FORWARD: once the cause of the interruption is cleared; after one that left shards pending, a repair clears it. -/
def execRollForward (p : Fin 8) (s : State) : Host.Outcome State Fault Refusal :=
  match s.pav p.val with
  | none => .next s
  | some v =>
    if v.stopped || !(v.sealing.any fun x => x.halted && !x.pending) then .next s else .next ((s.rollForward p.val).1.parkIfDue p.val)

/-! ### SHARD_UPDATE (R291) -/

/-- The checks of R291 on one shard. -/
def State.updateRej (s : State) (p n : Nat) (supplied : Bool) : Chk Unit := do
  let r := s.shard n
  need r.valid { code := 0x01C0, reason := 1 }
  need (r.pavilion == p) { code := 0x01C0, reason := 2 }
  need (!r.damaged) { code := 0x0291, detail := some (updaterPlace n * 65536 + low16 n) }
  need (!r.migrating && (r.state == 2 || (supplied && (r.state == 0 || r.state == 4)))) { code := 0x01C0, reason := 3 }

/-- Stage the shards of a list with their gradients; a FROZEN shard is left unchanged (R270). A supplied gradient is copied into
the buffer for the next version and changes no state by itself (R272, R291; log 28). -/
def State.stageList (s : State) (p seq grad : Nat) (hyper : List Byte) : List Nat → State × Option (Nat × StageEnd)
  | [] => (s, none)
  | n :: t =>
    let r := s.shard n
    let len := gradLen r
    let next := if grad = 0 then 0 else grad + len
    if r.frozen then s.stageList p seq next hyper t
    else match (if grad = 0 then s else s.writeMem (r.gradAddr r.nextBuf) (s.readMem grad len)).stageShard n 0xFFFFFF hyper seq false with
      | (s, .staged) => s.stageList p seq next hyper t
      | (s, e) => (s, some (n, e))

/-- SHARD_UPDATE (R277). The trap record of a NaN in it has FIRST = 1 and index 0, which the manual leaves open (log 49). -/
def bodyShardUpdate (s : State) (c : Cmd) : Chk State := do
  let p := c.pavilion
  let w := c.word
  match s.pav p with
  | none => .error { code := 0x0106, off := 0 }
  | some v =>
    need (v.role != 0) (stState 1)
    need v.run.isNone { code := 0x0104, defer := true }
    need v.sealing.isNone (s.sealedRej p)
    need (!(s.cmds.any fun x => x.opcode == 0x0410 && x.phase == .started && x.pavilion == p)) { code := 0x0104, defer := true }
    need (v.reshape.state != 1 && v.reshape.state != 2) { code := 0x01D0, reason := 2, defer := true }
    s.checkAddr c 1 (w 1) 64 64
    let count := if c.expert then bits (w 3) 63 32 else 1
    need (decide (1 ≤ count ∧ count ≤ 131072)) (c.badParam 3)
    if c.expert then s.checkAddr c 0 (w 0) (4 * count) 4
    match (if c.expert then s.badRead (w 0) (4 * count) else none), s.badRead (w 1) 64 with
    | some x, _ => .ok (s.failMemory c x)
    | none, some x => .ok (s.failMemory c x)
    | none, none =>
      let list := if c.expert then (words 4 (s.readMem (w 0) (4 * count))).map (· % 2 ^ 20) else [w 0 % 2 ^ 20]
      let grad := if c.expert then w 2 else 0
      need (list.eraseDups.length == list.length) (c.badParam 0)
      match list.find? s.ledger.unreadable.contains with
      | some n => .ok (s.recordLost c n)
      | none =>
      list.forM fun n => s.updateRej p n (grad != 0)
      need (list.all v.mayWrite) (stState 3)
      let total := sumNat (list.map fun n => gradLen (s.shard n))
      if grad ≠ 0 then s.checkAddr c 2 grad total 4
      match (if grad = 0 then none else s.badRead grad total), list.find? fun n => !s.shardReach n with
      | some x, _ => .ok (s.failMemory c x)
      | none, some n =>
        -- a slot behind failed die bridges (log 51)
        let a := (s.shard n).slotAddr (s.shard n).cur
        .ok (s.fail c 0x0202 (s.placeOfAddr a) 0xFFFF (pack [(8, a)]))
      | none, none =>
        let hyper := s.readMem (w 1) 64
        let frozen := (list.filter fun n => (s.shard n).frozen).length
        match s.stageList p (v.stepSeq + 1) grad hyper list with
        | (s, none) => .ok ((s.started c).modCmd c.serial fun c => { c with params := c.params ++ [frozen] })
        | (s, some (n, e)) =>
          .ok (match e with
            | .slotBad x => ((s.slotLost n x).unseal p).fail c 0x0202 (s.placeOfAddr x) 0xFFFF (pack [(8, x)])
            | .gradBad x => (s.unseal p).failMemory c x
            | .noRoom x => (s.unseal p).failMemory c x
            | .nan t =>
              let (s, idx, tw) := (s.unseal p).putTrap p t 0 0 0 false true
              s.complete c 0x0501 idx (fit 48 (leBytes 64 tw))
            | .staged => s)

def execShardUpdate (id : Nat) (s : State) : Host.Outcome State Fault Refusal :=
  .next (s.startCmd id 0x0410 bodyShardUpdate)

/-! ### LEDGER_QUERY (R292) -/

def journalBytes (p : Nat) (e : JEntry) : List Byte :=
  leBytes 64 (e.stepSeq % 2 ^ 64 * 2 ^ 448 + e.sealTime * 2 ^ 384 + e.doneTime * 2 ^ 320 + e.programId * 2 ^ 256
    + e.stagedCount * 2 ^ 224 + e.commitCount * 2 ^ 192 + e.opIndex % 2 ^ 24 * 2 ^ 168 + p * 2 ^ 164 + e.state * 2 ^ 160
    + e.kind * 2 ^ 159)
def shardNormBytes (x : ShardNorm) : List Byte := pack [(4, x.w), (4, x.g), (4, x.d), (4, x.seq.toNat)]

/-- Whether a record is one that the query may see: any pavilion's for the module as a whole. -/
def Cmd.sees (c : Cmd) (r : Rec) : Bool := r.valid && (c.pavilion == 0xF || r.pavilion == c.pavilion)

def bodyLedgerQuery (s : State) (c : Cmd) : Chk State := do
  let w := c.word
  if !c.expert then
    let n := bits (w 0) 19 0
    if s.ledger.unreadable.contains n then .ok (s.recordLost c n)
    else
    need (s.shard n).valid (c.bad 0x01C0 0 1)
    need (c.sees (s.shard n)) (c.bad 0x01C0 0 2)
    .ok (s.finish c ((recBytes (s.shard n)).drop 16))
  else
    let count := bits (w 1) 63 32
    let first := bits (w 1) 19 0
    let kind := bits (w 2) 63 56
    let mask := bits (w 2) 7 0
    need (decide (kind < 4)) (c.badParam 2)
    let v := s.pav c.pavilion
    need (kind == 0 || kind == 3 || v.isSome) { code := 0x0106, off := 0 }
    need (kind != 1 || decide (first < 16)) (c.badParam 1)
    need (kind != 2 || decide (first < 4096)) (c.badParam 1)
    let limit := if kind = 1 then 16 else if kind = 2 then 4096 else 1048576
    let last := min (first + count) limit
    let recs := s.ledger.recs.filter fun e => decide (first ≤ e.1 ∧ e.1 < last) && c.sees e.2
    let picked := recs.filter fun e =>
      (!bitAt (w 2) 8 || e.2.damaged || e.2.gradLost || e.2.mirrorPending) && (mask == 0 || mask.testBit e.2.state)
    match (if kind = 0 then recs.find? fun e => s.ledger.unreadable.contains e.1 else none) with
    | some e => .ok (s.recordLost c e.1)
    | none =>
    match (if kind = 1 then v.bind fun v => (List.range (last - first)).findSome? fun i => s.journalLost c.pavilion v (first + i)
        else none) with
    | some w => .ok (s.failMemory c w)
    | none =>
      let idx := (List.range (last - first)).map (· + first)
      let out : List (List Byte) := match kind with
        | 0 => picked.map fun e => recBytes e.2
        | 1 => idx.map fun i => match v.bind fun v => tfind v.journal i with
          | some e => journalBytes c.pavilion e
          | none => List.replicate 64 0
        | 2 => idx.map fun i => match v.bind fun v => tfind v.norms i with
          | some (a, b, d, q) => pack [(4, a), (4, b), (4, d), (4, q)]
          | none => List.replicate 16 0
        | _ => recs.map fun e => shardNormBytes (tget s.ledger.norms e.1 {})
      let bytes := out.flatten
      s.checkAddr c 0 (w 0) (max 1 bytes.length) 64
      let t ← s.toBuffer c 0 (w 0) bytes 64
      .ok (t.finish c (pack [(4, out.length), (4, last - first)]))

def execLedgerQuery (id : Nat) (s : State) : Host.Outcome State Fault Refusal :=
  .next (s.startCmd id 0x0418 bodyLedgerQuery)

/-! ### LEDGER_REPAIR (R293) -/

/-- FORWARD, and the basic form on a SEALED step. -/
def State.repairForward (s : State) (c : Cmd) : State :=
  let (s, done, bad) := s.rollForward c.pavilion
  match bad with
  | [] => s.finish c []
  | n :: t =>
    let low := t.foldl min n
    let code := if bad.any s.ledger.unreadable.contains then 0x0290 else 0x0291
    s.fail c code (updaterPlace low) (low16 low) (pack [(4, done), (4, bad.length)])

/-- REVERT of the latest DONE step, or of the step that is pending: what of that has not committed returns to rest (R288,
R293; log 28). -/
def State.repairRevert (s : State) (c : Cmd) (v : Pav) : Chk State := do
  let p := c.pavilion
  let i := v.stepSeq % 16
  let low := BitVec.ofNat 32 v.stepSeq
  match tfind v.journal i, s.journalLost p v i with
  | none, _ => .error { code := 0x01C0, reason := 7 }
  | some _, some w => .ok (s.failMemory c w)
  | some e, none =>
    need ((e.state == 2 || v.sealing.isSome) && e.stepSeq == v.stepSeq) { code := 0x01C0, reason := 7 }
    -- a later staging has overwritten an old slot
    need (!((s.shardsOf p).any fun n => (s.shard n).sealSeq == low + 1)) { code := 0x01C0, reason := 7 }
    let todo := (s.shardsOf p).filter fun n => (s.shard n).sealSeq == low && (s.shard n).state == 4
    match todo.find? s.ledger.unreadable.contains, todo.findSome? fun n =>
        (s.badSlot (s.shard n) ((s.shard n).slotAddr !(s.shard n).cur)).map fun w => (n, w) with
    | some n, _ => .ok (s.recordLost c n)
    | none, some (n, w) => .ok ((s.memError w 1).fail c 0x0291 (updaterPlace n) (low16 n))
    | none, none =>
      let cut := v.sealing.bind fun x => x.cmd.bind s.cmd
      let s := s.modPav p fun v => { v with sealing := none, journal := tset v.journal i { e with state := 3 } }
      let s := if v.sealing.isSome then s.unseal p else s
      let s := forEach todo (fun s n =>
        let r := s.shard n
        let v' := r.version - 1
        let d := slotDigest n v'.toNat (s.readArrays r (r.slotAddr !r.cur))
        s.modShard n fun r => { r with
          cur := !r.cur, version := v', digest := d, gradNext := true, gradCur := false, state := 2
          mirrorPending := r.paired }) s
      -- a SHARD_UPDATE that waited for DONE ends without it
      let s := match cut with
        | some x => s.fail x 0x0291 (placeDie v.gateDie 2 0) 0xFFFF
        | none => s
      .ok (s.finish c [])

/-- REWRITE: install RECORD when its digest is that of the slot it names. A row that does not read back moves to a
spare row; whether it does is a free value (log 7). -/
def State.repairRewrite (s : State) (c : Cmd) (n : Nat) (r : Rec) : Chk State := do
  need (r.shardId == n && r.length != 0 && r.cols != 0 && r.length % r.cols == 0) (c.badParam 2)
  need (r.pavilion == c.pavilion) { code := 0x01C0, reason := 2 }
  let a := r.slotAddr r.cur
  match s.badSlot r a with
  | some w =>
    let old := s.shard n
    let current := old.valid && !s.ledger.unreadable.contains n && a == old.slotAddr old.cur
    .ok ((if current then s.slotLost n w else s.memError w 1).fail c 0x0291 (updaterPlace n) (low16 n))
  | none =>
    need ((s.badPavRange c.pavilion a (4096 * r.slotPages)).isNone
      && slotDigest n r.version.toNat (s.readArrays r a) == r.digest) { code := 0x01C0, reason := 6 }
    let die := n / 131072
    let used := tget s.ledger.spareUsed die 0
    let moved := s.ledger.unreadable.contains n && decide (used < 16) && Config.freeNat s.freeCtr % 2 == 1
    let s := s.bumpFree.modLedger fun l => { l with
      recs := tset l.recs n { r with valid := true, damaged := false, gradLost := false, remapped := r.remapped || moved }
      unreadable := l.unreadable.filter (· != n)
      spareUsed := if moved then tset l.spareUsed die (used + 1) else l.spareUsed }
    let s := if moved then s.postPav c.pavilion 0x0423 1 (updaterPlace n) (pack [(4, n), (1, 15 - used)]) else s
    let s := s.modPav c.pavilion fun v => { v with sealing := v.sealing.map fun (x : Sealing) => { x with pending := false } }
    .ok (s.finish c [])

/-- REDIGEST of the current slot. -/
def State.repairRedigest (s : State) (c : Cmd) (n : Nat) : State :=
  let r := s.shard n
  match s.badSlot r (r.slotAddr r.cur) with
  | some w => (s.slotLost n w).fail c 0x0291 (updaterPlace n) (low16 n)
  | none =>
    if slotDigest n r.version.toNat (s.readArrays r (r.slotAddr r.cur)) = r.digest then s.finish c (pack [(1, 0)])
    else ((s.modShard n fun r => { r with damaged := true }).shardDamaged c.pavilion n 2).finish c (pack [(1, 1)])

def bodyLedgerRepair (s : State) (c : Cmd) : Chk State := do
  let p := c.pavilion
  match s.pav p with
  | none => .error { code := 0x0106, off := 0 }
  | some v =>
    let isSealed := v.sealing.isSome || !(s.sealedAnyway p).isEmpty
    let forward := (if v.sealing.isSome then s else s.unseal p).repairForward c
    if !c.expert then .ok (if isSealed then forward else (s.unseal p).finish c [])
    else
      let act := bits (c.word 0) 7 0
      let n := bits (c.word 0) 51 32
      let r := s.shard n
      need (decide (1 ≤ act ∧ act ≤ 7)) (c.badParam 0)
      if act = 1 then do
        need isSealed (c.bad 0x01C0 0 8)
        .ok forward
      else if act = 2 then do
        need (!isSealed) (c.bad 0x01C0 0 8)
        .ok ((s.unseal p).finish c [])
      else if act = 3 then do
        need (v.sealing.all (·.pending)) { code := 0x01C0, reason := 5 }
        s.repairRevert c v
      else do
        let lost := s.ledger.unreadable.contains n
        if lost && act != 4 then .ok (s.recordLost c n)
        else
        need (lost || r.valid) (c.bad 0x01C0 0 1)
        need (lost || r.pavilion == p) (c.bad 0x01C0 0 2)
        -- R295 and the table of R316: a shard in migration, and FREEZE of a shard being updated
        need (lost || (!r.migrating && !(act == 6 && r.state == 3))) (c.bad 0x01C0 0 3)
        need (lost || r.version.toNat == bits (c.word 1) 15 0) (c.bad 0x01C0 1 4)
        match act with
        | 4 => s.repairRewrite c n (recOfBytes (unwords 8 (c.params.drop 2)))
        | 5 => .ok (s.repairRedigest c n)
        | 6 => .ok ((s.modShard n fun r => { r with frozen := true }).finish c [])
        | _ => .ok ((s.modShard n fun r => { r with frozen := false }).finish c [])

def execLedgerRepair (id : Nat) (s : State) : Host.Outcome State Fault Refusal :=
  .next (s.startCmd id 0x0419 bodyLedgerRepair)

end Sys2Proof.Machine
end

