-- ==== Sys2Proof/Machine/Reshape.lean ====
section
/-! DEFINITION. Sharding layouts and elastic reshape (R296 to R316). -/

namespace Sys2Proof.Machine

/-! ### Layout blocks (R298, R307, R314) -/

def parseMapEntry (b : List Byte) : MapEntry :=
  let x := leNat b
  { initAddr := bits x 255 192, pieceRows := bits x 191 160, pieces := bits x 159 128, cols := bits x 127 104
    layer := bits x 103 92, tensor := bits x 91 76, cls := bits x 75 74, form := bits x 73 72, slotTier := bitAt x 71
    gradTier := bitAt x 70 }

def parseHolder (b : List Byte) : Holder :=
  { pav := field b 6 1 % 16, device := field b 4 2, firstSlice := field b 0 4 }

/-- Strictly rising. -/
def rising : List Nat → Bool
  | a :: b :: t => decide (a < b) && rising (b :: t)
  | _ => true

def lay (ok : Bool) (reason : Nat) : Chk Unit := need ok { code := 0x01D1, reason := reason }

/-- Parse a layout block against LAYOUT_BYTES, for pavilion p of the module with DEVICE_ID `own`. -/
def parseLayout (data : List Byte) (nbytes own p : Nat) : Chk Layout := do
  let f := fun off n => field data off n
  let x := leNat (data.take 64)
  lay (f 0 4 == 0x54534C50 && f 4 1 == 1) 1
  lay (f 32 4 == nbytes && f 48 16 == digest128 (data.take 48 ++ List.replicate 16 0 ++ data.drop 64)) 2
  let (ho, mo, m, n) := (f 28 4, f 24 4, f 22 2, f 20 2)
  let slices := f 36 4
  lay (decide (1 ≤ m ∧ m ≤ 12800 ∧ 1 ≤ n ∧ 64 ≤ ho ∧ 64 ≤ mo ∧ ho + 8 * m ≤ nbytes ∧ mo + 32 * n ≤ nbytes ∧ 1 ≤ slices)
    && ho % 8 == 0 && mo % 32 == 0 && !overlaps ho (8 * m) mo (32 * n)) 3
  let holders := (chunks (data.drop ho) 8 m).map parseHolder
  let map := (chunks (data.drop mo) 32 n).map parseMapEntry
  let d := bits x 159 142
  let base := bits x 141 125
  let l : Layout :=
    { bytes := data, job := f 44 4, epoch := f 40 4, sliceCount := slices, holders := holders, map := map, perDie := d
      base := base }
  lay ((holders.map (·.firstSlice)).head? == some 0 && rising (holders.map (·.firstSlice))
    && (holders.all fun h => decide (h.firstSlice < slices ∧ h.device < 12800 ∧ h.pav < 8))
    && (holders.map (·.device)).eraseDups.length == m
    && (holders.all fun h => h.device != own || h.pav == p)) 4
  lay ((map.all fun e => decide (1 ≤ e.pieceRows ∧ 1 ≤ e.pieces ∧ 1 ≤ e.cols ∧ (e.cls = 1 ∨ e.cls = 2) ∧ e.form < 2))
    && decide (1 ≤ d ∧ d = cdiv (sumNat (map.map (·.pieces))) 8 ∧ base + d ≤ 131072)) 5
  lay (l.epoch != 0) 7
  .ok l

/-- Whether this module's position of the layout holds the owner slice of a shard. -/
def State.ownsIn (s : State) (l : Layout) (n : Nat) : Bool := (l.holderOf (l.owner n)).any fun x => x.device == s.ownId
/-- SHARD_IDs that this module holds under a layout, ascending. -/
def State.ownedShards (s : State) (l : Layout) : List Nat :=
  sortBy (fun a b => decide (a ≤ b)) ((l.shards.filter fun x => s.ownsIn l x.1).map (·.1))

/-- Rows of a piece, from a loaded image that holds the tensor. -/
def Pav.pieceRows (v : Pav) (e : MapEntry) (p : Nat) : Option Nat :=
  (v.handles.find? fun h => decide (e.tensor < h.2.image.tensors.length) && (h.2.image.tensor e.tensor).sharded).map fun h =>
    let t := h.2.image.tensor e.tensor
    min e.pieceRows (dim t.dims 1 * dim t.dims 2 * dim t.dims 3 - p * e.pieceRows)

/-- Checks of R307 beyond the block itself. -/
def State.layoutRelation (s : State) (p : Nat) (v : Pav) (l : Layout) (creates : Bool) : Chk Unit := do
  match v.reshape.active with
  | some a =>
    lay (l.job == a.job) 6
    lay (l.epoch == a.epoch + 1) 7
    lay (l.sliceCount == a.sliceCount && l.perDie == a.perDie && l.base == a.base && l.map == a.map) 8
  | none => .ok ()
  let imgs := (v.handles.map fun h => h.2.image).filter fun g => g.tensors.any (·.sharded)
  lay (imgs.all fun g => g.sliceCount == l.sliceCount && (g.mapFault l).isNone) 10
  lay (!creates || imgs.any fun g => (g.mapFault l).isNone) 10
  lay (!(s.ledger.recs.any fun e => e.2.valid && e.2.pavilion != p && decide (l.base ≤ e.1 % 131072 ∧ e.1 % 131072 < l.base + l.perDie))) 11

/-! ### Placing shards (R301, R306) -/

/-- Room in a tier, on the shard's own die where the pavilion has granules there. -/
def State.findRoomFor (s : State) (p n tier bytes : Nat) : Option Nat :=
  match s.findRoom p tier bytes 4096 fun a => tier == 0 && (addrUnit a).1 == n / 131072 with
  | some a => some a
  | none => s.findRoom p tier bytes 4096

/-- Allocate both slots and both gradient buffers of a record, zeroed. -/
def State.placeShard (s : State) (p : Nat) (r : Rec) (slotTier gradTier : Bool) : Option (Rec × State) :=
  let n := 8192 * r.slotPages
  let m := 8192 * pages (4 * r.length)
  match s.findRoomFor p r.shardId (b2n slotTier) n with
  | none => none
  | some a =>
    let s := (s.zeroMem a n).modPav p fun v => { v with allocs := v.allocs ++ [(a, n, 2)] }
    match s.findRoomFor p r.shardId (b2n gradTier) m with
    | none => none
    | some b =>
      let s := (s.zeroMem b m).modPav p fun v => { v with allocs := v.allocs ++ [(b, m, 3)] }
      some ({ r with slotPage := a / 4096, gradPage := b / 4096, pavilion := p }, s)

/-- Invalidate a record and free its memory. -/
def State.dropShard (s : State) (n : Nat) : State :=
  let r := s.shard n
  if !r.valid then s
  else
    let s := (s.freeMem r.pavilion (4096 * r.slotPage)).freeMem r.pavilion (4096 * r.gradPage)
    s.modLedger fun l => { l with
      recs := tdel l.recs n, norms := tdel l.norms n, nextNorms := tdel l.nextNorms n, hyper := tdel l.hyper n
      nextHyper := tdel l.nextHyper n, nextDigest := tdel l.nextDigest n, fresh := tdel l.fresh n, unreadable := l.unreadable.filter (· != n) }

/-- Map entry and piece: the record before its placement. -/
def newRecord (l : Layout) (n : Nat) (e : MapEntry) (rows : Nat) : Rec :=
  { length := rows * e.cols, cols := e.cols, tensor := e.tensor, slice := l.owner n, shardId := n, layer := e.layer
    valid := true, migrating := true, cls := e.cls, form := e.form }

/-- The initial contents of a shard in device memory, where its map entry gives any: first byte and bytes. -/
def Pav.initRange (v : Pav) (l : Layout) (n : Nat) : Option (Nat × Nat) :=
  match l.pieceOf n with
  | none => none
  | some (e, k) =>
    if e.initAddr = 0 then none
    else some (e.initAddr + 2 * k * e.pieceRows * e.cols, 2 * (v.pieceRows e k).getD e.pieceRows * e.cols)

/-- Create a shard (R306): HI from INIT_ADDR, everything else +0. -/
def State.createShard (s : State) (p : Nat) (v : Pav) (l : Layout) (n : Nat) : Option State :=
  match l.pieceOf n with
  | none => none
  | some (e, k) =>
    match s.placeShard p (newRecord l n e ((v.pieceRows e k).getD e.pieceRows)) e.slotTier e.gradTier with
    | none => none
    | some (r, s) =>
      let hi := match v.initRange l n with
        | none => List.replicate (2 * r.length) 0
        | some (a, len) => s.readMem a len
      let s := s.writeSlot r (r.slotAddr false) [hi]
      let d := slotDigest n 0 (s.readArrays r (r.slotAddr false))
      some ((s.modShard n fun _ => { r with digest := d }).modPav p fun v => { v with
        reshape := { v.reshape with arrived := v.reshape.arrived ++ [n] } })

/-- Create shards in turn, up to the first whose initial contents meet an uncorrectable code word (R305); a shard without
room is a rejection. -/
def State.createShards (s : State) (p : Nat) (v : Pav) (l : Layout) : List Nat → Chk (State × Option Nat)
  | [] => .ok (s, none)
  | n :: t => match (v.initRange l n).bind fun x => s.badRead x.1 x.2 with
    | some w => .ok (s, some w)
    | none => match s.createShard p v l n with
      | some s => s.createShards p v l t
      | none => .error { code := 0x01D1, reason := 12 }

/-- Shards held under the active layout, for reports. -/
def State.shardsHeld (s : State) (p : Nat) : Nat := ((s.shardsOf p).filter fun n => !(s.shard n).migrating).length

/-- Enter a reshape state with its event (R303). -/
def State.reshapeTo (s : State) (p st epoch : Nat) : State :=
  let s := s.modPav p fun v => { v with reshape := { v.reshape with state := st } }
  s.postPav p 0x0430 0 0xFFFF (pack [(4, epoch), (1, st), (3, 0), (4, s.shardsHeld p)])

/-! ### RESHAPE_BEGIN (R304, R305) -/

/-- The result of RESHAPE_BEGIN. -/
def State.reshapeResult (s : State) (v : Pav) : List Byte :=
  let x := v.reshape
  match x.pending with
  | none => []
  | some l => pack [(4, x.sent.length), (4, x.arrived.length), (8, x.bytesSent), (8, x.bytesReceived), (4, l.epoch),
      (4, (l.held s.ownId).2)]

/-- RESHAPE_BEGIN completes once every shard sent is acknowledged and every arrival is checked. -/
def State.reshapeCheck (s : State) (p : Nat) : State :=
  match s.pav p with
  | none => s
  | some v =>
    let x := v.reshape
    if x.state ≠ 1 ∨ !x.unacked.isEmpty ∨ !(x.expect.all x.arrived.contains) then s
    else match x.cmd.bind s.cmd with
      | none => s
      | some c =>
        let s := s.modPav p fun v => { v with reshape := { v.reshape with cmd := none } }
        (s.reshapeTo p 2 ((x.pending.map (·.epoch)).getD 0)).finish c (s.reshapeResult v)

/-- The bytes of a whole slot: each array filled with zeros to whole pages (R267, R268). -/
def State.slotBytes (s : State) (r : Rec) (b : Bool) : List Byte :=
  (s.readArrays r (r.slotAddr b)).flatMap fun l => fit (4096 * pages l.length) l
/-- The arrays of a slot from its bytes. -/
def arraysOf (r : Rec) (b : List Byte) : List (List Byte) :=
  (List.range 5).map fun k => slice b (r.arrayOff k) (r.arrays.getD k 0)

/-- Send one departing shard to its new holder. -/
def State.sendShard (s : State) (p : Nat) (l : Layout) (n : Nat) : State :=
  let r := s.shard n
  let b := s.slotBytes r r.cur
  match l.holderOf (l.owner n) with
  | none => s
  | some x =>
    let m : ShardMsg := { src := s.ownId, srcPav := p, rcd := r, slot := b, other := [], grad := [], hyper := [] }
    let s := s.trySend p x.device b.length 9 (.shard x.device 0 m)
    s.modPav p fun v => { v with reshape := { v.reshape with
      sent := addNew v.reshape.sent n, bytesSent := v.reshape.bytesSent + b.length } }

/-- A reshape command of the pavilion fails; the state stays as it is. -/
def State.reshapeFail (s : State) (p status place low : Nat) : State :=
  match (s.pav p).bind fun v => v.reshape.cmd.bind s.cmd with
  | none => s
  | some c => (s.modPav p fun v => { v with reshape := { v.reshape with cmd := none } }).fail c status place low

/-- A module of a reshape that cannot be reached (R316, log 29): one to which a shard goes that it has not acknowledged, or
from which a shard is still to come. -/
def State.peerGone (s : State) (v : Pav) : Option Nat :=
  let x := v.reshape
  let holder := fun (l : Option Layout) (n : Nat) => (l.bind fun l => l.holderOf (l.owner n)).map (·.device)
  (x.unacked.filterMap (holder x.pending) ++ (x.expect.filter fun n => !x.arrived.contains n).filterMap (holder x.active)).find?
    fun d => d != s.ownId && !s.reaches d

/-- End the RESHAPE_BEGINs of which a module has failed. -/
def State.reshapePeers (s : State) : State :=
  forEach (List.range 8) (fun s p => match s.pav p with
    | none => s
    | some v => match (if v.reshape.state = 1 then s.peerGone v else none) with
      | some d => s.reshapeFail p 0x0205 (placeHub 0 6 0) d
      | none => s) s

/-- Send departing shards in turn (R305), up to one that cannot be sent: its new holder cannot be reached, its slot is
unreadable, or under VERIFY_SOURCE does not match its DIGEST. The transfer ends, and in the last two cases the shard is
damaged (R288, R316). -/
def State.sendShards (s : State) (p : Nat) (l : Layout) (verify : Bool) : List Nat → State
  | [] => s.reshapeCheck p
  | n :: t =>
    let r := s.shard n
    let stop := fun (s : State) => s.reshapeFail p 0x0291 (updaterPlace n) (low16 n)
    match (l.holderOf (l.owner n)).filter fun x => !s.reaches x.device with
    | some x => s.reshapeFail p 0x0205 (placeHub 0 6 0) x.device
    | none => match s.badSlot r (r.slotAddr r.cur) with
    | some w => stop (s.slotLost n w)
    | none =>
      if verify && slotDigest n r.version.toNat (s.readArrays r (r.slotAddr r.cur)) != r.digest then
        stop ((s.modShard n fun r => { r with damaged := true }).shardDamaged p n 2)
      else (s.sendShard p l n).sendShards p l verify t

def bodyReshapeBegin (s : State) (c : Cmd) : Chk State := do
  let p := c.pavilion
  let w := c.word
  match s.pav p with
  | none => .error { code := 0x0106, off := 0 }
  | some v =>
    need (v.reshape.state == 0) { code := 0x01D0, reason := 1 }
    need v.atBoundary { stReject 0x0108 0xFF with defer := true }
    let n := bits (w 1) 31 0
    let ms := if c.expert then bits (w 2) 63 32 else 0
    need (ms == 0 || decide (1000 ≤ ms ∧ ms ≤ 3600000)) (c.badParam 2)
    s.checkAddr c 0 (w 0) (max n 64) 64
    match s.badRead (w 0) (max n 64) with
    | some x => .ok (s.failMemory c x)
    | none =>
      let l ← parseLayout (s.readMem (w 0) n) n s.ownId p
      let creates := v.reshape.active.isNone && l.epoch == 1
      s.layoutRelation p v l creates
      let owned := s.ownedShards l
      -- INIT_ADDR is read for the tensors of which shards are created here
      let inits := if !creates then [] else
        (l.map.filter fun e => e.initAddr != 0 && owned.any fun k => (l.pieceOf k).any fun x => x.1.tensor == e.tensor).map
          fun e =>
            let rows := sumNat ((List.range e.pieces).map fun k => (v.pieceRows e k).getD e.pieceRows)
            (e.initAddr, 2 * rows * e.cols)
      inits.forM fun x => s.checkAddr c 0 x.1 x.2 1
      let mine := (s.shardsOf p).filter fun k => !(s.shard k).migrating
      let leaving := if v.reshape.active.isNone then [] else mine.filter fun k => !s.ownsIn l k
      need (!(leaving.any fun k => (s.shard k).damaged)) { code := 0x01D0, reason := 7 }
      let coming := if creates then [] else owned.filter fun k => !(v.reshape.active.any fun a => s.ownsIn a k)
      -- room for what arrives or is created
      let need_ := fun (tier : Nat) => sumNat ((if creates then owned else coming).map fun k => match l.pieceOf k with
        | none => 0
        | some (e, _) =>
          let r := newRecord l k e e.pieceRows
          (if b2n e.slotTier = tier then 8192 * r.slotPages else 0) + if b2n e.gradTier = tier then 8192 * pages (4 * r.length) else 0)
      lay (decide (need_ 0 ≤ s.room v 0 ∧ need_ 1 ≤ s.room v 1)) 12
      -- every paired departing shard waits for its twin (R305 step 3)
      if leaving.any fun k => (s.shard k).paired && (s.shard k).mirrorPending then .ok s
      else
        let s := s.started c
        let s := s.modRun p fun r => { r with endAtStep := true }
        let s := forEach leaving (fun s k => s.modShard k fun r => { r with
          migrating := true, gradNext := false, gradCur := false, staged := false, state := 0 }) s
        let s := s.modPav p fun v => { v with reshape := { v.reshape with
          pending := some l, cmd := some c.serial, startedAt := s.clock, transferMs := if ms = 0 then 60000 else ms
          sent := [], unacked := leaving, expect := coming, arrived := [], retried := [], bytesSent := 0, bytesReceived := 0 } }
        let s := s.reshapeTo p 1 l.epoch
        let (s, bad) ← s.createShards p v l (if creates then owned else [])
        match bad with
        | some x => .ok ((s.modPav p fun v => { v with reshape := { v.reshape with cmd := none } }).failMemory c x)
        | none => .ok (s.sendShards p l (c.expert && bitAt (c.word 2) 0) leaving)

/-- RESHAPE_BEGIN waits for DONE of a sealed step (R295, R305). -/
def execReshapeBegin (id : Nat) (s : State) : Host.Outcome State Fault Refusal :=
  if ((s.cmd id).any fun c => c.opcode == 0x0430 && (s.pav c.pavilion).any fun v => v.sealing.isSome && v.reshape.state == 0) then
    .next s
  else .next (s.startCmd id 0x0430 bodyReshapeBegin)

/-- Give an arriving record its place and contents (R306): none when no free range is large enough; otherwise whether its
digest holds. -/
def State.receiveShard (s : State) (p : Nat) (l : Layout) (m : ShardMsg) : Option (State × Bool) :=
  match l.pieceOf m.rcd.shardId with
  | none => none
  | some (e, _) =>
    let r0 : Rec := { m.rcd with
      state := 0, gradNext := false, gradCur := false, staged := false, damaged := false, gradLost := false
      mirrorPending := false, paired := false, remapped := false, valid := true, twinVersion := 0 }
    let arrays := arraysOf r0 m.slot
    if slotDigest r0.shardId r0.version.toNat arrays ≠ r0.digest then some (s, false)
    else (s.placeShard p r0 e.slotTier e.gradTier).map fun (r, s) =>
      ((s.writeSlot r (r.slotAddr r.cur) arrays).modShard r.shardId fun _ => r, true)

/-- SHARD_ARRIVAL (R305, R306). -/
def execShardArrival (p : Fin 8) (m : ShardMsg) (s : State) : Host.Outcome State Fault Refusal :=
  match if s.shut p.val then none else s.pav p.val with
  | none => .next s
  | some v => match v.reshape.pending with
    | none => .next s
    | some l =>
      let n := m.rcd.shardId
      let x := v.reshape
      if x.state ≠ 1 ∨ x.cmd.isNone ∨ !x.expect.contains n ∨ x.arrived.contains n then .next s
      else match s.receiveShard p.val l m with
        -- no memory for an arriving shard (R314): the command ends, and the state stays OPEN
        | none => .next (match x.cmd.bind s.cmd with
          | some c => (s.modPav p.val fun v => { v with reshape := { v.reshape with cmd := none } }).reject c
              { code := 0x01D1, reason := 12 }
          | none => s)
        | some (s, true) =>
          let s := s.modPav p.val fun v => { v with reshape := { v.reshape with
            arrived := v.reshape.arrived ++ [n], bytesReceived := v.reshape.bytesReceived + m.slot.length } }
          .next ((s.trySend p.val m.src 32 9 (.shardAckSent m.src n true)).reshapeCheck p.val)
        | some (s, false) =>
          if x.retried.contains n then .next (s.reshapeFail p.val 0x02A0 (updaterPlace n) (low16 n))
          else
            let s := s.modPav p.val fun v => { v with reshape := { v.reshape with retried := v.reshape.retried ++ [n] } }
            .next (s.trySend p.val m.src 32 9 (.shardAckSent m.src n false))

/-- RESHAPE_SHARD_ACK: the receiver has checked a shard, or asks for it once more. -/
def execReshapeShardAck (p : Fin 8) (shard : Nat) (ok : Bool) (s : State) : Host.Outcome State Fault Refusal :=
  match if s.shut p.val then none else s.pav p.val with
  | none => .next s
  | some v => match v.reshape.pending with
    | none => .next s
    | some l =>
      if v.reshape.state ≠ 1 ∨ v.reshape.cmd.isNone ∨ !v.reshape.unacked.contains shard then .next s
      else if ok then
        let s := s.modPav p.val fun v => { v with reshape := { v.reshape with
          unacked := v.reshape.unacked.filter (· != shard) } }
        .next (s.reshapeCheck p.val)
      else .next (s.sendShards p.val l false [shard])

/-- RESHAPE_TRANSFER_TIMEOUT (R316). -/
def execReshapeTransferTimeout (p : Fin 8) (s : State) : Host.Outcome State Fault Refusal :=
  match s.pav p.val with
  | none => .next s
  | some v =>
    let x := v.reshape
    if x.state = 1 ∧ x.cmd.isSome ∧ x.startedAt + x.transferMs * 1000000 ≤ s.clock then
      .next (s.reshapeFail p.val 0x0201 0xFFFF 0xFFFF)
    else .next s

/-! ### RESHAPE_COMMIT, RESHAPE_ABORT, RESHAPE_RELEASE (R308 to R311) -/

/-- The commit takes effect. -/
def State.reshapeCommit (s : State) (p : Nat) (c : Cmd) : State :=
  match s.pav p with
  | none => s
  | some v => match v.reshape.pending with
    | none => s
    | some l =>
      let x := v.reshape
      let s := forEach x.arrived (fun s n => s.modShard n fun r => { r with migrating := false }) s
      let s := s.modPav p fun v => { v with
        capacityDue := true
        reshape := { x with
          previous := x.active, active := some l, pending := none, commitAt := none, jobStep := 0
          previousStep := x.jobStep, sealedInEpoch := false } }
      let s := s.reshapeTo p 3 l.epoch
      let (f, n) := l.held s.ownId
      s.finish c (pack [(4, l.epoch), (4, f), (4, n), (4, s.shardsHeld p), (8, s.now)])

def bodyReshapeCommit (s : State) (c : Cmd) : Chk State := do
  let p := c.pavilion
  match s.pav p with
  | none => .error { code := 0x0106, off := 0 }
  | some v =>
    let x := v.reshape
    need (x.state != 1) { code := 0x01D0, reason := 5 }
    need (x.state == 2 && x.commitAt.isNone) { code := 0x01D0, reason := 1 }
    need ((x.pending.map (·.epoch)) == some (bits (c.word 0) 63 32)) (c.bad 0x01D0 0 3)
    let at_ := if c.expert then c.word 1 else 0
    if at_ = 0 then .ok (s.reshapeCommit p c)
    else
      need s.timeOn (c.bad 0x01F0 1 1)
      need (decide (s.now ≤ at_)) (c.bad 0x01D0 1 6)
      .ok ((s.started c).modPav p fun v => { v with reshape := { v.reshape with commitAt := some (c.serial, at_) } })

def execReshapeCommit (id : Nat) (s : State) : Host.Outcome State Fault Refusal :=
  .next (s.startCmd id 0x0431 bodyReshapeCommit)

/-- RESHAPE_COMMIT_AT: building time reaches AT_TIME. -/
def execReshapeCommitAt (p : Fin 8) (s : State) : Host.Outcome State Fault Refusal :=
  match (s.pav p.val).bind fun v => v.reshape.commitAt with
  | none => .next s
  | some (id, t) =>
    match s.cmd id with
    | none => .next s
    | some c => .next (if t ≤ s.now then s.reshapeCommit p.val c else s)

/-- Return to the old layout (R310): the records discarded. Commands in progress end with `status`. -/
def State.reshapeAbort (s : State) (p status : Nat) (cause : Option Cmd) : State × Nat :=
  match s.pav p with
  | none => (s, 0)
  | some v =>
    let x := v.reshape
    let s := forEach ([x.cmd, x.commitAt.map (·.1)].filterMap id) (fun s id => match s.cmd id with
      | some c => s.abort c status (pavTarget p) cause
      | none => s) s
    let s := forEach x.arrived (fun s n => s.dropShard n) s
    let s := forEach (s.shardsOf p) (fun s n => s.modShard n fun r => { r with migrating := false }) s
    let back := if x.state = 3 then x.previous else x.active
    let s := s.modPav p fun v => { v with reshape := { state := x.state, active := back
                                                       jobStep := if x.state = 3 then x.previousStep else x.jobStep
                                                       sealedInEpoch := x.state != 3 && x.sealedInEpoch } }
    let gone := if x.state = 3 then x.active else x.pending
    (s.reshapeTo p 0 ((gone.map (·.epoch)).getD 0), x.arrived.length)

/-- Whether RESHAPE_ABORT is permitted: none, or the REASON against it. -/
def Pav.abortReason (v : Pav) : Option Nat :=
  if v.reshape.state = 0 then some 1 else if v.reshape.state = 3 ∧ v.reshape.sealedInEpoch then some 4 else none

def bodyReshapeAbort (s : State) (c : Cmd) : Chk State := do
  let p := c.pavilion
  match s.pav p with
  | none => .error { code := 0x0106, off := 0 }
  | some v => match v.abortReason with
    | some r => .error { code := 0x01D0, reason := r }
    | none =>
      need v.atBoundary { stReject 0x0108 0xFF with defer := true }
      let (s, n) := s.reshapeAbort p 0x0303 (some c)
      let epoch := ((s.pav p).bind fun v => v.reshape.active.map (·.epoch)).getD 0
      .ok (s.finish c (pack [(4, epoch), (4, n)]))

def execReshapeAbort (id : Nat) (s : State) : Host.Outcome State Fault Refusal :=
  .next (s.startCmd id 0x0432 bodyReshapeAbort)

def bodyReshapeRelease (s : State) (c : Cmd) : Chk State := do
  let p := c.pavilion
  match s.pav p with
  | none => .error { code := 0x0106, off := 0 }
  | some v =>
    need (v.reshape.state == 3) { code := 0x01D0, reason := 1 }
    need ((v.reshape.active.map (·.epoch)) == some (bits (c.word 0) 63 32)) (c.bad 0x01D0 0 3)
    let gone := (s.shardsOf p).filter fun n => (s.shard n).migrating
    let s := forEach gone (fun s n => s.dropShard n) s
    let s := s.modPav p fun v => { v with reshape := { v.reshape with
      previous := none, sent := [], unacked := [], expect := [], arrived := [], retried := [] } }
    .ok ((s.reshapeTo p 0 (bits (c.word 0) 63 32)).finish c (pack [(4, gone.length)]))

def execReshapeRelease (id : Nat) (s : State) : Host.Outcome State Fault Refusal :=
  .next (s.startCmd id 0x0433 bodyReshapeRelease)

/-! ### LAYOUT_QUERY (R313) -/

def bodyLayoutQuery (s : State) (c : Cmd) : Chk State := do
  match s.pav c.pavilion with
  | none => .error { code := 0x0106, off := 0 }
  | some v =>
    let x := v.reshape
    let a := x.active
    let (f, n) := (a.map fun l => l.held s.ownId).getD (0, 0)
    let head := pack [(4, (a.map (·.job)).getD 0), (4, (a.map (·.epoch)).getD 0), (4, f), (4, n),
      (4, s.shardsHeld c.pavilion), (1, x.state), (3, 0), (4, (x.pending.map (·.epoch)).getD 0),
      (4, (a.map (·.holders.length)).getD 0)]
    if !c.expert then .ok (s.finish c head)
    else
      let l := ((if bitAt (c.word 1) 0 then x.pending else a).map (·.bytes)).getD []
      let s ← s.toBuffer c 0 (c.word 0) l 1
      .ok (s.finish c (head ++ pack [(4, l.length)]))

def execLayoutQuery (id : Nat) (s : State) : Host.Outcome State Fault Refusal :=
  .next (s.startCmd id 0x0434 bodyLayoutQuery)

end Sys2Proof.Machine
end

