-- ==== Sys2Proof/Machine/Collective.lean ====
section
/-! DEFINITION. The collectives of a running program (R351 to R361): GATHER_SHARDS, REDUCE_SCATTER, their messages,
credit and endings. -/

namespace Sys2Proof.Machine

/-! ### Shards of a tensor (R298, R299) -/

/-- The shards of a tensor of the map, with their pieces. -/
def Layout.tensorShards (l : Layout) (tensor : Nat) : List (Nat × Nat) :=
  (l.shards.filter fun x => (l.map[x.2.1]?).any fun m => m.tensor == tensor).map fun x => (x.1, x.2.2)
def Layout.entryOf (l : Layout) (tensor : Nat) : Option MapEntry := l.map.find? fun m => m.tensor == tensor
/-- Elements of piece k. -/
def pieceElems (m : MapEntry) (d : List Nat) (k : Nat) : Nat :=
  min m.pieceRows (dim d 1 * dim d 2 * dim d 3 - k * m.pieceRows) * m.cols
/-- Coordinates of element e of piece k. -/
def pieceCoord (m : MapEntry) (d : List Nat) (k e : Nat) : Coord :=
  let row := k * m.pieceRows + e / m.cols
  (e % m.cols, row % dim d 1, row / dim d 1 % dim d 2, row / dim d 1 / dim d 2)

/-- The SHARDED PARAMETER whose shards an operation gathers or keeps. -/
def Image.collTensor (g : Image) (o : Op) : Nat := if o.code = 0x30 then o.a else (g.tensor o.out).owner

/-- Element e of a message: consecutive, or every eighth of a stripe (R357). -/
def msgElem (m : CollMsg) (k : Nat) : Nat := m.elemOffset + if m.stripe = 0 then k else 8 * k

/-! ### Sending with credit (R354) -/

def creditLimit : Nat := 4194304
def elemBytes (type : Nat) : Nat := if type = 0x22 then 2 else 4
/-- Bytes of a message: packet header, collective header and data (R331, R352). -/
def collBytes (type : Nat) (m : CollMsg) : Nat := 32 + elemBytes type * m.data.length

def State.modColl (s : State) (p op : Nat) (f : Coll → Coll) : State :=
  s.modPav p fun v => { v with colls := v.colls.map fun (c : Coll) => if c.op = op then f c else c }
def State.dropColl (s : State) (p op : Nat) : State :=
  s.modPav p fun v => { v with colls := v.colls.filter fun (c : Coll) => c.op != op }
def State.coll (s : State) (p op : Nat) : Option Coll := (s.pav p).bind fun v => v.colls.find? fun c => c.op == op

/-- Send what credit allows, in order for each receiver. -/
def State.flushColl (s : State) (p op : Nat) : State :=
  match s.coll p op with
  | none => s
  | some c =>
    let (s, rest, un) := c.outbox.foldl (fun (a : State × List (Nat × Nat × CollMsg) × List (Nat × Nat × Nat × Nat)) x =>
      let (s, rest, un) := a
      let n := collBytes x.2.1 x.2.2
      let used := sumNat ((un.filter fun u => u.1 == x.1).map fun u => u.2.2.2)
      if (rest.any fun y => y.1 == x.1) || decide (creditLimit < used + n) then (s, rest ++ [x], un)
      else (s.trySend p x.1 n (x.2.1 - 0x20) (.coll x.1 x.2.1 x.2.2), rest, un ++ [(x.1, x.2.2.shard, x.2.2.elemOffset, n)]))
      (s, [], c.unacked)
    let moved := decide (rest.length < c.outbox.length)
    s.modColl p op fun c => { c with outbox := rest, unacked := un, lastMsg := if moved then s.clock else c.lastMsg }

/-- Cut elements into messages of a TYPE's packet size (R352). -/
def cutData (limit : Nat) : Nat → Nat → List Nat → List (Nat × List Nat)
  | 0, _, _ => []
  | n + 1, off, l => match l with
    | [] => []
    | l => (off, l.take limit) :: cutData limit n (off + limit) (l.drop limit)

/-! ### Ending (R361) -/

/-- End a collective with causes 1 to 5: the run completes with ST_FAIL_PEER. -/
def State.failColl (s : State) (p op cause peer : Nat) : State :=
  (s.endColl p op cause peer).endRun p 0x0205 (placeHub 0 6 0 * 65536 + peer % 65536) none

/-! ### Reduce-scatter (R193, R272, R355, R356) -/

/-- Fold this module's slices onto a running sum, element by element in ascending slice. -/
def State.foldSlices (s : State) (v : Pav) (hd : Nat) (h : Handle) (t : Nat) (m : MapEntry) (k : Nat)
    (es : List (Nat × Nat)) : List Nat :=
  let g := h.image
  let held := s.heldSlices v g
  es.map fun e => held.foldl (fun acc sl => add32 acc (s.codeAt v hd h t sl (pieceCoord m (g.dims t) k e.1))) e.2

/-- The ranges of the elements of a message in an array of `size` bytes an element: consecutive elements are one range. -/
def msgRanges (m : CollMsg) (base size : Nat) : List (Nat × Nat) :=
  if m.stripe = 0 then [(base + size * m.elemOffset, size * m.data.length)]
  else (List.range m.data.length).map fun i => (base + size * msgElem m i, size)

/-- Place final sums into the gradient buffer of an own shard. A write that covers an uncorrectable code word in part meets
it, and the run ends (R224, R225). -/
def State.placeSums (s : State) (p op n : Nat) (m : CollMsg) : State :=
  let r := s.shard n
  let rs := msgRanges m (r.gradAddr r.nextBuf) 4
  match s.badUnder rs with
  | some w => s.failRunMemory p w
  | none =>
    let s := forEach ((List.range m.data.length).zip m.data) (fun s x =>
      s.writeMem (r.gradAddr r.nextBuf + 4 * msgElem m x.1) (leBytes 4 x.2)) (s.renew rs)
    s.modColl p op fun c => { c with placed := c.placed ++ [(n, m.elemOffset, m.data.length, m.stripe)] }

/-- Pass folded sums on: to the next position, or from the last position to the shard's holder. -/
def State.passOn (s : State) (p op : Nat) (v : Pav) (l : Layout) (n off stripe : Nat) (data : List Nat) : State :=
  let own := s.ownId
  let j := (l.pos own).getD 0
  let msg : CollMsg := { collMsg own v l op n off 0 data with stripe := stripe }
  match l.holders[j + 1]? with
  | some x => s.modColl p op fun c => { c with outbox := c.outbox ++ [(x.device, 0x20, { msg with nextSlice := x.firstSlice })] }
  | none => match l.holderOf (l.owner n) with
    | none => s
    | some x =>
      if x.device = own then s.placeSums p op n msg
      else s.modColl p op fun c => { c with outbox := c.outbox ++ [(x.device, 0x21, msg)] }

/-- Elements covered by a list of pieces of a shard. -/
def coveredIn (l : List (Nat × Nat × Nat × Nat)) (n : Nat) : Nat := sumNat ((l.filter fun x => x.1 == n).map fun x => x.2.2.1)

/-- NaNs of the reduced shards, one for each tile of OUT that holds one, in tile order (R173, R175, R177). -/
def State.reduceNans (s : State) (v : Pav) (hd : Nat) (h : Handle) (op : Nat) (m : MapEntry) (mine : List (Nat × Nat)) :
    List TrapInfo :=
  let g := h.image
  let o := g.op op
  let t := g.tensor o.out
  let d := g.dims o.out
  let cells := mine.flatMap fun x => (List.range (pieceElems m d x.2)).map fun e => pieceCoord m d x.2 e
  let bad := cells.filter fun c => isNan32 (s.codeAt v hd h o.out 0 c)
  let tile := fun (c : Coord) => (c.2.2.2, c.2.2.1, c.2.1 / t.tileRows, c.1 / t.tileCols)
  let before := fun (a b : Nat × Nat × Nat × Nat) =>
    decide (a.1 < b.1 ∨ (a.1 = b.1 ∧ (a.2.1 < b.2.1 ∨ (a.2.1 = b.2.1 ∧ (a.2.2.1 < b.2.2.1 ∨ (a.2.2.1 = b.2.2.1 ∧ a.2.2.2 ≤ b.2.2.2))))))
  let tiles := sortBy before (bad.map tile).eraseDups
  tiles.filterMap fun k =>
    let here := bad.filter fun c => tile c == k
    match here with
    | [] => none
    | a :: rest =>
      let c := rest.foldl (fun (x y : Coord) => if y.2.1 < x.2.1 ∨ (y.2.1 = x.2.1 ∧ y.1 < x.1) then y else x) a
      some { op := op, layer := o.layer, source := 6, place := placeHub 0 6 0, perSlice := false, slice := 0
             row := k.2.2.1, col := k.2.2.2, c2 := k.2.1, c3 := k.1, er := c.2.1 % t.tileRows, ec := c.1 % t.tileCols
             cause := (s.heldSlices v g).any fun sl => isNan32 (s.codeAt v hd h o.a sl c) }

/-- A collective finishes on this module when its conditions hold (R356, R358). -/
def State.collCheck (s : State) (p op : Nat) : State :=
  if (s.coll p op).any fun c => c.done && c.outbox.isEmpty && c.unacked.isEmpty then s.dropColl p op
  else match s.runOf p, s.coll p op with
  | some (v, r, h), some c => match v.reshape.active with
    | none => s
    | some l =>
      let g := h.image
      let o := g.op op
      match l.entryOf (g.collTensor o) with
      | none => s
      | some m =>
        let shards := l.tensorShards (g.collTensor o)
        let mine := shards.filter fun x => s.ownsIn l x.1
        let d := g.dims o.a
        let full := fun (ps : List (Nat × Nat × Nat × Nat)) (x : Nat × Nat) => coveredIn ps x.1 == pieceElems m d x.2
        if c.done then s
        else if c.reduce then
          if !c.outbox.isEmpty || !c.unacked.isEmpty || !(shards.all (full c.folded)) || !(mine.all (full c.placed)) then s
          else
            let s := forEach mine (fun s x => s.modShard x.1 fun r =>
              if r.state = 1 then { r with state := 2, gradNext := true } else r) (s.dropColl p op)
            let nans := s.reduceNans v r.handle h op m mine
            let s := (if r.nanRunOn then nans else nans.take 1).foldl (fun s x => s.nanFound p x) s
            if nans.isEmpty || r.nanRunOn then s.finishOp p op else s
        else if shards.all (full c.placed) then
          let s := if c.outbox.isEmpty && c.unacked.isEmpty then s.dropColl p op
            else s.modColl p op fun c => { c with done := true }
          s.finishOp p op
        else s
  | _, _ => s

/-! ### Gathering (R252, R358) -/

/-- The gather window of R252. -/
def Run.windowAllows (r : Run) (g : Image) (held : List Nat) (i : Nat) : Bool :=
  let o := g.op i
  let n := max 1 r.stages
  let ls := (g.ops.filter g.perSlice).map (·.layer)
  let inRange := ls.any (fun x => decide (x ≤ o.layer)) && ls.any fun x => decide (o.layer ≤ x)
  if r.gatherAhead = 0 ∨ !inRange then true
  else
    let j := g.stageOf n o.layer
    let left := fun (ph : Bool) => ((g.stepOps r.first).filter fun k =>
      g.perSlice (g.op k) && (g.op k).phase == ph && g.stageOf n (g.op k).layer == j && !r.finished.contains k
        && !held.isEmpty).map fun k => (g.op k).layer
    let fwd := left false
    let bwd := left true
    if !o.phase then fwd.isEmpty || decide (o.layer ≤ fwd.foldl min 4096 + r.gatherAhead)
    else (fwd.all fun x => decide (o.layer ≤ x + r.gatherAhead))
      && (bwd.isEmpty || decide (bwd.foldl max 0 ≤ o.layer + r.gatherAhead))

/-- Coordinates of a DEVICE_ID in the torus (R331): along X, Y and Z. -/
def torus (id : Nat) : Nat × Nat × Nat := (id % 8, id / 8 % 32, id / 256)
/-- The numbers form an arc of a ring of n. -/
def isArc (n : Nat) (l : List Nat) : Bool := l.any fun a => (List.range l.length).all fun i => l.contains ((a + i) % n)
/-- The positions exactly fill an axis-aligned box of the torus (R358). -/
def Layout.isBox (l : Layout) : Bool :=
  let ids := l.holders.map (·.device)
  let axis := fun (f : Nat → Nat) => (ids.map f).eraseDups
  let (xs, ys, zs) := (axis (torus · |>.1), axis (torus · |>.2.1), axis (torus · |>.2.2))
  (ids.all fun i => decide (i < 10240)) && ids.length == xs.length * ys.length * zs.length
    && isArc 8 xs && isArc 32 ys && isArc 40 zs

/-- Where a module passes the pieces of a shard held by module o on to (R358): in a box the gather runs along Z, then Y,
then X, and every module relays what it received in earlier stages; else it runs along the chain both ways. -/
def Layout.gatherNext (l : Layout) (o m : Nat) : List Nat :=
  if l.isBox then
    let (ox, oy, _) := torus o
    let (x, y, z) := torus m
    let along := fun (f : Nat × Nat × Nat → Bool) => (l.holders.map (·.device)).filter fun d => d != m && f (torus d)
    let inZ := along fun c => c.1 == x && c.2.1 == y
    let inY := along fun c => c.1 == x && c.2.2 == z
    let inX := along fun c => c.2.1 == y && c.2.2 == z
    if m = o then inZ ++ inY ++ inX else if ox = x ∧ oy = y then inY ++ inX else if ox = x then inX else []
  else match l.pos o, l.pos m with
    | some i, some j =>
      ((if i ≤ j then l.holders[j + 1]? else none).toList ++ (if j ≤ i ∧ 0 < j then l.holders[j - 1]? else none).toList).map
        (·.device)
    | _, _ => []

/-- Write gathered elements into OUT, and pass them on. A write that covers an uncorrectable code word in part meets it, and
the run ends (R224, R225). -/
def State.placePiece (s : State) (p op hd : Nat) (h : Handle) (l : Layout) (m : MapEntry) (k : Nat) (x : CollMsg) : State :=
  let g := h.image
  let o := g.op op
  let own := s.ownId
  let cell := fun (i : Nat) => pieceCoord m (g.dims o.out) k (msgElem x i)
  let rs := if s.mem.bad.isEmpty then [] else match s.pav p with
    | none => []
    | some v => (List.range x.data.length).filterMap fun i => match s.place v h o.out 0 (cell i) with
      | .mem a b _ => some (a, max 1 (b / 8))
      | _ => none
  match s.badUnder rs with
  | some w => s.failRunMemory p w
  | none =>
    let s := forEach ((List.range x.data.length).zip x.data) (fun s e => s.putCode p hd h o.out 0 (cell e.1) e.2) (s.renew rs)
    let next := ((l.holderOf (l.owner x.shard)).map fun q => l.gatherNext q.device own).getD []
    s.modColl p op fun c => { c with
      placed := c.placed ++ [(x.shard, x.elemOffset, x.data.length, x.stripe)]
      outbox := c.outbox ++ next.map fun d => (d, 0x22, { x with src := own }) }

/-! ### Messages -/

/-- What a message does to the operation it belongs to. -/
def State.takeMsg (s : State) (p type : Nat) (x : CollMsg) : State :=
  match s.runOf p, s.coll p x.opIndex with
  | some (v, r, h), some c => match v.reshape.active with
    | none => s
    | some l =>
      let g := h.image
      let o := g.op x.opIndex
      match l.entryOf (g.collTensor o), (l.tensorShards (g.collTensor o)).find? fun y => y.1 == x.shard with
      | some m, some (n, k) =>
        let own := s.ownId
        let first := (l.held own).1
        let seen := fun (ps : List (Nat × Nat × Nat × Nat)) => ps.any fun y =>
          y.1 == n && y.2.1 == x.elemOffset && y.2.2.2 == x.stripe
        let half := placeHub 0 6 0
        let s := (s.count (ctrId half 6 (2 * (type - 0x20) + 1)) (collBytes type x)).modColl p x.opIndex fun c => { c with
          lastMsg := s.clock }
        let ack := fun (s : State) => s.trySend p x.src 32 3 (.coll x.src 0x23 { x with src := own, data := [] })
        if type = 0x20 then
          if x.nextSlice ≠ first then s.failColl p x.opIndex 4 x.src
          else if !c.reduce || seen c.folded then s
          else
            let es := (List.range x.data.length).map fun i => (msgElem x i, nth x.data i)
            let sums := s.foldSlices v r.handle h o.a m k es
            let s := (ack s).modColl p x.opIndex fun c => { c with
              folded := c.folded ++ [(n, x.elemOffset, x.data.length, x.stripe)] }
            ((s.passOn p x.opIndex v l n x.elemOffset x.stripe sums).flushColl p x.opIndex).collCheck p x.opIndex
        else if type = 0x21 then
          if !c.reduce || seen c.placed || !s.ownsIn l n then s
          else ((ack s).placeSums p x.opIndex n x).collCheck p x.opIndex
        else
          if c.reduce || seen c.placed then s
          else (((ack s).placePiece p x.opIndex r.handle h l m k x).flushColl p x.opIndex).collCheck p x.opIndex
      | _, _ => s
  | _, _ => s

/-- The relay of a striped hand-over (R357): it copies the stripe across to the module at its own X offset in the
receiver's X ring, and that module copies it to the receiver. None for a message that this module does not relay. -/
def State.relayTo (s : State) (l : Layout) (type : Nat) (x : CollMsg) : Option Nat :=
  let own := s.ownId
  if type ≠ 0x20 ∨ x.stripe = 0 ∨ x.nextSlice = (l.held own).1 then none
  else (l.holders.find? fun y => y.firstSlice == x.nextSlice).map fun y =>
    let (_, qy, qz) := torus y.device
    let (ox, oy, oz) := torus own
    if oy = qy ∧ oz = qz then y.device else ox + 8 * qy + 256 * qz

/-- JOB_ID and EPOCH of a message are those of the layout (R309). -/
def Layout.takes (l : Layout) (x : CollMsg) : Bool := x.job == l.job && x.epoch == l.epoch

/-- A data message arrives. One of another JOB_ID or EPOCH ends the operation on both ends (R309): at once, or when this
module starts it in the run in progress. A message ahead of its operation is held (R354), and a stripe of another hand-over
is passed on (R357). -/
def State.collArrive (s : State) (p type : Nat) (x : CollMsg) : State :=
  match if s.shut p then none else s.pav p with
  | none => s
  | some v => match v.reshape.active with
    | none => s
    | some l =>
      let active := v.colls.any fun c => c.op == x.opIndex && !c.done
      let ahead := v.run.any fun r => !r.finished.contains x.opIndex
      let hold := fun (s : State) => s.modPav p fun v => { v with held := v.held ++ [(type, x)] }
      if !l.takes x then
        if active then s.failColl p x.opIndex 3 x.src
        else
          let s := s.trySend p x.src 32 4 (.coll x.src 0x24 (collMsg s.ownId v l x.opIndex 0 0 0 []))
          if ahead then hold s else s
      else match s.relayTo l type x with
        | some d =>
          let half := placeHub 0 6 0
          ((s.count (ctrId half 6 1) (collBytes type x)).count (ctrId half 6 18) 1).trySend p d (collBytes type x) 0
            (.coll d 0x20 x)
        | none =>
          if x.jobStep = v.reshape.jobStep ∧ active then s.takeMsg p type x
          else if (x.jobStep = v.reshape.jobStep ∧ (ahead ∨ v.run.isNone)) ∨ x.jobStep = v.reshape.jobStep + 1 then hold s
          else s

/-- Take the held messages of an operation that has started. Their JOB_ID and EPOCH are compared with the layout that is
active now (R309), and a COLL_ABORT among them ends it. -/
def State.takeHeld (s : State) (p op : Nat) : State :=
  match s.pav p with
  | none => s
  | some v =>
    let fits := fun (x : CollMsg) => v.reshape.active.any fun l => l.takes x
    let now := v.held.filter fun x => x.2.opIndex == op && (!fits x.2 || x.2.jobStep == v.reshape.jobStep)
    let s := s.modPav p fun v => { v with held := v.held.filter fun x => !now.contains x }
    match now.find? fun x => !fits x.2 with
    | some x => s.failColl p op 3 x.2.src
    | none => match now.find? fun x => x.1 == 0x24 with
      | some x => s.failColl p op 2 x.2.src
      | none => now.foldl (fun s x => s.takeMsg p x.1 x.2) s

def execChainSum (p : Fin 8) (m : CollMsg) (s : State) : Host.Outcome State Fault Refusal := .next (s.collArrive p.val 0x20 m)
def execChainResult (p : Fin 8) (m : CollMsg) (s : State) : Host.Outcome State Fault Refusal :=
  .next (s.collArrive p.val 0x21 m)
def execGatherPiece (p : Fin 8) (m : CollMsg) (s : State) : Host.Outcome State Fault Refusal :=
  .next (s.collArrive p.val 0x22 m)

/-- COLL_ACK (R354): the receiver has consumed the data; credit returns. -/
def execCollAck (p : Fin 8) (m : CollMsg) (s : State) : Host.Outcome State Fault Refusal :=
  match if s.shut p.val then none else (s.pav p.val).bind fun v => v.colls.find? fun c => c.op == m.opIndex with
  | none => .next s
  | some c =>
    let hit := fun (u : Nat × Nat × Nat × Nat) => u.1 == m.src && u.2.1 == m.shard && u.2.2.1 == m.elemOffset
    if !(c.unacked.any hit) then .next s
    else
      let s := s.modColl p.val c.op fun c => { c with unacked := c.unacked.eraseP hit, lastMsg := s.clock }
      .next ((s.flushColl p.val c.op).collCheck p.val c.op)

/-- COLL_ABORT (R361): it ends the operation with cause 2, or with cause 3 where its JOB_ID or EPOCH does not match. What is
held or still to be sent of an operation that does not run here is discarded; one that the run in progress has still to
start ends as it starts. -/
def execCollAbort (p : Fin 8) (m : CollMsg) (s : State) : Host.Outcome State Fault Refusal :=
  match if s.shut p.val then none else s.pav p.val with
  | none => .next s
  | some v => match v.reshape.active with
    | none => .next s
    | some l =>
      let active := v.colls.any fun c => c.op == m.opIndex && !c.done
      let ahead := v.run.any fun r => !r.finished.contains m.opIndex
      if !l.takes m then .next (if active then s.failColl p.val m.opIndex 3 m.src else s)
      else if m.jobStep ≠ v.reshape.jobStep then .next s
      else if active then .next (s.failColl p.val m.opIndex 2 m.src)
      else .next ((s.dropColl p.val m.opIndex).modPav p.val fun v => { v with
        held := v.held.filter (fun x => !(x.2.opIndex == m.opIndex && x.2.jobStep == m.jobStep))
          ++ if ahead then [(0x24, m)] else [] })

/-- COLLECTIVE_TIMEOUT (R360, R361, cause 1). -/
def execCollectiveTimeout (p : Fin 8) (op : Nat) (s : State) : Host.Outcome State Fault Refusal :=
  match s.runOf p.val, s.coll p.val op with
  | some (v, r, h), some c =>
    if c.done || decide (s.clock < c.lastMsg + r.progressMs * 1000000) then .next s
    else match v.reshape.active with
      | none => .next s
      | some l =>
        let g := h.image
        let j := (l.pos s.ownId).getD 0
        let shards := l.tensorShards (g.collTensor (g.op op))
        let short := fun (ps : List (Nat × Nat × Nat × Nat)) (x : Nat × Nat) =>
          (l.entryOf (g.collTensor (g.op op))).any fun m => coveredIn ps x.1 != pieceElems m (g.dims (g.op op).a) x.2
        let dev := fun (x : Option Holder) => (x.map (·.device)).getD 0xFFFF
        let peer := if c.reduce then
            if shards.any (short c.folded) then dev (l.holders[j - 1]?)
            else if shards.any (fun x => s.ownsIn l x.1 && short c.placed x) then dev l.holders.getLast?
            else (c.unacked.head?.map (·.1)).getD ((c.outbox.head?.map (·.1)).getD 0xFFFF)
          else match shards.find? (short c.placed) with
            | some x => dev (l.holderOf (l.owner x.1))
            | none => 0xFFFF
        .next (s.failColl p.val op 1 peer)
  | _, _ => .next s

/-! ### The operations -/

/-- The operations that exchange messages with the other modules of the job. -/
def isCollective (code : Nat) : Bool := code == 0x30 || code == 0x31

/-- The collective engine reaches what an operation reads and writes: no die is cut off from the hubs (R25), and no stack
holds accesses back (R481). -/
def State.collReach (s : State) (v : Pav) (h : Handle) (o : Op) (mine : List (Nat × Nat)) : Bool :=
  s.memSound ||
    let reach := fun (a n : Nat) => !((addrDie a).any s.dieCut) && !s.onStopped a n
    ((h.image.accesses o (noTile 0)).all fun a => (s.accRows v h 0 a).all fun r => reach r.1 r.2)
      && mine.all fun x => s.shardReach x.1 && !((addrDie ((s.shard x.1).slotAddr (s.shard x.1).cur)).any s.dieCut)

/-- A new collective of the running program, when its operation may start: collectives start in stream order (R251). -/
def State.collStart (s : State) (p op code : Nat) : Option (Pav × Run × Handle × Layout × MapEntry) :=
  match s.opReady p op code with
  | none => none
  | some (v, r, h) => match v.reshape.active with
    | none => none
    | some l => match l.entryOf (h.image.collTensor (h.image.op op)) with
      | none => none
      | some m =>
        let g := h.image
        let mine := (l.tensorShards (g.collTensor (g.op op))).filter fun x => s.ownsIn l x.1
        let first := (g.stepOps r.first).all fun j =>
          decide (op ≤ j) || !isCollective (g.op j).code || r.startedOps.contains j || r.finished.contains j
        if first && !(v.colls.any fun c => c.op == op) && s.hazardFree v r h op (g.accesses (g.op op) (noTile op))
            && s.collReach v h (g.op op) mine then some (v, r, h, l, m) else none

def State.openColl (s : State) (p op : Nat) (reduce : Bool) : State :=
  (s.modPav p fun v => { v with
    colls := v.colls.filter (fun c => c.op != op)
      ++ [{ op := op, reduce := reduce, startedAt := s.clock, lastMsg := s.clock }] }).modRun p fun r => { r with
        startedOps := addNew r.startedOps op, lastProgress := s.clock }

/-- REDUCE_SCATTER starts: own shards enter GATHERING, and position 0 starts every chain at +0. -/
def execReduceScatter (p : Fin 8) (op : Nat) (s : State) : Host.Outcome State Fault Refusal :=
  match s.collStart p.val op 0x31 with
  | none => .next s
  | some (v, r, h, l, m) =>
    let g := h.image
    let o := g.op op
    let own := s.ownId
    let j := (l.pos own).getD 0
    let s : State := s.openColl p.val op true
    let shards : List (Nat × Nat) := l.tensorShards (g.collTensor o)
    let dests : List Nat := match l.holders[j + 1]? with
      | some x => [x.device]
      | none => (shards.filterMap fun x => (l.holderOf (l.owner x.1)).map (·.device)).filter (· != own)
    match dests.find? s.levelTwo with
    | some d => .next (s.failColl p.val op 5 d)
    | none =>
      let s := forEach (shards.filter fun x => s.ownsIn l x.1) (fun s x =>
        s.modShard x.1 fun r => { r with state := 1, gradNext := false }) s
      if j = 0 then
        let s := forEach shards (fun s x =>
          let n := pieceElems m (g.dims o.a) x.2
          let sums := s.foldSlices v r.handle h o.a m x.2 ((List.range n).map fun e => (e, 0))
          forEach (cutData 952 n 0 sums) (fun s y =>
            (s.modColl p.val op fun c => { c with folded := c.folded ++ [(x.1, y.1, y.2.length, 0)] }).passOn p.val op v l x.1 y.1 0 y.2) s) s
        .next (((s.takeHeld p.val op).flushColl p.val op).collCheck p.val op)
      else .next (((s.takeHeld p.val op).flushColl p.val op).collCheck p.val op)

/-- GATHER_SHARDS starts within the gather window: the HI arrays of own shards go to every other position and into
OUT. A shard that is damaged or cannot be read ends the run (R270, R288). -/
def execGatherShards (p : Fin 8) (op : Nat) (s : State) : Host.Outcome State Fault Refusal :=
  match s.collStart p.val op 0x30 with
  | none => .next s
  | some (v, r, h, l, m) =>
    let g := h.image
    let o := g.op op
    if !r.windowAllows g (s.heldSlices v g) op then .next s
    else
      let own := s.ownId
      let dests := l.holders.flatMap fun q => l.gatherNext q.device own
      let mine := (l.tensorShards o.a).filter fun x => s.ownsIn l x.1
      match mine.find? fun x => s.ledger.unreadable.contains x.1, mine.find? fun x => (s.shard x.1).damaged with
      | some x, _ => .next ((s.shardDamaged p.val x.1 1).endRunShard p.val 0x0290 x.1)
      | none, some x => .next (s.endRunShard p.val 0x0291 x.1)
      | none, none =>
        match mine.findSome? fun x =>
            (s.badRead ((s.shard x.1).slotAddr (s.shard x.1).cur) (2 * (s.shard x.1).length)).map fun w => (x.1, w) with
        | some (n, w) =>
          .next ((s.slotLost n w).endRun p.val 0x0202 (s.placeOfAddr w * 65536 + 0xFFFF) (some (pack [(8, w)])))
        | none =>
          let s := s.openColl p.val op false
          match dests.find? s.levelTwo with
          | some d => .next (s.failColl p.val op 5 d)
          | none =>
            let s := forEach mine (fun s x =>
              let q := s.shard x.1
              let hi := words 2 (s.readMem (q.slotAddr q.cur) (2 * q.length))
              forEach (cutData 1904 hi.length 0 hi) (fun s y =>
                s.placePiece p.val op r.handle h l m x.2 (collMsg own v l op x.1 y.1 0 y.2)) s) s
            .next (((s.flushColl p.val op).takeHeld p.val op).collCheck p.val op)

end Sys2Proof.Machine
end

