-- ==== Sys2Proof/Machine/Mover.lean ====
section
/-! DEFINITION. Movers (R231 to R242), the host side of a move (R462, R463), memory repair and the retirement list
(R222 to R230). -/

namespace Sys2Proof.Machine

/-! ### Descriptors (R232 to R236) -/

/-- A descriptor as its 64 bytes read as a little-endian number. For WINDOW_GATHER `win` holds H, W, C, the eight
window fields in the order of R106, ELEM_BYTES and N. -/
def parseDesc (x : Nat) : Desc :=
  let w := x % 16 == 3
  { type := x % 16, src := bits x 511 448, dst := bits x 447 384
    srcPlane := bits x 383 344, dstPlane := bits x 343 304, srcRow := bits x 303 264, dstRow := bits x 263 224
    rowBytes := bits x 223 192, rows := bits x 191 160, planes := bits x 159 128, indexAddr := bits x 127 64
    indexLimit := bits x 63 32, hostSrc := bitAt x 15, hostDst := bitAt x 14, digest := bitAt x 13
    waitPrev := bitAt x 12
    win := if w then [bits x 383 352, bits x 351 320, bits x 319 288, bits x 287 272, bits x 271 256, bits x 255 248,
        bits x 247 240, bits x 239 232, bits x 231 224, bits x 223 216, bits x 215 208, bits x 207 200, bits x 199 168]
      else [] }

def Desc.winFields (d : Desc) : List Nat := (d.win.drop 3).take 8
/-- OH and OW of a WINDOW_GATHER descriptor. -/
def Desc.winOut (d : Desc) : Option (Nat × Nat) := windowOut d.winFields (d.win.getD 0 0) (d.win.getD 1 0)
/-- Bytes of one output row of a WINDOW_GATHER descriptor. -/
def Desc.winRow (d : Desc) : Nat := d.win.getD 3 0 * d.win.getD 4 0 * d.win.getD 2 0 * d.win.getD 11 0

/-- Bytes that a descriptor writes. -/
def Desc.total (d : Desc) : Nat :=
  if d.type = 3 then match d.winOut with
    | some (oh, ow) => d.win.getD 12 0 * oh * ow * d.winRow
    | none => 0
  else d.planes * d.rows * d.rowBytes

/-- Bounding range of the source; none for ZERO. -/
def Desc.srcRange (d : Desc) : Option (Nat × Nat) :=
  match d.type with
  | 6 => none
  | 3 => some (d.src, d.win.getD 12 0 * d.win.getD 0 0 * d.win.getD 1 0 * d.win.getD 2 0 * d.win.getD 11 0)
  | 2 => some (d.src, (d.indexLimit - 1) * d.srcRow + d.rowBytes)
  | _ => some (d.src, (d.planes - 1) * d.srcPlane + (d.rows - 1) * d.srcRow + d.rowBytes)
/-- Bounding range of the destination. -/
def Desc.dstRange (d : Desc) : Nat × Nat :=
  if d.type = 3 then (d.dst, d.total)
  else (d.dst, (d.planes - 1) * d.dstPlane + (d.rows - 1) * d.dstRow + d.rowBytes)

/-- The REASON of ST_REJECT_DESCRIPTOR for a descriptor that fails R235 by its fields alone. -/
def Desc.fault (d : Desc) : Option Nat :=
  let disjoint := match d.srcRange with
    | none => true
    | some (a, n) => d.hostSrc != d.hostDst || !overlaps a n d.dst d.dstRange.2
  if d.type = 0 ∨ 6 < d.type then some 1
  else if d.type = 3 then
    if d.hostSrc || d.hostDst then some 6
    else if [0, 1, 2, 3, 4, 5, 6, 9, 10, 12].any (fun i => d.win.getD i 0 == 0) || !([1, 2, 4].contains (d.win.getD 11 0))
    then some 2
    else if d.winOut.isNone then some 5
    else if !disjoint then some 3
    else none
  else if d.type = 6 ∧ d.hostSrc then some 6
  else if d.rowBytes = 0 ∨ d.rows = 0 ∨ d.planes = 0 then some 2
  else if d.type = 2 ∧ (d.planes ≠ 1 ∨ d.indexLimit = 0) then some 2
  else if d.type ≠ 2 ∧ (d.indexAddr ≠ 0 ∨ d.indexLimit ≠ 0) then some 2
  else if d.type = 6 ∧ d.src ≠ 0 then some 2
  else if d.type = 2 ∧ d.indexAddr % 4 ≠ 0 then some 4
  else if (1 < d.rows ∧ d.dstRow < d.rowBytes) ∨ (1 < d.planes ∧ d.dstPlane < d.rows * d.dstRow) then some 3
  else if !disjoint then some 3
  else none

/-- The REASON of ST_REJECT_ADDRESS for a descriptor of a function (R235, R241). `tier` is whether the range must lie
in LPDDR5X. -/
def State.rangeFault (s : State) (port fn : Nat) (host : Bool) (a n : Nat) (tier : Option Bool) : Option Nat :=
  if host then (if tier = some true then some 6 else none)
  else match s.badRange port fn a n with
    | some r => some r
    | none => match tier with
      | some lp => if (addrWin a == 1) != lp then some 6 else none
      | none => none

def State.descFault (s : State) (port fn : Nat) (d : Desc) : Option Nat :=
  let st := if d.type = 4 then some false else if d.type = 5 then some true else none
  let dt := if d.type = 4 then some true else if d.type = 5 then some false else none
  let r1 := match d.srcRange with
    | none => none
    | some (a, n) => s.rangeFault port fn d.hostSrc a n st
  match r1, s.rangeFault port fn d.hostDst d.dst d.dstRange.2 dt with
  | some r, _ => some r
  | none, some r => some r
  | none, none => if d.type = 2 then s.rangeFault port fn false d.indexAddr (4 * d.rows) none else none

/-- Validate every descriptor of a command before the first one starts (R235). -/
def State.checkDescs (s : State) (c : Cmd) (ds : List Desc) : Chk Unit :=
  match ((List.range ds.length).zip ds).findSome? fun x =>
      match x.2.fault with
      | some r => some (x.1, 0x01A1, r)
      | none => (s.descFault c.port c.fn x.2).map fun r => (x.1, 0x01A0, r) with
  | some (i, code, r) => .error { code := code, reason := r, result := pack [(4, i)] }
  | none => .ok ()

/-- Start of row k of a descriptor (plane, then row) in its source, with the index list where it has one. -/
def State.srcRowAddr (s : State) (d : Desc) (k : Nat) : Nat :=
  if d.type = 2 then d.src + s.readNat (d.indexAddr + 4 * k) 4 * d.srcRow
  else d.src + k / d.rows * d.srcPlane + k % d.rows * d.srcRow
def Desc.dstRowAddr (d : Desc) (k : Nat) : Nat := d.dst + k / d.rows * d.dstPlane + k % d.rows * d.dstRow
/-- Destination rows in ascending order: address and length. -/
def Desc.dstRows (d : Desc) : List (Nat × Nat) :=
  if d.type = 3 then [(d.dst, d.total)]
  else (List.range (d.planes * d.rows)).map fun k => (d.dstRowAddr k, d.rowBytes)

/-- The source address of each element of a WINDOW_GATHER descriptor in output order; none in the padding (R234). -/
def Desc.winSrc (d : Desc) : List (Option Nat) :=
  let f := fun i => d.win.getD i 0
  match d.winOut with
  | none => []
  | some (oh, ow) =>
    (List.range (f 12)).flatMap fun n => (List.range oh).flatMap fun i => (List.range ow).flatMap fun j =>
      (List.range (f 3)).flatMap fun wh => (List.range (f 4)).flatMap fun ww => (List.range (f 2)).map fun ch =>
        let ih : Int := (i * f 5 + wh * f 9 : Nat) - (f 7 : Int)
        let iw : Int := (j * f 6 + ww * f 10 : Nat) - (f 8 : Int)
        if 0 ≤ ih ∧ ih < f 0 ∧ 0 ≤ iw ∧ iw < f 1 then
          some (d.src + (((n * f 0 + ih.toNat) * f 1 + iw.toNat) * f 2 + ch) * f 11)
        else none
/-- The bytes of a WINDOW_GATHER descriptor. -/
def State.windowBytes (s : State) (d : Desc) : List Byte :=
  let e := d.win.getD 11 0
  d.winSrc.flatMap fun a => match a with
    | some a => s.readMem a e
    | none => List.replicate e 0

/-- The bytes of a descriptor with its source in device memory, in ascending destination order. -/
def State.descBytes (s : State) (d : Desc) : List Byte :=
  match d.type with
  | 6 => List.replicate d.total 0
  | 3 => s.windowBytes d
  | _ => (List.range (d.planes * d.rows)).flatMap fun k => s.readMem (s.srcRowAddr d k) d.rowBytes
/-- Bytes that a descriptor reads: padding is not read (R246). -/
def Desc.readTotal (d : Desc) : Nat :=
  match d.type with
  | 6 => 0
  | 3 => d.win.getD 11 0 * (d.winSrc.filter (·.isSome)).length
  | _ => d.total

/-- Ranges of device memory that a descriptor reads. -/
def State.descReads (s : State) (d : Desc) : List (Nat × Nat) :=
  let idx := if d.type = 2 then [(d.indexAddr, 4 * d.rows)] else []
  idx ++ if d.hostSrc then [] else match d.type with
    | 6 => []
    | 3 => [d.srcRange.getD (0, 0)]
    | _ => (List.range (d.planes * d.rows)).map fun k => (s.srcRowAddr d k, d.rowBytes)

/-- The first code word that stops a descriptor (R224, R225). -/
def State.descBad (s : State) (d : Desc) : Option Nat :=
  if s.mem.bad.isEmpty && s.mem.retired.isEmpty && s.route.lostStacks.isEmpty && s.power.shut.isEmpty
      && !(s.cores.any fun e => e.2.unmapped) then none
  else match (s.descReads d).findSome? fun r => s.badRead r.1 r.2 with
    | some w => some w
    | none => if d.hostDst then none else d.dstRows.findSome? fun r => s.partialBad r.1 r.2
/-- The words in error that a descriptor meets: in its source, and under a part of its destination. -/
def State.meetDesc (s : State) (d : Desc) (errs : MemErrors) : State :=
  s.meet errs fun w => ((s.descReads d).any fun r => overlaps w (codeWord w) r.1 r.2)
    || (!d.hostDst && d.dstRows.any fun r =>
      overlaps w (codeWord w) r.1 r.2 && !decide (r.1 ≤ w ∧ w + codeWord w ≤ r.1 + r.2))

def State.descStalled (s : State) (d : Desc) : Bool :=
  (!d.hostDst && s.onStopped d.dst d.dstRange.2)
    || (match d.srcRange with
        | some (a, n) => !d.hostSrc && s.onStopped a n
        | none => false)

/-- The mover's die is cut off from a side of the descriptor (R25). -/
def State.descCut (s : State) (j : MoveJob) (d : Desc) : Bool :=
  let die := j.mover / 24
  let bad := fun (host : Bool) (a : Nat) => if host then s.dieCut die else !s.dieReaches die a
  bad d.hostDst d.dst || (d.srcRange.any fun r => bad d.hostSrc r.1)

/-- The ranges of two descriptors overlap where at least one of them writes (R236). -/
def Desc.conflicts (d e : Desc) : Bool :=
  let hit := fun (h1 : Bool) (x : Nat × Nat) (h2 : Bool) (y : Nat × Nat) => h1 == h2 && overlaps x.1 x.2 y.1 y.2
  hit d.hostDst d.dstRange e.hostDst e.dstRange
    || (match d.srcRange with | some x => hit d.hostSrc x e.hostDst e.dstRange | none => false)
    || (match e.srcRange with | some y => hit d.hostDst d.dstRange e.hostSrc y | none => false)

/-! ### Jobs -/

def State.job (s : State) (id : Nat) : Option MoveJob := s.moves.find? fun j => j.cmd == id
def State.modJob (s : State) (id : Nat) (f : MoveJob → MoveJob) : State :=
  { s with moves := s.moves.map fun j => if j.cmd == id then f j else j }

/-- The core whose mover serves a job: the lowest that works in its clusters (log 11). -/
def State.moverFor (s : State) (cs : List Nat) (spare : Nat → Bool := fun _ => false) : Option Nat :=
  (cs.flatMap fun c => (List.range 6).map fun j => 6 * c + j).find? fun p =>
    !spare p && (s.runsActive p || (s.isStoreOnly p && !(s.core p).failed && !(s.core p).retired))

/-- The destinations of descriptors that have not finished are undefined (R237; log 7). -/
def State.spoilDests (s : State) (port : Nat) (j : MoveJob) : State :=
  let left := (((List.range j.descs.length).zip j.descs).filter fun x => !j.finished.contains x.1).map (·.2)
  forEach left (fun s d => forEach d.dstRows (fun s r =>
    let l := leBytes r.2 (Config.freeNat s.freeCtr)
    let s := s.bumpFree
    if d.hostDst then
      (if port = 0 then { s with host0 := cellsPut s.host0 r.1 l } else { s with host1 := cellsPut s.host1 r.1 l })
    else s.writeMem r.1 l) s) s

/-- Take a job away with its unfinished descriptors, before its command ends badly. -/
def State.dropJob (s : State) (c : Cmd) : State :=
  match s.job c.serial with
  | none => s
  | some j => { s.spoilDests c.port j with moves := s.moves.filter fun j => j.cmd != c.serial }

def State.failJob (s : State) (c : Cmd) (status place low : Nat) (result : List Byte) : State :=
  (s.dropJob c).fail c status place low result
def State.abortJob (s : State) (c : Cmd) (status target : Nat) (cause : Option Cmd) : State :=
  (s.dropJob c).abort c status target cause

/-- The digest of the bytes written by the descriptors with DIGEST = 1, in list order (R238). -/
def MoveJob.digest (j : MoveJob) : Nat :=
  if j.descs.any (·.digest) then
    digest128 ((List.range j.descs.length).flatMap fun i =>
      ((j.digestBytes.find? fun x => x.1 == i).map (·.2)).getD [])
  else 0

/-- A job whose descriptors have all finished completes its command (R238 to R240). -/
def State.jobCheck (s : State) (id : Nat) : State :=
  match s.job id, s.cmd id with
  | some j, some c =>
    if j.finished.length < j.descs.length then s
    else
      let s := { s with moves := s.moves.filter fun j => j.cmd != id }
      if c.opcode = 0x0201 then
        s.finish c (pack [(8, j.written), (16, j.digest), (4, j.finished.length)])
      else if c.opcode = 0x0202 then
        s.finish c (pack [(8, (j.descs.head?.map (·.dst)).getD (c.word 2)), (16, j.digest)])
      else if c.expert ∧ bitAt (c.word 5) 0 ∧ j.digest ≠ c.word 3 + 2 ^ 64 * c.word 4 then
        s.fail c 0x0206 (placeMover j.mover) 0xFFFF
      else
        let mine := (s.pav c.pavilion).any fun v => v.allocs.contains (c.word 0, c.word 2, 4)
        let s := if c.expert && bitAt (c.word 5) 1 && mine then s.freeMem c.pavilion (c.word 0) else s
        s.finish c []
  | _, _ => s

/-- Bytes of a descriptor have moved: they are counted (R246), and its 50 ms begin again (R237). -/
def State.movedBytes (s : State) (id i read written : Nat) : State :=
  match s.job id with
  | none => s
  | some j =>
    let place := placeMover j.mover
    ((s.count (ctrId place 4 0) read).count (ctrId place 4 1) written).modJob id fun j =>
      { j with moved := tset j.moved i s.clock }

/-- A descriptor has moved every byte. -/
def State.finishDesc (s : State) (id i : Nat) (d : Desc) : State :=
  match s.job id with
  | none => s
  | some j =>
    ((s.count (ctrId (placeMover j.mover) 4 (1 + d.type)) 1).modJob id fun j => { j with
      finished := addNew j.finished i, written := j.written + d.total, taken := tdel j.taken i }).jobCheck id

/-- Write bytes of a descriptor at their destination. -/
def State.putDst (s : State) (port : Nat) (d : Desc) (a : Nat) (l : List Byte) : State :=
  if d.hostDst then s.hostWrite port a l else s.writeMem a l

/-- Keep the bytes for the digest. -/
def MoveJob.keepBytes (j : MoveJob) (i : Nat) (d : Desc) (l : List Byte) : MoveJob :=
  if !d.digest then j
  else
    let old := ((j.digestBytes.find? fun x => x.1 == i).map (·.2)).getD []
    { j with digestBytes := j.digestBytes.filter (fun x => x.1 != i) ++ [(i, old ++ l)] }

/-- Request the next piece of a host-side source, from byte k of the descriptor on (R462). -/
def State.requestPiece (s : State) (c : Cmd) (i : Nat) (d : Desc) (k : Nat) : State :=
  let a := s.srcRowAddr d (k / d.rowBytes) + k % d.rowBytes
  let t := (s.port c.port).nextTag
  (s.hostRequest c.port (some c.serial) a (readChunk a (d.rowBytes - k % d.rowBytes))).modJob c.serial fun j => { j with
    waiting := j.waiting ++ [(i, k, t)] }

/-- The source of a descriptor as it stood when the descriptor started (R236): kept where the descriptor has to stall. -/
def MoveJob.source (j : MoveJob) (i : Nat) : Option (List Byte) := tfind j.taken i

/-- Run a descriptor that has started: an index out of range or a word in error fails it; it stalls on a stopped stack or
behind failed die bridges; else it asks the host, or moves its bytes. -/
def State.runDesc (s : State) (c : Cmd) (j : MoveJob) (i : Nat) (d : Desc) (errs : MemErrors) : State :=
  let held := j.source i
  let idx := if d.type = 2 ∧ held.isNone then List.range d.rows else []
  if s.descStalled d || s.descCut j d then
    -- the bytes as they stand now
    if held.isSome || d.hostSrc then s else s.modJob c.serial fun j => { j with taken := tset j.taken i (s.descBytes d) }
  else
    let s := s.meetDesc d errs
    let fail := fun (w : Nat) => (s.memError w 1).failJob c 0x0202 (s.placeOfAddr w) 0xFFFF (pack [(8, w)])
    match (if idx.isEmpty then none else s.badRead d.indexAddr (4 * d.rows)),
        idx.find? fun r => decide (d.indexLimit ≤ s.readNat (d.indexAddr + 4 * r) 4) with
    | some w, _ => fail w
    | none, some r => s.failJob c 0x0280 (placeMover j.mover) i (pack [(4, r)])
    | none, none => match s.descBad (if held.isSome then { d with type := 6 } else d) with
    | some w => fail w
    | none =>
      if d.hostSrc then s.requestPiece c i d 0
      else
        let l := held.getD (s.descBytes d)
        let rows := (List.range d.dstRows.length).zip d.dstRows
        let s := forEach rows (fun s x => s.putDst c.port d x.2.1 (slice l (x.1 * x.2.2) x.2.2)) s
        let s := if d.hostDst then s else s.renew d.dstRows
        ((s.modJob c.serial fun j => j.keepBytes i d l).movedBytes c.serial i d.readTotal d.total).finishDesc c.serial i d

/-- DESCRIPTOR_START (R236, R469): host-side descriptors of a lost host end the command, and those of a function in
D3hot wait (R468). -/
def State.startDesc (s : State) (id i : Nat) (errs : MemErrors) : State :=
  match s.job id, s.cmd id with
  | some j, some c => match j.descs[i]? with
    | none => s
    | some d =>
      if j.finished.contains i || j.waiting.any (fun x => x.1 == i) then s
      else if j.started.contains i then s.runDesc c j i d errs
      else
        let ok := i == 0 || (j.started.contains (i - 1) && (j.finished.contains (i - 1)
          || !(d.waitPrev || (j.descs[i - 1]?).any d.conflicts)))
        if !ok then s
        else if (d.hostSrc || d.hostDst) && (s.port c.port).lost then s.abortJob c 0x0304 (0xC000 + c.port) none
        else if (d.hostSrc || d.hostDst) && !s.canSend c.port c.fn then s
        else
          (s.modJob id fun j => { j with started := addNew j.started i, moved := tset j.moved i s.clock }).runDesc c
            { j with started := addNew j.started i } i d errs
  | _, _ => s

def execDescriptorStart (id : Nat) (x : DescRead) (s : State) : Host.Outcome State Fault Refusal :=
  .next (s.startDesc id x.index x.errs)

/-- DESCRIPTOR_TIMEOUT (R237): a started descriptor with no host side has moved no byte for 50 ms. -/
def execDescriptorTimeout (id : Nat) (s : State) : Host.Outcome State Fault Refusal :=
  match s.job id, s.cmd id with
  | some j, some c =>
    if j.started.any fun i => !j.finished.contains i && !(j.waiting.any fun x => x.1 == i)
        && decide (tget j.moved i 0 + 50000000 ≤ s.clock) then
      .next (s.failJob c 0x0201 (placeMover j.mover) 0xFFFF [])
    else .next s
  | _, _ => .next s

/-! ### Completions from the host (R462, R463) -/

/-- A piece of a host-side source arrives. -/
def State.placeHostPiece (s : State) (c : Cmd) (j : MoveJob) (i k : Nat) (l : List Byte) : State :=
  match j.descs[i]? with
  | none => s
  | some d =>
    let a := d.dstRowAddr (k / d.rowBytes) + k % d.rowBytes
    match (if d.hostDst then none else s.partialBad a l.length) with
    | some w => (s.memError w 1).failJob c 0x0202 (s.placeOfAddr w) 0xFFFF (pack [(8, w)])
    | none =>
      let s := (s.putDst c.port d a l).modJob c.serial fun j => { j.keepBytes i d l with
        waiting := j.waiting.filter (fun x => x.1 != i) }
      let s := s.movedBytes c.serial i l.length l.length
      if k + l.length < d.total then s.requestPiece c i d (k + l.length) else s.finishDesc c.serial i d

/-- The bundle pull takes a piece into the staging area and asks for the next one (R441). -/
def State.placePull (s : State) (q : Nat) (l : List Byte) : State :=
  let b := s.bootPort q
  let s := (s.writeMem (dieStoreAddr s.boot.stagingDie + b.bytesDone) l).modBootPort q fun b => { b with
    bytesDone := b.bytesDone + l.length }
  let left := b.bundleBytes.toNat - (b.bytesDone + l.length)
  let a := b.bundleAddr.toNat + b.bytesDone + l.length
  if left = 0 then s else s.hostRequest q none a (readChunk a left)

/-- A request fails (R463): the mover command or the bundle pull ends. -/
def State.requestFailed (s : State) (q : Nat) (cmd : Option Nat) (addr status : Nat) : State :=
  match cmd with
  | none => if s.boot.loadPort = some q then s.endLoad 0x0002 else s
  | some id => match s.cmd id, s.job id with
    | some c, some _ => s.failJob c status (placePort q) 0xFFFF (if status = 0x0202 then pack [(8, addr)] else [])
    | _, _ => s

/-- The function on whose behalf a request was issued (R466). -/
def State.requester (s : State) (cmd : Option Nat) : Nat := ((cmd.bind s.cmd).map (·.fn)).getD 0

def State.dropRequest (s : State) (q tag : Nat) : State :=
  s.modPort q fun p => { p with requests := p.requests.filter fun r => r.1 != tag }

def execHostCompletion (port : Fin 2) (tag : Nat) (cpl : HostCpl) (s : State) : Host.Outcome State Fault Refusal :=
  let q := port.val
  match (s.port q).requests.find? fun r => r.1 == tag with
  | none => .next (s.emit (.unexpectedCompletion q))
  | some (_, cmd, addr, len, _) =>
    let s := s.dropRequest q tag
    match cpl with
    | .ok l =>
      let l := fit len l
      match cmd with
      | none => .next (if s.boot.loadPort = some q then s.placePull q l else s)
      | some id => match s.cmd id, s.job id with
        | some c, some j => match j.waiting.find? fun x => x.2.2 == tag with
          | some (i, k, _) => .next (s.placeHostPiece c j i k l)
          | none => .next s
        | _, _ => .next s
    | .poisoned => .next ((s.emit (.poisonedReceived q (s.requester cmd))).requestFailed q cmd addr 0x0202)
    | _ => .next (s.requestFailed q cmd addr 0x0202)

/-- COMPLETION_TIMEOUT at the default Completion Timeout of 50 ms. -/
def execCompletionTimeout (port : Fin 2) (tag : Nat) (s : State) : Host.Outcome State Fault Refusal :=
  let q := port.val
  match (s.port q).requests.find? fun r => r.1 == tag with
  | none => .next s
  | some (_, cmd, addr, _, sent) =>
    if s.clock < sent + 50000000 then .next s
    else .next (((s.dropRequest q tag).emit (.completionTimedOut q (s.requester cmd))).requestFailed q cmd addr 0x0201)

/-! ### MOVE, OFFLOAD, RESTORE (R238 to R241) -/

/-- Clusters whose movers may serve a command: those of its pavilion, or every one in service where the firmware
chooses. -/
def State.moverClusters (s : State) (c : Cmd) (mask : Nat) : List Nat :=
  let own := ((s.pav c.pavilion).map (·.clusters)).getD []
  let all := if own.isEmpty then (List.range 32).filter fun c => (s.cluster c).inService else own
  if mask = 0 then all else all.filter fun c => mask.testBit c

/-- Start the descriptors of a command. -/
def State.openJob (s : State) (c : Cmd) (ds : List Desc) (cs : List Nat) : State :=
  match s.moverFor cs with
  | none => s.abort c 0x0301 0 none
  | some m =>
    let j : MoveJob := { cmd := c.serial, descs := ds, mover := m, clusters := cs }
    State.jobCheck { s.started c with moves := s.moves ++ [j] } c.serial

def bodyMove (s : State) (c : Cmd) : Chk State := do
  let w := c.word
  if !c.expert then
    let d := parseDesc (leNat ((List.range 8).flatMap fun i => leBytes 8 (w i)))
    s.checkDescs c [d]
    .ok (s.openJob c [d] (s.moverClusters c 0))
  else
    let n := bits (w 1) 15 0
    let mask := bits (w 2) 63 32
    need (n != 0) (c.badParam 1)
    need (bits (w 2) 1 0 != 3) (c.badParam 2)
    need (mask == 0 || (((s.pav c.pavilion).any fun v => !v.clusters.isEmpty) && !(s.moverClusters c mask).isEmpty)
      || c.pavilion == 0xF) (c.badParam 2)
    need (w 0 % 64 == 0) { code := 0x01A1, reason := 4, result := pack [(4, 0xFFFFFFFF)] }
    s.checkAddr c 0 (w 0) (64 * n) 64
    match s.badRead (w 0) (64 * n) with
    | some x => .ok (s.failMemory c x)
    | none =>
      let ds := (List.range n).map fun i => parseDesc (s.readNat (w 0 + 64 * i) 64)
      s.checkDescs c ds
      .ok (s.openJob c ds (s.moverClusters c mask))

def execMove (id : Nat) (s : State) : Host.Outcome State Fault Refusal := .next (s.startCmd id 0x0201 bodyMove)

/-- The descriptor of OFFLOAD and RESTORE: whole pages. -/
def pageDesc (type src dst n : Nat) (digest : Bool) : Desc :=
  { type := type, src := src, dst := dst, srcPlane := 0, dstPlane := 0, srcRow := 4096, dstRow := 4096
    rowBytes := 4096, rows := n / 4096, planes := 1, indexAddr := 0, indexLimit := 0, hostSrc := false, hostDst := false
    digest := digest, waitPrev := false, win := [] }

/-- A range that a parameter names, in or outside LPDDR5X. -/
def State.checkTier (s : State) (c : Cmd) (i a n : Nat) (lp : Bool) : Chk Unit := do
  s.checkAddr c i a n 4096
  need ((addrWin a == 1) == lp) (c.badAddr i 6)

def bodyOffload (s : State) (c : Cmd) : Chk State := do
  let w := c.word
  let n := w 1
  need (n % 4096 == 0 && n != 0) (c.badParam 1)
  need (!c.expert || bits (w 3) 1 0 != 3) (c.badParam 3)
  s.checkTier c 0 (w 0) n false
  let digest := !(c.expert && bitAt (w 3) 2)
  let cs := s.moverClusters c 0
  if c.expert ∧ w 2 ≠ 0 then
    s.checkTier c 2 (w 2) n true
    .ok (s.openJob c [pageDesc 4 (w 0) (w 2) n digest] cs)
  else match s.allocMem c.pavilion 1 n 4096 4 with
    | none => .error { code := 0x01A2 }
    | some (a, s) => .ok (s.openJob c [pageDesc 4 (w 0) a n digest] cs)

def execOffload (id : Nat) (s : State) : Host.Outcome State Fault Refusal := .next (s.startCmd id 0x0202 bodyOffload)

def bodyRestore (s : State) (c : Cmd) : Chk State := do
  let w := c.word
  let n := w 2
  need (n % 4096 == 0) (c.badParam 2)
  need (!c.expert || bits (w 5) 3 2 != 3) (c.badParam 5)
  s.checkTier c 0 (w 0) n true
  s.checkTier c 1 (w 1) n false
  let digest := c.expert && bitAt (w 5) 0
  .ok (s.openJob c (if n = 0 then [] else [pageDesc 5 (w 0) (w 1) n digest]) (s.moverClusters c 0))

def execRestore (id : Nat) (s : State) : Host.Outcome State Fault Refusal := .next (s.startCmd id 0x0203 bodyRestore)

/-- A mover is lost (R245): its unfinished jobs go to another mover of their clusters, descriptors in flight run again
from their start with NOTE 0x0120; without another mover the command ends. -/
def State.moversGone (s : State) (gone : Nat → Bool) (target : Nat) (cause : Option Cmd) : State :=
  forEach (s.moves.filter fun j => gone j.mover) (fun s j =>
    match s.cmd j.cmd with
    | none => s
    | some c => match s.moverFor j.clusters gone with
      | none => s.abortJob c 0x0301 target cause
      | some m =>
        let flight := j.started.filter fun i => !j.finished.contains i
        let s := if flight.isEmpty then s else s.modCmd c.serial fun c => { c with notes := addNew c.notes 0x0120 }
        s.modJob j.cmd fun j => { j with
          mover := m, started := j.finished, waiting := []
          digestBytes := j.digestBytes.filter fun x => j.finished.contains x.1 }) s

/-! ### Corrections, patrols, repair (R222, R223, R226, R228, R229) -/

/-- The ledger slice of a die (R219). -/
def inLedgerSlice (a : Nat) : Bool := addrWin a == 4 && decide (0x2800000 ≤ (addrUnit a).2.1)
/-- SHARD_ID of the ledger record at an address (R269). -/
def ledgerShard (a : Nat) : Nat := (addrUnit a).1 * 131072 + ((addrUnit a).2.1 - 0x2800000) / 64

/-- PATROL_SCRUB of the store or controller with a PLACE_ID: a full pass and the words in error that it meets there (R223,
R288). -/
def execPatrolScrub (place : Nat) (errs : MemErrors) (s : State) : Host.Outcome State Fault Refusal :=
  let here := fun (a : Nat) => s.placeOfAddr a == place && s.mapped a 1
  let s := s.count (ctrId place 5 2) 1
  .next (forEach (errs.filter fun e => here e.1 && e.2 != 0) (fun s e =>
    let w := e.1 - e.1 % codeWord e.1
    if inLedgerSlice w && e.2 != 1 then
      let n := ledgerShard w
      let s := (s.count (ctrId place 5 1) 1).modLedger fun l => { l with unreadable := addNew l.unreadable n }
      if (s.shard n).valid then s.shardDamaged (s.shard n).pavilion n 1 else s
    else
      let s := s.meet [e] fun _ => true
      if s.mem.bad.contains w && !s.mem.retired.contains (pageOf w) then s.memError w 2 else s) s)

/-- SOFT_ROW_REPAIR of the row that holds a page of HBM3E at its threshold (R222, R228): a page that is retired stays so. -/
def execSoftRowRepair (page : Nat) (s : State) : Host.Outcome State Fault Refusal :=
  let x := tget s.mem.corrections page {}
  let day := 86400000000000
  if addrWin page ≠ 0 ∨ page % 4096 ≠ 0 ∨ (x.times.filter fun t => decide (s.now < t + day)).length < 8 then .next s
  else
    let s1 := s.modMem fun m => { m with corrections := tset m.corrections page { x with times := [] } }
    if Config.spareRow page (s.mem.softRepairs + s.mem.hardRepairs) then
      let s2 := if s.mem.retired.contains page then s1 else s1.listPage (s1.retRec page 3 3)
      let s2 := (s2.count (ctrId (s.placeOfAddr page) 5 3) 1).modMem fun m => { m with softRepairs := m.softRepairs + 1 }
      .next (s2.postOwner (s.ownerOfAddr page) 0x0203 0 (s.placeOfAddr page) (pack [(8, page), (1, 1)]))
    else .next (s1.retirePage page 3)

/-- RETIREMENT_RECORD_WRITE: the oldest new record goes to the flash (R226). -/
def execRetirementRecordWrite (s : State) : Host.Outcome State Fault Refusal :=
  match s.mem.toFlash with
  | [] => .next s
  | r :: rest => .next ((s.modMem fun (m : MemSt) => { m with toFlash := rest }).modFlash fun (f : Flash) => { f with
      retire := f.retire.filter (fun x => x.address != r.address) ++ [r] })

/-- MEM_REPAIR (R229): hard row repair of the eligible rows of the stacks named. Whether a stack returns to service is
a free value (log 7). -/
def bodyMemRepair (s : State) (c : Cmd) : Chk State := do
  let mask := if c.expert then bits (c.word 0) 31 0 else 0
  let retrain := c.expert && bitAt (c.word 0) 33
  let rows := s.retireList.filter fun r =>
    addrWin r.address == 0 && (r.state == 1 || r.state == 3) && (mask == 0 || mask.testBit (stackOf r.address))
  let stackIds := (rows.map fun r => stackOf r.address).eraseDups
  let dies := (stackIds.map (· / 4)).eraseDups
  need (s.pavs.all fun v => v.2.role == 0 || !(v.2.clusters.any fun c => dies.contains (c / 4)))
    { stState 0xFF with defer := true, onCondition := true }
  let (s, done, none_) := rows.foldl (fun (a : State × List Nat × Nat) r =>
    let (s, done, none_) := a
    if Config.spareRow r.address (s.mem.softRepairs + s.mem.hardRepairs) then
      let s := (s.zeroMem r.address 4096).modMem fun m => { m with
        retired := m.retired.filter (· != r.address), hardRepairs := m.hardRepairs + 1
        corrections := tdel m.corrections r.address }
      let s := s.listPage { r with state := 4 }
      (s.postOwner (s.ownerOfAddr r.address) 0x0203 0 (s.placeOfAddr r.address) (pack [(8, r.address), (1, 2)]),
       done ++ [r.address], none_)
    else (s, done, none_ + 1)) (s, [], 0)
  let lost := stackIds.filter fun h => Config.freeNat (s.freeCtr + h) % 2 == 1
  let s := { s with freeCtr := s.freeCtr + 32 }
  match lost with
  | [] => .ok (s.finish c (pack [(4, done.length), (4, none_),
      (4, if retrain then bitsMask (done.map stackOf).eraseDups else 0)]))
  | h :: _ =>
    let s := s.modRoute fun r => { r with lostStacks := lost.foldl addNew r.lostStacks }
    .ok (s.fail c 0x0281 (placeDie (h / 4) 3 (h % 4)) h)

def execMemRepair (id : Nat) (s : State) : Host.Outcome State Fault Refusal := .next (s.startCmd id 0x0210 bodyMemRepair)

def bodyMemRetireList (s : State) (c : Cmd) : Chk State := do
  let n := bits (c.word 1) 63 32
  let first := bits (c.word 1) 31 0
  s.checkAddr c 0 (c.word 0) (32 * n) 32
  let all := s.retireList.filter fun r => match c.own with
    | none => true
    | some p => s.ownerOfAddr r.address == some p
  let out := (all.drop first).take n
  match s.partialBad (c.word 0) (32 * out.length) with
  | some w => .ok (s.failMemory c w)
  | none =>
  let s := s.writeMem (c.word 0) (out.flatMap retBytes)
  .ok (s.finish c (pack [(4, out.length), (4, all.length)]))

def execMemRetireList (id : Nat) (s : State) : Host.Outcome State Fault Refusal :=
  .next (s.startCmd id 0x0211 bodyMemRetireList)

end Sys2Proof.Machine
end

