-- ==== Sys2Proof/Machine/Time.lean ====
section
/-! DEFINITION. Building time (R363 to R369) and barriers (R370). -/

namespace Sys2Proof.Machine

def State.sync (s : State) (l : Nat) : SyncRec := tget s.time.links l {}
def State.modSync (s : State) (l : Nat) (f : SyncRec → SyncRec) : State :=
  s.modTime fun t => { t with links := tset t.links l (f (tget t.links l {})) }

/-- Two's complement in n bits. -/
def signed (n : Nat) (x : Int) : Nat := (x % (2 ^ n : Int)).toNat

/-! ### The state of time (R366) -/

/-- Enter a time state: EV_TIME_STATE, and the ports count the change (R372, R374). -/
def State.setTimeState (s : State) (st : Nat) : State :=
  if s.time.state = st then s
  else
    let s := s.modTime fun t => { t with state := st, goodSince := t.elapsed, part := 0 }
    let s := s.modTime fun t => { t with enteredAt := s.now }
    let s := forEach (List.range 6) (fun s l => s.count (ctrId (placeLink l) 7 15) 1) s
    s.postModule 0x0801 1 0xFFFF (pack [(1, st), (2, s.time.rootId), (1, 0), (4, signed 32 s.time.offset16)])

/-! ### The root, the parent and the upstream neighbours (R364, R365) -/

/-- A link that offers a root: it is up, its delay is measured, and the root's ROOT_SEQ has advanced within 1 ms. A
root under the module's own DEVICE_ID is its own echo. -/
def State.offers (s : State) (l : Nat) : Bool :=
  let r := s.sync l
  (s.link l).state == 2 && r.heard && r.measured && r.rootId != 0xFFFF && r.rootId != s.ownId
    && decide (s.clock < r.seqAt + 1000000)

/-- The best offer: lowest priority, root, hops, port. -/
def State.bestOffer (s : State) : Option Nat :=
  ((List.range 6).filter s.offers).foldl (fun (a : Option Nat) l => match a with
    | none => some l
    | some k =>
      let x := s.sync k
      let y := s.sync l
      if y.rootPrio < x.rootPrio ∨ (y.rootPrio = x.rootPrio ∧ (y.rootId < x.rootId
          ∨ (y.rootId = x.rootId ∧ y.nbHops < x.nbHops))) then some l else a) none

/-- Links of the upstream neighbours: the same root, with one hop less. -/
def State.upstream (s : State) : List Nat :=
  (List.range 6).filter fun l => s.offers l && (s.sync l).rootId == s.time.rootId && (s.sync l).nbHops + 1 == s.time.hops

/-- Whether the module's own candidacy beats an offer. -/
def State.ownWins (s : State) (offer : Option Nat) : Bool :=
  match s.time.candidate, offer with
  | none, _ => false
  | some _, none => true
  | some p, some l => decide (p < (s.sync l).rootPrio ∨ (p = (s.sync l).rootPrio ∧ s.ownId < (s.sync l).rootId))

/-- Choose the root and the parent again, and the time state that follows. -/
def State.chooseRoot (s : State) : State :=
  let b := s.bestOffer
  if s.time.state = 0 then s
  else if s.ownWins b then
    (s.modTime fun t => { t with
      rootId := s.ownId, rootPrio := t.candidate.getD 255, hops := 0, parent := none, offset16 := 0, ratePpb := 0 }).setTimeState 4
  else match b with
    | some l =>
      let r := s.sync l
      let s := s.modTime fun t => { t with
        rootId := r.rootId, rootPrio := r.rootPrio, hops := r.nbHops + 1, parent := some l }
      if s.time.state = 1 ∨ s.time.state = 2 then s else s.setTimeState 1
    | none =>
      let s := s.modTime fun t => { t with rootId := 0xFFFF, rootPrio := 255, hops := 0, parent := none }
      if s.time.state = 3 then s else s.setTimeState 3

/-- Steer toward the mean offset of the upstream neighbours. The rate within its bound is a free value (log 7). -/
def State.steer (s : State) : State :=
  let us := s.upstream
  if us.isEmpty ∨ s.time.state = 0 ∨ s.time.state = 4 then s
  else
    let mean := (us.foldl (fun (a : Int) l => a + (s.sync l).offset16) 0) / (us.length : Int)
    let par := match s.time.parent with
      | some l => (s.sync l).offset16
      | none => 0
    let r : Int := (Config.freeNat s.freeCtr % 200001 : Nat)
    let rate : Int := if par < -16000000 then -200000 else if 0 < mean then r else if mean < 0 then -r else 0
    let jump := if 16000000 < par then (par / 16).toNat else 0
    let s := s.bumpFree.modTime fun t => { t with
      offset16 := mean, ratePpb := rate, btime := t.btime + jump
      goodSince := if mean.natAbs ≤ 32 then t.goodSince else t.elapsed }
    if s.time.state = 2 ∧ 80 < mean.natAbs then s.setTimeState 1 else s

/-! ### TIME_SYNC (R363) -/

/-- TIME_SYNC_SEND of a port whose link is up, every 10 µs, ahead of all that waits for the port (R353). A candidate that
is the root advances ROOT_SEQ with each message. -/
def execTimeSyncSend (l : Fin 6) (s : State) : Host.Outcome State Fault Refusal :=
  let early := (s.sync l.val).sentAt.any fun t => decide (s.clock < t + 9000)
  if (s.link l.val).state ≠ 2 ∨ early ∨ !(s.link l.val).roomFor 1 then .next s
  else
    let s := if s.time.candidate.isSome then s.modTime fun t => { t with ownSeq := t.ownSeq + 1 } else s
    let r := s.sync l.val
    let seq := if s.time.state = 4 then s.time.ownSeq else match s.time.parent with
      | some q => (s.sync q).rootSeq
      | none => 0
    let m : TimeSyncMsg := {
      tSend := s.now, tEcho := r.tSend, tDwell := 16 * (s.now - r.at_) % 2 ^ 32, rootSeq := seq, rootId := s.time.rootId
      rootPrio := s.time.rootPrio, hops := s.time.hops, sendFrac := 0, echoFrac := r.sendFrac, state := s.time.state }
    .next (((s.modSync l.val fun r => { r with sentAt := some s.clock }).count (ctrId (placeLink l.val) 7 13) 1).queueFor l.val {
      what := .timeSync l.val m, cls := 1, flow := 0, partition := 0, left := 1, since := s.clock })

/-- TIME_SYNC received: delay and offset in sixteenths of a ns, then the choice of the root and the steering. -/
def execTimeSync (l : Fin 6) (m : TimeSyncMsg) (s : State) : Host.Outcome State Fault Refusal :=
  if (s.link l.val).state ≠ 2 then .next s
  else
    let s := s.count (ctrId (placeLink l.val) 7 14) 1
    let old := s.sync l.val
    -- in state NONE the module takes the time of its first accepted link
    let s := if s.time.state = 0 ∧ m.state ≠ 0 then
        (s.modTime fun t => { t with btime := m.tSend + (old.delay16 / 16).toNat }).setTimeState 1
      else s
    let t4 : Int := 16 * s.now
    let real := m.tEcho != 0
    let delay : Int := if real then ((t4 - (16 * m.tEcho + m.echoFrac : Nat)) - m.tDwell) / 2 else old.delay16
    let step := (m.rootSeq - old.rootSeq).toNat
    let adv := !old.heard || m.rootId != old.rootId || decide (1 ≤ step ∧ step < 2 ^ 31)
    let s := s.modSync l.val fun r => {
      heard := true, at_ := s.now, tSend := m.tSend, sendFrac := m.sendFrac, nbId := (s.link l.val).nbId, nbState := m.state
      nbHops := m.hops, rootId := m.rootId, rootPrio := m.rootPrio, rootSeq := if adv then m.rootSeq else r.rootSeq
      seqAt := if adv then s.clock else r.seqAt, measured := r.measured || real, delay16 := delay
      offset16 := ((16 * m.tSend + m.sendFrac : Nat) + delay) - t4, sentAt := r.sentAt }
    .next s.chooseRoot.steer

/-- ROOT_LOST: the root in use has not advanced for 1 ms on any link. -/
def execRootLost (s : State) : Host.Outcome State Fault Refusal :=
  if s.time.parent.isSome && !((List.range 6).any fun l => s.offers l && (s.sync l).rootId == s.time.rootId) then
    .next s.chooseRoot
  else .next s

/-- TIME_LOCK: the offset has stayed within ±2 ns for 1 s. -/
def execTimeLock (s : State) : Host.Outcome State Fault Refusal :=
  if s.time.state = 1 ∧ !s.upstream.isEmpty ∧ s.time.offset16.natAbs ≤ 32 ∧ s.time.goodSince + 1000000000 ≤ s.clock then
    .next (s.setTimeState 2)
  else .next s

/-- TIME_HOLDOVER: the last locked upstream link is lost. -/
def execTimeHoldover (s : State) : Host.Outcome State Fault Refusal :=
  if (s.time.state = 1 ∨ s.time.state = 2) ∧ s.upstream.isEmpty then
    .next ((s.modTime fun t => { t with rootId := 0xFFFF, rootPrio := 255, hops := 0, parent := none }).setTimeState 3)
  else .next s

/-! ### TIME_ROOT and TIME_STATUS (R368, R369) -/

def bodyTimeRoot (s : State) (c : Cmd) : Chk State := do
  let p := bits (c.word 0) 7 0
  need (p != 0) (c.bad 0x01F0 0 3)
  let s := s.modTime fun t => { t with candidate := if p = 255 then none else some p }
  let hears := (List.range 6).any fun l => (s.link l).state == 2 && (s.sync l).heard && (s.sync l).nbState != 0
  let first := p != 255 && s.time.state == 0 && !hears
  let s := if first then (s.modTime fun t => { t with
      btime := if c.expert then c.word 1 else 0, rootId := s.ownId, rootPrio := p, hops := 0, offset16 := 0, ratePpb := 0 }).setTimeState 4
    else s.chooseRoot
  .ok (s.finish c (pack [(1, s.time.state), (1, b2n first), (2, s.time.rootId)]))

def execTimeRoot (id : Nat) (s : State) : Host.Outcome State Fault Refusal := .next (s.startCmd id 0x0803 bodyTimeRoot)

/-- The record of one link (R369). -/
def State.syncRecord (s : State) (l : Nat) : List Byte :=
  let r := s.sync l
  pack [(2, (s.link l).nbId), (1, r.nbState), (1, r.nbHops), (4, signed 32 r.delay16), (4, signed 32 r.offset16), (4, 0),
    (8, r.at_), (8, 0)]

def bodyTimeStatus (s : State) (c : Cmd) : Chk State := do
  let t := s.time
  let s ← if c.expert then s.toBuffer c 0 (c.word 0) ((List.range 6).flatMap s.syncRecord) 1 else .ok s
  .ok (s.finish c (pack [(8, s.now), (1, t.state), (1, t.hops), (1, t.rootPrio), (1, t.parent.getD 0xFF), (2, t.rootId), (2, 0),
    (4, signed 32 t.offset16), (4, signed 32 t.ratePpb), (8, t.enteredAt)]))

def execTimeStatus (id : Nat) (s : State) : Host.Outcome State Fault Refusal := .next (s.startCmd id 0x0801 bodyTimeStatus)

/-! ### BARRIER_AT (R370) -/

/-- The results of a barrier that ends. -/
def Barrier.result (b : Barrier) : List Byte :=
  pack [(4, b.used), (4, b.late), (4, b.skipped), (4, sat32 b.maxLate), (8, b.lastStart)]

/-- Disarm the barrier of a pavilion, its command ending with an ST_ABORT status. A step start that waits for it goes
on. -/
def State.cancelBarrier (s : State) (p status target : Nat) (cause : Option Cmd) : State :=
  match (s.pav p).bind (·.barrier) with
  | none => s
  | some b =>
    let s := s.modPav p fun v => { v with barrier := none }
    let s := match s.cmd b.cmd with
      | some x => s.abort x status target cause
      | none => s
    if (s.runOf p).any fun x => x.2.1.phase == 2 then s.beginStep p else s

def bodyBarrierAt (s : State) (c : Cmd) : Chk State := do
  let w := c.word
  let p := c.pavilion
  if c.expert && bitAt (w 2) 0 then
    .ok ((s.cancelBarrier p 0x0303 (pavTarget p) (some c)).finish c [])
  else
    need s.timeOn { code := 0x01F0, reason := 1 }
    let n := if c.expert then bits (w 2) 63 32 else 1
    let n := if n = 0 then 1 else n
    let period := if c.expert then w 1 else 0
    need (decide (n ≤ 1) || period != 0) (c.bad 0x01F0 1 2)
    need ((s.pav p).any fun v => v.barrier.isNone) { code := 0x0104 }
    .ok ((s.started c).modPav p fun v => { v with
      barrier := some { cmd := c.serial, at_ := w 0, period := period, count := n, skipLate := c.expert && bitAt (w 2) 2 } })

def execBarrierAt (id : Nat) (s : State) : Host.Outcome State Fault Refusal := .next (s.startCmd id 0x0802 bodyBarrierAt)

end Sys2Proof.Machine
end

