-- ==== Sys2Proof/Machine/Stop.lean ====
section
/-! DEFINITION. Cutting commands off: what a fence (R337), an emergency stop (R91), a reset (R414), a destroy (R409) and
a takeover (R86) have in common. -/

namespace Sys2Proof.Machine

/-- Undo what a command that has started would still have done: its descriptors, the change that it has armed, what it
waits for. -/
def State.disarm (s : State) (c : Cmd) : State :=
  let p := c.pavilion
  let id := c.serial
  let s := (s.dropJob c).modPower fun x => { x with pendingCaps := x.pendingCaps.filter fun y => y.cmd != id }
  let s := s.modRoute fun r => { r with
    pendingFences := r.pendingFences.filter fun y => y.cmd != id
    pendingSwap := r.pendingSwap.filter fun y => y.1 != id
    stepAside := r.stepAside.filter fun y => y.1 != id }
  match s.pav p with
  | none => s
  | some v =>
    let s := match v.twin.restore.filter fun x => x.cmd == id with
      | none => s
      | some x => (forEach x.done (fun (s : State) n => s.dropShard n) s).modPav p fun v => { v with
          reshape := { v.reshape with active := none }, twin := { v.twin with restore := none } }
    let s := if c.opcode = 0x0410 ∧ v.sealing.isNone then s.unseal p else s
    s.modPav p fun v => { v with
      barrier := v.barrier.filter fun b => b.cmd != id
      reshape := { v.reshape with cmd := v.reshape.cmd.filter (· != id), commitAt := v.reshape.commitAt.filter fun x => x.1 != id }
      twin := { v.twin with
        state := if v.twin.cmd = some id then 0 else v.twin.state
        cmd := v.twin.cmd.filter (· != id)
        compare := v.twin.compare.filter fun k => k.cmd != id
        disagree := v.twin.disagree.map fun (d : Disagree) => { d with cmd := d.cmd.filter (· != id) } } }

/-- Cut a command off, whether it has started or not; a run ends at its tile boundary (R122). -/
def State.cutOff (s : State) (c : Cmd) (status target : Nat) (cause : Option Cmd) : State :=
  if (s.runOf c.pavilion).any fun x => x.2.1.cmd == c.serial then s.abortRun c.pavilion status target cause
  else (s.disarm c).abort c status target cause

/-- Complete every unfinished command of a pavilion with a status, but those that are spared and class 0x00, which
acts on its ring set alone (R70), a PROGRAM_STOP that waits for the boundary among them. An unsealed step leaves its shards
at rest. -/
def State.stopPav (s : State) (p status target : Nat) (cause : Option Cmd) (spare : Cmd → Bool) : State :=
  let s := s.forCmds (fun c => c.pavilion == p && c.opcode == 0x0303 && c.phase == .started && !spare c) fun s c =>
    s.abort c status target cause
  let s := s.abortRun p status target cause
  let s := if (s.pav p).any (·.sealing.isNone) then s.unseal p else s
  s.forCmds (fun c => c.pavilion == p && c.opcode / 256 != 0 && !spare c) fun s c => s.cutOff c status target cause

end Sys2Proof.Machine
end

