-- ==== Sys2Proof/Machine/Link.lean ====
section
/-! DEFINITION. The optical links (R319 to R329): flits, lanes, training, quarantine, and the bridles that training
depends on. -/

namespace Sys2Proof.Machine

/-! ### Lanes (R319, R324, R325) -/

def linkWidth (l : Nat) : Nat := [32, 16, 8].getD (l % 3) 0

def Link.lane (k : Link) (i : Nat) : Lane := tget k.lanes i {}
/-- Lanes this end can use. -/
def Link.ownMask (k : Link) (l : Nat) : Nat :=
  bitsMask ((List.range (linkWidth l)).filter fun i =>
    let x := k.lane i
    !x.retired && !x.parked && !x.testing)
/-- Number of lanes of a mask. -/
def popcount (m : Nat) : Nat := (maskBits 32 m).length

def State.modLane (s : State) (l i : Nat) (f : Lane → Lane) : State :=
  s.modLink l fun k => { k with lanes := tset k.lanes i (f (k.lane i)) }

/-- Link and route events go to both physical functions (R349). -/
def State.linkEvent (s : State) (l code sev : Nat) (data : List Byte) : State := s.postModule code sev (placeLink l) data

/-- A link goes down (R323): causes 1 to 4. -/
def State.linkDown (s : State) (l cause : Nat) : State :=
  if (s.link l).state ≠ 2 then s
  else
    let s := s.modLink l fun k => { k with state := 0, inUse := 0, pendingMask := none }
    s.linkEvent l 0x0702 1 (pack [(1, l), (1, cause)])

/-- Schedule the lanes that both ends can use, at a switch FSEQ 256 flits ahead; without a lane the link goes down. -/
def State.planLanes (s : State) (l : Nat) (ahead : BitVec 16) : State :=
  let k := s.link l
  let m := k.ownMask l &&& k.peerMask
  if k.state ≠ 2 then s
  else if m = 0 then s.linkDown l 3
  else s.modLink l fun k => { k with pendingMask := some (m, ahead + 256) }

/-- This end's lane mask has changed: it is sent, and a switch is named. -/
def State.ownLanes (s : State) (l : Nat) : State :=
  let k := s.link l
  (s.emit (.laneMaskSent l (k.ownMask l))).planLanes l k.sendSeq

/-- Retire a lane; its third retirement within 3,600 s parks it. -/
def State.retireLane (s : State) (l i : Nat) : State :=
  let now := s.clock
  let x := (s.link l).lane i
  let times := (x.retirements.filter fun t => decide (now < t + 3600000000000)) ++ [now]
  let parks := decide (3 ≤ times.length)
  let s := s.modLane l i fun x => { x with retired := true, retiredAt := now, testing := false, retirements := times, parked := parks }
  let s := s.count (ctrId (placeLink l) 7 12) 1
  let s := if parks && !x.parked then s.linkEvent l 0x0705 1 (pack [(1, l), (1, i)]) else s
  s.ownLanes l

/-- A lane that an error can retire: within the port's width, and neither retired nor under test. -/
def State.laneLive (s : State) (l i : Nat) : Bool :=
  let x := (s.link l).lane i
  decide (i < linkWidth l) && !x.retired && !x.testing && !x.parked

def execLaneLossOfSignal (l : Fin 6) (lane : Fin 32) (s : State) : Host.Outcome State Fault Refusal :=
  .next (if s.laneLive l.val lane.val then s.retireLane l.val lane.val else s)

/-- LANE_ERROR_RATE: the error events of a lane in one second. -/
def execLaneErrorRate (l : Fin 6) (lane : Fin 32) (events : Nat) (s : State) : Host.Outcome State Fault Refusal :=
  let s := s.count (ctrId (placeLink l.val) 7 11) events
  .next (if 64 < events ∧ s.laneLive l.val lane.val then s.retireLane l.val lane.val else s)

/-- LANE_RECALIBRATE: a lane retired for 30 s is recalibrated, one per port at a time. -/
def execLaneRecalibrate (l : Fin 6) (lane : Fin 32) (s : State) : Host.Outcome State Fault Refusal :=
  let k := s.link l.val
  let x := k.lane lane.val
  if x.retired && !x.parked && !x.testing && decide (x.retiredAt + 30000000000 ≤ s.clock)
      && !(k.lanes.any fun y => y.2.testing) then
    .next (s.modLane l.val lane.val fun x => { x with testing := true })
  else .next s

/-- Re-admit a lane (R325). -/
def State.admitLane (s : State) (l i : Nat) : State :=
  (s.modLane l i fun x => { x with retired := false, testing := false, parked := false }).ownLanes l

/-- LANE_TEST_DONE: a lane passes with no uncorrectable code word and at most 4 error events. -/
def execLaneTestDone (l : Fin 6) (lane : Fin 32) (uncorrectable events : Nat) (s : State) :
    Host.Outcome State Fault Refusal :=
  if !((s.link l.val).lane lane.val).testing then .next s
  else
    let s := s.count (ctrId (placeLink l.val) 7 11) events
    .next (if uncorrectable = 0 ∧ events ≤ 4 then s.admitLane l.val lane.val else s.retireLane l.val lane.val)

def execLaneMask (l : Fin 6) (mask : BitVec 32) (s : State) : Host.Outcome State Fault Refusal :=
  if (s.link l.val).state ≠ 2 then .next s
  else
    .next ((s.modLink l.val fun k => { k with peerMask := mask.toNat }).planLanes l.val (s.link l.val).recvSeq)

/-- LANE_SWITCH: both ends change lanes at the switch FSEQ. -/
def execLaneSwitch (l : Fin 6) (s : State) : Host.Outcome State Fault Refusal :=
  match (s.link l.val).pendingMask with
  | none => .next s
  | some (m, _) =>
    let s := s.modLink l.val fun k => { k with inUse := m, pendingMask := none }
    .next (s.linkEvent l.val 0x0703 1 (pack [(1, l.val), (3, 0), (4, m)]))

/-! ### Flits (R322, R323) -/

/-- Sequence number a is at or before b, within ±32,768. -/
def seqLe (a b : BitVec 16) : Bool := decide ((b - a).toNat < 32768)

/-- Send the stream again from a FSEQ (R322): every unacknowledged message with a flit at or after it. -/
def State.resend (s : State) (l : Nat) (from_ : BitVec 16) : State :=
  forEach ((s.link l).replay.filter fun x => seqLe from_ x.1) (fun s x => s.emit x.2) s

/-- FLIT_RECEIVE: the CRC, the acknowledgement, a replay that the peer asks for, and the sequence. -/
def execFlitReceive (l : Fin 6) (f : Flit) (s : State) : Host.Outcome State Fault Refusal :=
  let k := s.link l.val
  if k.state ≠ 2 then .next s
  else
    let port := placeLink l.val
    let s := s.count (ctrId port 7 1) 1
    if !f.crcOk then .next ((s.count (ctrId port 7 3) 1).emit (.replayRequest l.val k.recvSeq))
    else
      let newAck := f.ack != k.ackSeq && seqLe k.ackSeq f.ack && seqLe f.ack k.sendSeq
      let s := s.modLink l.val fun k => { k with
        lastValid := s.clock
        ackSeq := if newAck then f.ack else k.ackSeq
        replay := if newAck then k.replay.filter fun x => seqLe f.ack x.1 else k.replay
        replays := if newAck then 0 else k.replays }
      let s := match f.replayFrom with
        | some q => ((s.modLink l.val fun k => { k with replays := k.replays + 1 }).count (ctrId port 7 2) 1).resend l.val q
        | none => s
      let s := if f.fseq = k.recvSeq then s.modLink l.val fun k => { k with recvSeq := k.recvSeq + 1 }
        else if seqLe k.recvSeq f.fseq then s.emit (.replayRequest l.val k.recvSeq)
        else s
      .next (s.flushLink l.val)

def execReplayLimit (l : Fin 6) (s : State) : Host.Outcome State Fault Refusal :=
  .next (if 16 ≤ (s.link l.val).replays then s.linkDown l.val 2 else s)

def execLinkIdleTimeout (l : Fin 6) (s : State) : Host.Outcome State Fault Refusal :=
  .next (if (s.link l.val).lastValid + 100000 ≤ s.clock then s.linkDown l.val 1 else s)

/-- PACKET_QUEUE_TIMEOUT: packets that have waited 2 ms for a link that is not up are dropped and counted. -/
def execPacketQueueTimeout (l : Fin 6) (s : State) : Host.Outcome State Fault Refusal :=
  let k := s.link l.val
  if k.state = 2 then .next s
  else
    let old := fun (w : Waiting) => decide (w.since + 2000000 ≤ s.clock)
    let n := (k.queue.filter old).length
    if n = 0 then .next s
    else .next ((s.modLink l.val fun k => { k with queue := k.queue.filter fun x => !old x }).count (ctrId (placeLink l.val) 7 4) n)

/-! ### Bridles (R338) -/

/-- Close the bridle of an axis: its links go down with cause 4. -/
def State.closeBridle (s : State) (a : Nat) : State :=
  if !(s.axis a).isOpen then s
  else
    let s := forEach [a, a + 3] (fun s l => (s.linkDown l 4).modLink l fun k => { k with
      state := 4, inUse := 0, peerMask := 0, nbId := 0xFFFF, nbDigest := 0, reason := 0, pendingMask := none }) s
    (s.modAxis a fun x => { x with isOpen := false }).postModule 0x0706 1 0xFFFF (pack [(1, a), (1, 1)])

/-- The loopback self-test of an axis has passed in the last 600 s. -/
def State.loopFresh (s : State) (a : Nat) : Bool :=
  match (s.axis a).loopAt with
  | some t => decide (s.clock < t + 600000000000)
  | none => false

/-- The plane of an epoch, active or shadow. -/
def State.planeOf (s : State) (epoch : Nat) : Option Plane :=
  ([s.route.active, s.route.shadow].filterMap id).find? fun p => p.epoch == epoch

/-- The plane whose SELF_ID and ACCEPT lists a port uses: that of a join in progress, or the active one. -/
def State.trainPlane (s : State) (l : Nat) : Option Plane :=
  match (s.axis (l % 3)).join with
  | some j => s.planeOf j.epoch
  | none => s.route.active

/-- ACCEPT slots of logical port q. -/
def Plane.slots (p : Plane) (q : Nat) : List Nat := (p.accept.drop (8 * q)).take 8

/-- End a join (R343): the bridle closes when it fails. -/
def State.failJoin (s : State) (a port reason : Nat) : State :=
  match (s.axis a).join with
  | none => s
  | some j =>
    let s := (s.closeBridle a).modAxis a fun x => { x with join := none, loopTest := none, lastReason7 := reason == 7 }
    match s.cmd j.cmd with
    | some c => s.fail c 0x02B0 (placeLink (s.physLink port)) (port * 256 + reason)
    | none => s

/-- Stages 10 and 11 (R439): a join has completed, and every bridle has opened in this start. Each is posted (R454). -/
def State.lateStages (s : State) (joined : Bool) : State :=
  let reach := fun (s : State) (n : Nat) => let s := s.setStage n; s.postModule 0x0C01 0 0xFFFF s.startCompleteData
  let s := if joined && s.boot.stage == 9 then reach s 10 else s
  if s.boot.stage = 10 ∧ [0, 1, 2].all s.boot.everOpened.contains then reach s 11 else s

/-- A join completes when both ports of its axis are up. -/
def State.joinCheck (s : State) (a : Nat) : State :=
  match (s.axis a).join with
  | none => s
  | some j =>
    let m := s.link (s.physLink a)
    let p := s.link (s.physLink (a + 3))
    if m.state ≠ 2 ∨ p.state ≠ 2 then s
    else
      let s := s.modAxis a fun x => { x with join := none, lastReason7 := false }
      match s.cmd j.cmd with
      | some c => (s.finish c (pack [(1, popcount m.inUse), (1, popcount p.inUse), (1, min m.level p.level), (1, 0), (2, m.nbId),
          (2, p.nbId), (8, s.now)])).lateStages true
      | none => s

/-! ### Training (R326 to R329) -/

def execLinkRetrain (l : Fin 6) (s : State) : Host.Outcome State Fault Refusal :=
  let k := s.link l.val
  if !k.enabled || !(s.axis (l.val % 3)).isOpen then .next s
  else if k.state = 0 ∨ (k.state = 1 ∧ k.triedAt + 100000000 ≤ s.clock) then
    .next (s.modLink l.val fun k => { k with state := 1, triedAt := s.clock })
  else .next s

def execQuarantineRetry (l : Fin 6) (s : State) : Host.Outcome State Fault Refusal :=
  let k := s.link l.val
  if k.state = 3 ∧ k.triedAt + 1000000000 ≤ s.clock then
    .next (s.modLink l.val fun k => { k with state := 1, triedAt := s.clock })
  else .next s

/-- TRAINING_RECORD_SEND: the record of a port that trains, is quarantined, or runs a loopback self-test. -/
def execTrainingRecordSend (l : Fin 6) (s : State) : Host.Outcome State Fault Refusal :=
  let k := s.link l.val
  let x := s.axis (l.val % 3)
  let loop := x.loopTest.isSome && !x.isOpen
  if k.state ≠ 1 ∧ k.state ≠ 3 ∧ !loop then .next s
  else
    let q := s.physLink l.val
    let code := match x.join with
      | some j => if q < 3 then j.minusCode else j.plusCode
      | none => 0
    let p := s.trainPlane l.val
    .next (s.emit (.training l.val {
      identityDigest := identityDigest, grantCode := code, time := s.now, laneMask := k.ownMask l.val
      routeEpoch := (p.map (·.epoch)).getD 0, deviceId := (p.map (·.selfId)).getD 0xFFFF, level := 3, axis := l.val % 3
      dirPlus := decide (3 ≤ q), joining := x.join.isSome, loopback := loop }))

/-- The grant of a port while its window lasts, or while a neighbour that started in it trains (R343). -/
def State.grantOf (s : State) (l : Nat) : Option Grant :=
  (s.link l).grant.filter fun g => decide (s.clock < g.until_) || (g.inTraining && (s.link l).state == 1)

/-- Why a training record is not accepted (R328, R329), or none. -/
def State.trainFault (s : State) (l : Nat) (t : TrainRec) : Option Nat :=
  let q := s.physLink l
  let listed := (s.trainPlane l).any fun p => (p.slots q).contains t.deviceId && t.deviceId != 0xFFFF
  if t.axis ≠ l % 3 then some 1
  else if t.dirPlus = decide (3 ≤ q) then some 2
  else if t.level < 2 then some 5
  else if listed then none
  else if (s.axis (l % 3)).join.isSome then some 3
  else match s.grantOf l with
    | none => some 3
    | some g =>
      if t.deviceId ≠ g.joiner then some 3
      else if t.grantCode = g.code.toNat ∧ (g.digest = 0 ∨ g.digest = t.identityDigest) then none
      else some 4

/-- Both ports of an axis face the wrong way, and each neighbour is the nearest of the other port (reason 7). -/
def State.swapped (s : State) (l : Nat) (dev : Nat) : Bool :=
  let o := (l + 3) % 6
  let k := s.link o
  k.state == 3 && k.reason == 2 && ((s.trainPlane l).any fun p =>
    (p.slots (s.physLink o)).head? == some dev && (p.slots (s.physLink l)).head? == some k.quarDevice)

def State.quarantine (s : State) (l reason dev : Nat) : State :=
  let seven := reason == 2 && s.swapped l dev
  let r := if seven then 7 else reason
  let s := s.modLink l fun k => { k with state := 3, reason := r, quarDevice := dev, triedAt := s.clock }
  let s := if seven then s.modLink ((l + 3) % 6) fun k => { k with reason := 7 } else s
  s.linkEvent l 0x0704 2 (pack [(1, l), (1, r), (2, dev)])

/-- A port accepts its neighbour: the link is up, at the lower level, on the lanes of both masks. -/
def State.linkUp (s : State) (l : Nat) (t : TrainRec) : State :=
  let k := s.link l
  let m := k.ownMask l &&& t.laneMask
  if m = 0 then
    -- no lane in common yet; a joiner that has started within its window keeps its grant
    s.modLink l fun k => { k with grant := k.grant.map fun (g : Grant) =>
      if g.joiner = t.deviceId then { g with inTraining := true } else g }
  else
    let byGrant := !((s.trainPlane l).any fun p => (p.slots (s.physLink l)).contains t.deviceId)
    let s := s.modLink l fun k => { k with
      state := 2, inUse := m, peerMask := t.laneMask, level := min 3 t.level, nbId := t.deviceId, nbDigest := t.identityDigest
      reason := 0, pendingMask := none, lastValid := s.clock, sendSeq := 0, ackSeq := 0, recvSeq := 0, replays := 0, replay := []
      grant := if byGrant then none else k.grant }
    let s := (s.modSync l fun _ => {}).linkEvent l 0x0701 0 (pack [(1, l), (1, popcount m), (2, t.deviceId)])
    -- building time begins from the first accepted link
    let s := if s.time.state = 0 ∧ t.time ≠ 0 then (s.modTime fun x => { x with btime := t.time }).setTimeState 1 else s
    (s.flushLink l).joinCheck (l % 3)

def execTrainingRecord (l : Fin 6) (t : TrainRec) (s : State) : Host.Outcome State Fault Refusal :=
  if (s.link l.val).state ≠ 1 then .next s
  else match s.trainFault l.val t with
    | some r => .next (s.quarantine l.val r t.deviceId)
    | none => .next (s.linkUp l.val t)

/-! ### Bridles and joins over time (R338, R343) -/

/-- BRIDLE_OPEN: a join whose loopback self-test is fresh opens the bridle and trains both ports. -/
def execBridleOpen (axis : Fin 3) (s : State) : Host.Outcome State Fault Refusal :=
  let a := axis.val
  match (s.axis a).join with
  | none => .next s
  | some j =>
    if (s.axis a).isOpen || (s.axis a).loopTest.isSome || !s.loopFresh a || !s.route.noForward.isEmpty then .next s
    else
      let s := s.modAxis a fun x => { x with
        isOpen := true, join := some { j with limit := s.clock + j.trainNs } }
      let s := forEach [a, a + 3] (fun s l => s.modLink l fun k => { k with state := 1, triedAt := s.clock }) s
      let s := (s.modBoot fun b => { b with everOpened := addNew b.everOpened a }).lateStages false
      .next (s.postModule 0x0706 1 0xFFFF (pack [(1, a), (1, 0)]))

/-- BRIDLE_CLOSE, where its cause holds. A join whose port was quarantined ends here. -/
def execBridleClose (axis : Fin 3) (cause : BridleCause) (s : State) : Host.Outcome State Fault Refusal :=
  let a := axis.val
  let due : Bool := match cause with
    | .powerLoss => !s.power.pwrGood
    | .reset => !s.power.resetN
    | .stepAside => s.route.stepAside.any fun x => x.2.1.testBit a && decide (x.2.2 ≤ s.now)
    | .joinFailed => false
    | .forwarding => !s.route.noForward.isEmpty
  match cause, [a, a + 3].find? fun l => (s.link l).state == 3 with
  | .joinFailed, some l =>
    if (s.axis a).join.isSome then .next (s.failJoin a (s.physLink l) (s.link l).reason) else .next s
  | _, _ => .next (if due then s.closeBridle a else s)

/-- JOIN_TIMEOUT: training has passed TRAIN_MS, or the bridle did not report open. -/
def execJoinTimeout (axis : Fin 3) (s : State) : Host.Outcome State Fault Refusal :=
  let a := axis.val
  match (s.axis a).join with
  | none => .next s
  | some j =>
    if (s.axis a).loopTest.isSome || decide (s.clock < j.limit) then .next s
    else
      let port := if (s.link (s.physLink a)).state ≠ 2 then a else a + 3
      .next (s.failJoin a port (if (s.axis a).isOpen then 8 else 9))

/-- A join ends before it opens its bridle (R343). -/
def State.rejectJoin (s : State) (a reason : Nat) : State :=
  match (s.axis a).join with
  | none => s
  | some j =>
    let s := s.modAxis a fun x => { x with join := none, loopTest := none }
    match s.cmd j.cmd with
    | some c => s.reject c { code := 0x01E1, reason := reason }
    | none => s

/-- Why a join cannot go on once its loopback self-test has passed (R343): a code is missing, or the plane is not loaded
with ACCEPT lists for both ports. -/
def State.joinFault (s : State) (a : Nat) (j : Join) : Option Nat :=
  let listed := fun (p : Plane) (q : Nat) => (p.slots q).any fun x => x != 0xFFFF
  if !j.form && (j.minusCode == 0 || j.plusCode == 0) then some 3
  else if !((s.planeOf j.epoch).any fun p => listed p a && listed p (a + 3)) then some 2
  else none

/-- A join whose self-test is fresh goes on to its bridle, with TRAIN_MS from now, or ends. -/
def State.joinGoesOn (s : State) (a : Nat) : State :=
  match (s.axis a).join with
  | none => s
  | some j => match s.joinFault a j with
    | some r => s.rejectJoin a r
    | none => s.modAxis a fun x => { x with join := some { j with limit := s.clock + j.trainNs } }

/-- LOOPBACK_DONE: at stage 8, or for a join. -/
def execLoopbackDone (axis : Fin 3) (pass : Bool) (s : State) : Host.Outcome State Fault Refusal :=
  let a := axis.val
  let x := s.axis a
  if x.isOpen || !(x.loopTest.isSome || s.boot.stage == 8) then .next s
  else if pass then .next ((s.modAxis a fun x => { x with loopAt := some s.clock, loopTest := none }).joinGoesOn a)
  else .next ((s.modAxis a fun x => { x with loopAt := none, loopTest := none }).rejectJoin a 6)

def execGrantExpire (l : Fin 6) (s : State) : Host.Outcome State Fault Refusal :=
  match (s.link l.val).grant with
  | none => .next s
  | some g =>
    if s.clock < g.until_ ∨ (g.inTraining ∧ (s.link l.val).state = 1) then .next s
    else .next (s.modLink l.val fun k => { k with grant := none })

/-- HUB_FORWARD_FAIL (R26, R350): a hub, or with 2 the hub bridge, cannot forward. All three bridles close, and a join in
progress completes with REASON 8. -/
def execHubForwardFail (unit : Fin 3) (s : State) : Host.Outcome State Fault Refusal :=
  .next (forEach [0, 1, 2] (fun s a => (s.closeBridle a).rejectJoin a 8)
    (s.modRoute fun r => { r with noForward := addNew r.noForward unit.val }))

end Sys2Proof.Machine
end

