-- ==== Sys2Proof/Machine/Fabric.lean ====
section
/-! DEFINITION. Packets and route planes (R331 to R336), fences (R337), and the commands on links and bridles (R330,
R341 to R343, R348). -/

namespace Sys2Proof.Machine

/-! ### Forwarding (R332) -/

/-- The plane before a swap still serves: for 1 ms (R335). -/
def State.oldServes (s : State) : Bool := s.route.old && decide (s.clock < s.route.swapAt + 1000000)

/-- The plane of a parity (R332, R335): the active one, or the shadow plane. After a swap the shadow is the plane before
it, which serves for 1 ms only. -/
def State.planeFor (s : State) (parity : Bool) : Option Plane :=
  let newer := fun (p : Plane) => (s.route.active.all fun q => decide (q.epoch < p.epoch)) || s.oldServes
  ([s.route.active, s.route.shadow.filter newer].filterMap id).find? fun p => (p.epoch % 2 == 1) == parity

def execPacketArrive (l : Fin 6) (k : Pkt) (s : State) : Host.Outcome State Fault Refusal :=
  let port := placeLink l.val
  let drop := fun (i : Nat) => s.count (ctrId port 7 i) 1
  -- the receiving port consumes a TIME_SYNC (R363), which TIME_SYNC's own row takes
  if (s.link l.val).state ≠ 2 ∨ k.type = 0x30 then .next s
  else match s.planeFor k.plane with
    | none => .next (drop 10)
    | some pl =>
      let e := (tfind pl.entries k.dest).getD { port := 7, dateline := false, partition := 0xFFF, level2 := false }
      if s.route.fences.contains k.partition then .next (drop 5)
      else if k.partition ≠ 0 ∧ e.partition ≠ 0xFFF ∧ e.partition ≠ k.partition then .next (drop 6)
      else if e.port = 6 then
        if k.partition = 0 ∨ (s.pavs.any fun v => v.2.partition == k.partition) then .next (s.emit (.delivered k))
        else .next (drop 7)
      else if 6 < e.port ∨ s.physLink e.port = l.val then .next (drop 8)
      else if (k.hops + 63) % 64 = 0 then .next (drop 9)
      else .next (s.queuePacket (s.physLink e.port) { k with hops := (k.hops + 63) % 64, vc := e.dateline || k.vc })

/-! ### ROUTE_LOAD (R333, R334) -/

def routeDevices : Nat := 12800
def parseEntry (x : Nat) : RouteEntry :=
  { port := bits x 31 29, dateline := bitAt x 28, partition := bits x 27 16, level2 := bitAt x 15 }
def entryWord (e : RouteEntry) : Nat := e.port * 2 ^ 29 + b2n e.dateline * 2 ^ 28 + e.partition * 2 ^ 16 + b2n e.level2 * 2 ^ 15

/-- The digest of a whole plane under the rule of PLANE_DIGEST. -/
def Plane.digest (p : Plane) : Nat :=
  digest128 (pack ([(4, 0x45545552), (2, routeDevices), (2, p.selfId), (4, 51328), (4, p.epoch)])
    ++ pack (p.accept.map fun x => (2, x)) ++ leBytes 16 0
    ++ pack ((List.range routeDevices).map fun i => (4, ((tfind p.entries i).map entryWord).getD 0)))

/-- Every entry is valid, and SELF_ID's entry, and only that one, is LOCAL. -/
def Plane.ok (p : Plane) : Bool :=
  p.entries.length == routeDevices && decide (p.selfId < routeDevices)
    && p.entries.all fun e => e.2.partition != 0 && ((e.2.port == 6) == (e.1 == p.selfId))

def routeReject (r : Nat) : Rej := { code := 0x01E0, reason := r }
/-- The same for parameter word i. -/
def Cmd.badRoute (c : Cmd) (i r : Nat) : Rej := c.bad 0x01E0 i r

def bodyRouteLoad (s : State) (c : Cmd) : Chk State := do
  let a := c.word 0
  let n := bits (c.word 1) 31 0
  let merge := c.expert && bitAt (c.word 2) 32
  let first := if merge then bits (c.word 2) 31 16 else 0
  s.checkAddr c 0 a n 64
  match s.badRead a n with
  | some w => .ok (s.failMemory c w)
  | none =>
    let data := s.readMem a n
    let f := fun o k => field data o k
    let count := f 4 2
    need (decide (128 ≤ n) && f 0 4 == 0x45545552 && f 8 4 == n && n == 128 + 4 * count
      && (merge || count == routeDevices)) (routeReject 1)
    need (f 112 16 == digest128 (data.take 112 ++ List.replicate 16 0 ++ data.drop 128)) (routeReject 2)
    let given := (List.range count).map fun i => (first + i, parseEntry (f (128 + 4 * i) 4))
    let base := if merge then (s.route.active.map (·.entries)).getD [] else []
    let p : Plane := {
      epoch := f 12 4, selfId := f 6 2, accept := (List.range 48).map fun i => f (16 + 2 * i) 2
      entries := if merge then given.foldl (fun t e => tset t e.1 e.2) base else given }
    need p.ok (routeReject 3)
    need (match s.route.active with
      | some q => decide (q.epoch < p.epoch)
      | none => true) (routeReject 5)
    need s.route.pendingSwap.isNone (routeReject 6)
    .ok ((s.modRoute fun r => { r with shadow := some p }).finish c (pack [(4, p.epoch), (4, 0), (16, p.digest)]))

/-- A ROUTE_LOAD within 1 ms of a swap starts at the end of that millisecond. -/
def execRouteLoad (id : Nat) (s : State) : Host.Outcome State Fault Refusal :=
  if s.oldServes then .next s else .next (s.startCmd id 0x0501 bodyRouteLoad)

/-! ### ROUTE_SWAP (R335) -/

/-- Exchange the planes, for the command that asked for it where it is still there. A reshape ends whose modules the new
plane does not reach. -/
def State.swapPlanes (s : State) (c : Option Cmd) : State :=
  match s.route.shadow with
  | none => s
  | some p =>
    let prev := s.route.active
    let s := s.modRoute fun r => { r with
      active := some p, shadow := prev, old := prev.isSome, swapAt := s.clock, pendingSwap := none }
    let s := (s.postModule 0x0501 0 0xFFFF (pack [(4, p.epoch), (2, p.selfId)])).reshapePeers
    match c with
    | none => s
    | some c => s.finish c (pack [(4, p.epoch), (4, (prev.map (·.epoch)).getD 0), (8, s.now), (2, p.selfId)])

/-- AT_TIME needs building time (R503). -/
def State.needTime (s : State) (c : Cmd) (t : Nat) (i : Nat) : Chk Unit :=
  need (t == 0 || s.timeOn) { c.bad 0x01F0 i 1 with reason := 1 }

def bodyRouteSwap (s : State) (c : Cmd) : Chk State := do
  let want := bits (c.word 0) 63 32
  let t := if c.expert then c.word 1 else 0
  let shadow := s.route.shadow.any fun p => p.epoch == want
  if c.expert && bitAt (c.word 0) 0 then
    match s.route.pendingSwap with
    | none => .error (routeReject 7)
    | some (id, _) =>
      need shadow (c.badRoute 0 5)
      let s := s.modRoute fun r => { r with pendingSwap := none }
      let s := match s.cmd id with
        | some x => s.abort x 0x0303 0 (some c)
        | none => s
      .ok (s.finish c [])
  else
    s.needTime c t 1
    need s.route.pendingSwap.isNone (routeReject 6)
    need (shadow && s.route.active.all fun p => decide (p.epoch < want)) (c.badRoute 0 5)
    if t = 0 then .ok (s.swapPlanes (some c))
    else
      need (decide (s.now ≤ t)) (c.badRoute 1 4)
      .ok ((s.started c).modRoute fun r => { r with pendingSwap := some (c.serial, t) })

def execRouteSwap (id : Nat) (s : State) : Host.Outcome State Fault Refusal := .next (s.startCmd id 0x0502 bodyRouteSwap)

/-- ROUTE_SWAP_TAKE_EFFECT: the armed swap acts though its command is gone. -/
def execRouteSwapTakeEffect (s : State) : Host.Outcome State Fault Refusal :=
  match s.route.pendingSwap with
  | none => .next s
  | some (id, t) =>
    if !s.timeOn || decide (s.now < t) then .next s
    else .next (s.swapPlanes (s.cmd id))

def execOldPlaneExpire (s : State) : Host.Outcome State Fault Refusal :=
  if s.route.old && decide (s.route.swapAt + 1000000 ≤ s.clock) then
    .next (s.modRoute fun r => { r with old := false })
  else .next s

/-! ### FENCE_SET (R337) -/

/-- A fence or a lift takes effect. -/
def State.fence (s : State) (part : Nat) (lift noStop : Bool) (cause : Option Cmd) : State :=
  let s := s.postModule 0x0502 1 0xFFFF (pack [(2, part), (1, b2n (!lift))])
  let pavs := (s.pavs.filter fun v => v.2.partition == part).map (·.1)
  if lift then
    forEach pavs (fun s p => s.modPav p fun v => { v with fenced := false })
      (s.modRoute fun r => { r with fences := r.fences.filter (· != part) })
  else
    let s := s.modRoute fun r => { r with fences := addNew r.fences part }
    let s := forEach (List.range 6) (fun (s : State) (l : Nat) =>
      let n : Nat := ((s.link l).queue.filter fun w => w.partition == part).length
      if n = 0 then s
      else (s.modLink l fun k => { k with queue := k.queue.filter fun w => w.partition != part }).count (ctrId (placeLink l) 7 5) n) s
    if noStop then s
    else forEach pavs (fun s p => (s.modPav p fun v => { v with fenced := true }).stopPav p 0x0302 (pavTarget p) cause
      fun c => cause.any fun x => x.serial == c.serial) s

def bodyFenceSet (s : State) (c : Cmd) : Chk State := do
  let w := c.word 0
  let part := bits w 11 0
  let t := if c.expert then c.word 1 else 0
  need (part != 0 && part != 0xFFF) (c.bad 0x01E1 0 9)
  s.needTime c t 1
  let lift := bitAt w 16
  let noStop := c.expert && bitAt w 18
  if t ≤ s.now then .ok ((s.fence part lift noStop (some c)).finish c [])
  else
    .ok ((s.started c).modRoute fun r => { r with
      pendingFences := r.pendingFences ++ [{ cmd := c.serial, partition := part, lift := lift, noStop := noStop, atTime := t }] })

def execFenceSet (id : Nat) (s : State) : Host.Outcome State Fault Refusal := .next (s.startCmd id 0x0510 bodyFenceSet)

/-- FENCE_TAKE_EFFECT: the fences that are due, in order. -/
def execFenceTakeEffect (s : State) : Host.Outcome State Fault Refusal :=
  if !s.timeOn then .next s
  else
    let due := s.route.pendingFences.filter fun x => decide (x.atTime ≤ s.now)
    let s := s.modRoute fun r => { r with pendingFences := r.pendingFences.filter fun x => !due.contains x }
    .next (forEach due (fun s x => match s.cmd x.cmd with
      | some c => (s.fence x.partition x.lift x.noStop (some c)).finish c []
      | none => s.fence x.partition x.lift x.noStop none) s)

/-! ### LINK_STATUS (R348) -/

/-- Bytes 16 to 47 of the status of link l. -/
def State.linkStatus (s : State) (l : Nat) (vf : Bool) : List Byte :=
  let k := s.link l
  let x := s.axis (l % 3)
  let parked := bitsMask ((List.range (linkWidth l)).filter fun i => (k.lane i).parked)
  pack [(4, k.inUse), (2, k.nbId), (1, k.state), (1, popcount k.inUse), (1, k.level), (1, k.reason),
    (1, b2n x.reversed + 2 * b2n x.isOpen + 4 * b2n (s.grantOf l).isSome + 8 * b2n (s.loopFresh (l % 3))), (1, 0), (4, parked),
    (16, if vf then 0 else k.nbDigest)]

def State.laneByte (s : State) (l i : Nat) : Nat :=
  let k := s.link l
  let x := k.lane i
  if x.parked then 3 else if x.testing then 2 else if x.retired then 1 else if k.inUse.testBit i then 0 else 4

def bodyLinkStatus (s : State) (c : Cmd) : Chk State := do
  let vf := c.fn != 0
  if c.expert then
    let out := (List.range 6).flatMap fun l =>
      s.linkStatus l vf ++ pack ((List.range 32).map fun i => (1, s.laneByte l i))
    let s ← s.toBuffer c 0 (c.word 0) out 1
    .ok (s.finish c [])
  else
    need (c.target / 4096 == 5) { code := 0x0107, off := 1 }
    .ok (s.finish c (s.linkStatus (c.target % 4096) vf))

def execLinkStatus (id : Nat) (s : State) : Host.Outcome State Fault Refusal := .next (s.startCmd id 0x0701 bodyLinkStatus)

/-! ### LINK_JOIN, ACCEPT_WIRING, BRIDLE_STEP_ASIDE (R330, R341 to R343) -/

def linkReject (r : Nat) : Rej := { code := 0x01E1, reason := r }

/-- GRANT: the security core draws a nonzero code (log 8). -/
def State.openGrant (s : State) (c : Cmd) (l : Nat) : Chk State := do
  let w := c.word
  let ms := if c.expert ∧ bits (w 6) 63 32 ≠ 0 then bits (w 6) 63 32 else 60000
  need (decide (1000 ≤ ms ∧ ms ≤ 600000)) (c.badParam 6)
  need (s.grantOf l).isNone (linkReject 5)
  let code := (Config.random64 s.freeCtr).toNat % (2 ^ 64 - 1) + 1
  let till := s.clock + ms * 1000000
  let s := s.bumpFree.modLink l fun k => { k with grant := some {
    code := BitVec.ofNat 64 code, joiner := bits (w 1) 15 0, digest := if c.expert then w 4 + 2 ^ 64 * w 5 else 0
    until_ := till } }
  .ok (s.finish c (pack [(8, code), (8, if s.timeOn then s.now + ms * 1000000 else 0)]))

/-- JOIN and FORM: the checks, then the loopback self-test where it is older than 600 s. -/
def State.openJoin (s : State) (c : Cmd) (a : Nat) (form : Bool) : Chk State := do
  let w := c.word
  let ms := if c.expert ∧ bits (w 6) 31 0 ≠ 0 then bits (w 6) 31 0 else 1000
  need (decide (100 ≤ ms ∧ ms ≤ 10000)) (c.badParam 6)
  need (!(s.axis a).isOpen) (linkReject 1)
  need (s.axis a).join.isNone { code := 0x0104 }
  need (!form || s.pavs.isEmpty) (linkReject 4)
  let stale := !s.loopFresh a
  let j : Join := {
    cmd := c.serial, form := form, epoch := bits (w 3) 63 32, minusCode := if form then 0 else w 1
    plusCode := if form then 0 else w 2, trainNs := ms * 1000000, limit := s.clock + ms * 1000000 }
  match (if stale then none else s.joinFault a j) with
  | some r => .error (c.bad 0x01E1 (if r = 2 then 3 else if w 1 = 0 then 1 else 2) r)
  | none => .ok ((s.started c).modAxis a fun x => { x with
      loopTest := if stale then some s.clock else x.loopTest, join := some j })

def bodyLinkJoin (s : State) (c : Cmd) : Chk State := do
  let w := c.word 0
  let role := bits w 15 12
  let port := bits w 10 8
  need (decide (1 ≤ role ∧ role ≤ 4)) (c.badParam 0)
  need s.route.noForward.isEmpty (linkReject 8)
  if role = 2 ∨ role = 4 then
    need (decide (port < 6)) (c.badParam 0)
    if role = 2 then s.openGrant c (s.physLink port)
    else .ok ((s.modLink (s.physLink port) fun k => { k with grant := none }).finish c [])
  else
    need (decide (bits w 1 0 < 3)) (c.badParam 0)
    s.openJoin c (bits w 1 0) (role == 3)

def execLinkJoin (id : Nat) (s : State) : Host.Outcome State Fault Refusal := .next (s.startCmd id 0x0702 bodyLinkJoin)

def bodyAcceptWiring (s : State) (c : Cmd) : Chk State := do
  let w := c.word 0
  let a := bits w 1 0
  let rev := bitAt w 8
  need (decide (a < 3)) (c.badParam 0)
  need (!(s.axis a).isOpen && (!rev || (c.expert && bitAt w 9) || (s.axis a).lastReason7)) (linkReject 7)
  .ok ((s.modAxis a fun x => { x with reversed := rev }).finish c [])

def execAcceptWiring (id : Nat) (s : State) : Host.Outcome State Fault Refusal := .next (s.startCmd id 0x0703 bodyAcceptWiring)

/-- Close the bridles of a mask. -/
def State.closeMask (s : State) (mask : Nat) : State :=
  forEach ([0, 1, 2].filter fun a => mask.testBit a) (fun s a => s.closeBridle a) s

def bodyBridleStepAside (s : State) (c : Cmd) : Chk State := do
  let mask := if c.expert then bits (c.word 0) 2 0 else 7
  let t := if c.expert then c.word 1 else 0
  s.needTime c t 1
  if t ≤ s.now then .ok ((s.closeMask mask).finish c [])
  else
    need s.route.stepAside.isNone { code := 0x0104 }
    .ok ((s.started c).modRoute fun r => { r with stepAside := some (c.serial, mask, t) })

def execBridleStepAside (id : Nat) (s : State) : Host.Outcome State Fault Refusal :=
  .next (s.startCmd id 0x0710 bodyBridleStepAside)

def execBridleStepAsideAt (s : State) : Host.Outcome State Fault Refusal :=
  match s.route.stepAside with
  | none => .next s
  | some (id, mask, t) =>
    if !s.timeOn || decide (s.now < t) then .next s
    else
      let s := (s.closeMask mask).modRoute fun r => { r with stepAside := none }
      match s.cmd id with
      | some c => .next (s.finish c [])
      | none => .next s

end Sys2Proof.Machine
end

