-- ==== Sys2Proof/Machine/Twin.lean ====
section
/-! DEFINITION. Twins (R375 to R389): pairing, mirroring, seeding, digest comparison, disagreements and the restoring
of a lost module. The manual names the contents of the twin messages and not their sequence: the owner sends its
digests, the mirror side answers with its own, and both compare (log 32). -/

namespace Sys2Proof.Machine

def State.modTwin (s : State) (p : Nat) (f : TwinSt → TwinSt) : State := s.modPav p fun v => { v with twin := f v.twin }
def State.twin (s : State) (p : Nat) : TwinSt := ((s.pav p).map (·.twin)).getD {}
/-- PAIRED shards of a pavilion. -/
def State.pairedShards (s : State) (p : Nat) : List Nat := (s.shardsOf p).filter fun n => (s.shard n).paired

/-- EV_TWIN_STATE (R402): 1 paired, 2 suspended, 3 resumed, 4 unpaired. -/
def State.twinEvent (s : State) (p st : Nat) : State :=
  s.postPav p 0x0601 1 0xFFFF (pack [(1, st), (1, 0), (2, (s.twin p).id), (4, (s.pairedShards p).length)])

/-- Send to the twin: packet TYPE 0x40 to 0x43 (R380). -/
def State.toTwin (s : State) (p type bytes : Nat) (e : Emission) : State := s.trySend p (s.twin p).id bytes (type - 0x40 + 5) e
def State.twinMsg (s : State) (p : Nat) (m : TwinMsg) : State := s.toTwin p 0x43 64 (.twin (s.twin p).id m)

/-! ### Mirror entries (R375) -/

/-- The record of a mirror entry with the places of this module and the newest slot as its current one. -/
def Mirror.here (m : Mirror) : Rec := { m.rcd with slotPage := m.slotPage, gradPage := m.gradPage, cur := m.newest }
def State.modMirror (s : State) (p n : Nat) (f : Mirror → Mirror) : State :=
  s.modTwin p fun t => { t with mirrors := match tfind t.mirrors n with
    | some m => tset t.mirrors n (f m)
    | none => t.mirrors }

/-- Place for a mirror entry: two slots and one gradient buffer in LPDDR5X. -/
def State.newMirror (s : State) (p : Nat) (r : Rec) : Option State :=
  (s.allocMem p 1 (8192 * r.slotPages + 4096 * pages (4 * r.length)) 4096 5).map fun (a, s) =>
    s.modTwin p fun t => { t with
      mirrors := tset t.mirrors r.shardId { rcd := r, slotPage := a / 4096, gradPage := a / 4096 + 2 * r.slotPages } }

/-- Free every mirror entry that a pavilion holds. -/
def State.freeMirrors (s : State) (p : Nat) : State :=
  s.modPav p fun v => { v with
    allocs := v.allocs.filter fun a => a.2.2 != 5
    twin := { v.twin with mirrors := [], waiting := [] } }

/-! ### Sending (R379, R381) -/

/-- Gradient and hyper-parameter block of the current version, where the record has them. -/
def State.shardBase (s : State) (n : Nat) : List Byte × List Byte :=
  let r := s.shard n
  if r.state = 4 ∧ r.gradCur ∧ (s.badRead (r.gradAddr r.curBuf) (gradLen r)).isNone then
    (s.readMem (r.gradAddr r.curBuf) (gradLen r), (tfind s.ledger.hyper n).getD [])
  else ([], [])

/-- Send a shard to the twin, with its other slot when it is seeded. An unreadable slot is lost (R288). -/
def State.sendMirror (s : State) (p n : Nat) (seed : Bool) : State :=
  let r := s.shard n
  match s.badSlot r (r.slotAddr r.cur) with
  | some w => s.slotLost n w
  | none =>
    let (grad, hyper) := s.shardBase n
    let other := if seed && !grad.isEmpty && (s.badSlot r (r.slotAddr !r.cur)).isNone then s.slotBytes r !r.cur else []
    let m : ShardMsg :=
      { src := s.ownId, srcPav := p, rcd := r, slot := s.slotBytes r r.cur, other := other, grad := grad, hyper := hyper }
    let t := s.twin p
    let fails := ((t.outstanding.find? fun x => x.1 == n).map fun x => x.2.1).getD 0
    let s := s.toTwin p 0x40 (64 + m.slot.length + other.length + grad.length + hyper.length) (.shard t.id 0x40 m)
    s.modTwin p fun t => { t with
      lastAck := if t.outstanding.isEmpty then s.clock else t.lastAck
      outstanding := t.outstanding.filter (fun x => x.1 != n) ++ [(n, fails, s.clock)] }

/-- MIRROR_SEND: the next committed shard in ascending SHARD_ID. -/
def execMirrorSend (p : Fin 8) (shard : Nat) (s : State) : Host.Outcome State Fault Refusal :=
  let t := s.twin p.val
  let todo := (s.shardsOf p.val).filter fun n =>
    (s.shard n).paired && (s.shard n).mirrorPending && !t.outstanding.any fun x => x.1 == n
  if t.state = 2 ∧ todo.head? = some shard ∧ !(t.disagree.any fun d => d.shard == shard && !d.mirror) then
    .next (s.sendMirror p.val shard false)
  else .next s

/-- Whether the run stands where a step begins. -/
def Pav.stepFresh (v : Pav) : Bool := match v.run with
  | none => true
  | some r => r.phase == 1 || r.phase == 2 || (r.startedOps.isEmpty && r.done.isEmpty && r.inflight.isEmpty && r.finished.isEmpty)

/-- Shards of the pavilion that are still to be seeded. -/
def State.unseeded (s : State) (p : Nat) : List Nat :=
  (s.shardsOf p).filter fun n => let r := s.shard n; !r.paired && !r.migrating

/-- EV_TWIN_STATE 1 once the seeding of every shard has finished. -/
def State.seedCheck (s : State) (p : Nat) : State :=
  let t := s.twin p
  if t.state = 2 ∧ !t.seeded ∧ (s.unseeded p).isEmpty then (s.modTwin p fun t => { t with seeded := true }).twinEvent p 1 else s

/-- TWIN_SEED (R381). -/
def execTwinSeed (p : Fin 8) (shard : Nat) (s : State) : Host.Outcome State Fault Refusal :=
  match s.pav p.val with
  | none => .next s
  | some v =>
    let r := s.shard shard
    if v.twin.state ≠ 2 ∨ !v.stepFresh ∨ !(s.unseeded p.val).contains shard ∨ (r.state ≠ 0 ∧ r.state ≠ 4)
        ∨ v.twin.outstanding.any (fun x => x.1 == shard) then .next s
    else .next ((s.sendMirror p.val shard true).modTwin p.val fun t => { t with seeding := addNew t.seeding shard })

/-! ### Disagreements (R386, R387) -/

/-- Block digests of a slot (R386 step 1). -/
def blockDigests (n : Nat) (v : BitVec 16) (b : List Byte) : List Nat :=
  let bl := chunks b 4096 (b.length / 4096)
  ((List.range bl.length).zip bl).map fun x => digest128 (leBytes 4 n ++ leBytes 2 v.toNat ++ leBytes 4 x.1 ++ x.2)

/-- The slot of a record as its pages. -/
def State.slotPagesAt (s : State) (r : Rec) (b : Bool) : List Byte := s.readMem (r.slotAddr b) (4096 * r.slotPages)
/-- Arrays laid out as whole pages (R267). -/
def paged (arrays : List (List Byte)) : List Byte := arrays.flatMap fun l => fit (4096 * pages l.length) l

/-- The pages of the recomputed slot of one side: version VERSION from the other slot (R386 step 3). -/
def State.recompute (s : State) (r : Rec) (grad hyper : List Byte) : List Byte :=
  paged ((s.updateFrom r (r.slotAddr !r.cur) grad hyper).arrays r)

/-- One side's record, gradient address, hyper-parameters, and whether it has the base. -/
def State.sideOf (s : State) (p n : Nat) (mirror : Bool) : Rec × List Byte × List Byte × Bool :=
  if mirror then match tfind (s.twin p).mirrors n with
    | some m =>
      let r := m.here
      let ok := m.hasOlder && m.hasGrad && (s.badSlot r (r.slotAddr !r.cur)).isNone && (s.badRead (r.gradAddr 0) (gradLen r)).isNone
      (r, s.readMem (r.gradAddr 0) (gradLen r), m.hyper, ok)
    | none => ({}, [], [], false)
  else
    let r := s.shard n
    let (g, h) := s.shardBase n
    (r, g, h, !g.isEmpty && (s.badSlot r (r.slotAddr !r.cur)).isNone)

/-- What one side reports of a disputed shard. -/
def State.side (s : State) (p n : Nat) (mirror : Bool) : Side :=
  let (r, grad, hyper, ok) := s.sideOf p n mirror
  let prev := (r.version - 1).toNat
  { base := if ok then some (slotDigest n prev (s.readArrays r (r.slotAddr !r.cur)), digest128 grad, digest128 hyper) else none
    blocks := blockDigests n r.version (s.slotPagesAt r r.cur)
    recomputed := if ok then blockDigests n r.version (s.recompute r grad hyper) else [] }

/-- Disputed blocks: those of which the stored digests differ. -/
def disputed (a b : Side) : List Nat :=
  (List.range (max a.blocks.length b.blocks.length)).filter fun i => a.blocks.getD i 0 != b.blocks.getD i 0

/-- Outcome code and reason of R387. -/
def decideSides (owner mirror : Side) : Nat × Nat :=
  let d := disputed owner mirror
  let same := fun (x y : List Nat) => d.all fun i => x.getD i 0 == y.getD i 0
  if d.isEmpty then (0, 0)
  else match owner.base, mirror.base with
    | some a, some b =>
      if a ≠ b then (3, 1)
      else if !same owner.recomputed mirror.recomputed then (3, 3)
      else match same owner.blocks owner.recomputed, same mirror.blocks mirror.recomputed with
        | true, true => (0, 0)
        | true, false => (1, 0)
        | false, true => (2, 0)
        | false, false => (3, 4)
    | _, _ => (3, 2)

/-- A vector engine of a healthy checker core (R386 step 3). -/
def State.checkerUp (s : State) (c : Nat) : Bool :=
  let k := s.cluster c
  let h := 6 * c + k.checker
  k.inService && k.standin.isNone && !(s.core h).failed && !(s.core h).retired && !s.dieLost (c / 4)
def State.anyChecker (s : State) : Bool := (List.range 32).any s.checkerUp

def State.modDisagree (s : State) (p n : Nat) (mirror : Bool) (f : Disagree → Disagree) : State :=
  s.modTwin p fun t => { t with
    disagree := t.disagree.map fun (d : Disagree) => if d.shard = n && d.mirror == mirror then f d else d }

/-- Open a disagreement about a shard. -/
def State.openDisagree (s : State) (p n : Nat) (mirror hold : Bool) : State :=
  let t := s.twin p
  if t.disagree.any fun d => d.shard == n && d.mirror == mirror then s
  else
    let v := if mirror then ((tfind t.mirrors n).map (·.rcd.version)).getD 0 else (s.shard n).version
    (s.fact 6).modTwin p fun t => { t with disagree := t.disagree ++ [{ shard := n, version := v, mirror := mirror, hold := hold }] }

/-- Groups stay blocked while a comparison of theirs is due or in progress, or a disagreement lasts (R384). -/
def State.unblock (s : State) (p : Nat) : State :=
  s.modTwin p fun t => { t with
    blocked := t.blocked.filter fun g => t.due.isSome || t.openCmp.any (fun o => o.groups.any fun x => x.1 == g)
      || t.disagree.any fun d => !d.mirror && d.shard / 4096 == g }

/-- DIGEST_COMPARE completes once its comparison is over and no disagreement is being resolved (R385). -/
def State.compareCheck (s : State) (p : Nat) : State :=
  let t := s.twin p
  match t.compare with
  | none => s
  | some k =>
    if !k.finished || t.disagree.any (fun d => !d.mirror && !d.hold) then s
    else
      let s := s.modTwin p fun t => { t with compare := none }
      match s.cmd k.cmd with
      | none => s
      | some c => s.finish c (pack [(4, k.compared), (4, k.mismatched), (4, k.firstShard), (4, t.resolved - k.resolvedAt)])

/-- Report the end of a disagreement to its DISAGREE_RESOLVE (R388). -/
def State.resolveDone (s : State) (d : Disagree) (outcome reason blocks : Nat) : State :=
  match d.cmd.bind s.cmd with
  | none => s
  | some c => s.finish c (pack [(1, outcome), (1, reason), (2, 0), (4, blocks), (2, d.version.toNat)])

/-- Set or clear DAMAGED on this side's copy, with the DIGEST where one is given. -/
def State.markCopy (s : State) (p n : Nat) (mirror damaged : Bool) (digest : Option Nat) : State :=
  let f := fun (r : Rec) => { r with damaged := damaged, digest := digest.getD r.digest }
  if mirror then s.modMirror p n fun m => { m with rcd := f m.rcd } else s.modShard n f

/-- An unresolved outcome (R387): DAMAGED, the event, and the end of the owner's running step before its seal. -/
def State.unresolved (s : State) (p : Nat) (d : Disagree) (reason : Nat) : State :=
  let s := (s.markCopy p d.shard d.mirror true none).fact 3
  let s := s.postPav p 0x0604 3 (updaterPlace d.shard) (pack [(4, d.shard), (2, d.version.toNat), (1, reason)])
  let s := if d.mirror then s else s.shardDamaged p d.shard 2
  let s := s.modDisagree p d.shard d.mirror fun d => { d with hold := true, asked := false, peer := none, cmd := none }
  let s := s.resolveDone d 3 reason 0
  let s := if d.mirror || (s.pav p).any (fun v => v.sealing.isSome) then s
    else s.endRun p 0x0206 (updaterPlace d.shard * 65536 + low16 d.shard) none
  s.compareCheck p

/-- A disagreement ends: writes and held mirror data of the shard go on. -/
def State.closeDisagree (s : State) (p : Nat) (d : Disagree) : State :=
  s.modTwin p fun t => { t with
    disagree := t.disagree.filter fun x => !(x.shard == d.shard && x.mirror == d.mirror)
    resolved := t.resolved + b2n (!d.mirror) }

/-- Write blocks into the current copy of one side. -/
def State.putBlocks (s : State) (p n : Nat) (mirror : Bool) (blocks : List (Nat × List Byte)) : State :=
  let r := (s.sideOf p n mirror).1
  forEach blocks (fun s b => s.writeMem (r.slotAddr r.cur + b.1) b.2) s
/-- Slot digest of the current copy of one side. -/
def State.copyDigest (s : State) (p n : Nat) (mirror : Bool) : Nat :=
  let r := (s.sideOf p n mirror).1
  slotDigest n r.version.toNat (s.readArrays r (r.slotAddr r.cur))

def State.resolvedEvent (s : State) (p : Nat) (d : Disagree) (outcome blocks : Nat) : State :=
  s.postPav p 0x0603 1 (updaterPlace d.shard) (pack [(4, d.shard), (2, d.version.toNat), (1, outcome), (1, 0), (4, blocks)])

/-! ### Mirror data on the mirror side (R379, R403) -/

/-- Take one message of mirror data: the acknowledged version, or none where the shard is asked for again. -/
def State.takeMirror (s : State) (p : Nat) (m : ShardMsg) : State × Option (BitVec 16) :=
  let n := m.rcd.shardId
  let known := tfind (s.twin p).mirrors n
  let stale := known.any fun k => k.rcd.length != m.rcd.length || k.rcd.cols != m.rcd.cols || k.rcd.cls != m.rcd.cls || k.rcd.form != m.rcd.form
  let room := if known.isSome && !stale then some s
    else (match known with
      | some k => s.freeMem p (4096 * k.slotPage)
      | none => s).newMirror p m.rcd
  match room with
  | none => (s, none)
  | some s => match tfind (s.twin p).mirrors n with
    | none => (s, none)
    | some k =>
      let older := k.here.slotAddr !k.newest
      if k.filled && k.hasOlder && m.other.isEmpty && m.rcd.version + 1 == k.rcd.version
          && slotDigest n m.rcd.version.toNat (s.readArrays k.here older) == m.rcd.digest then
        -- a reverted shard: the older slot becomes the newest (R403)
        (s.modMirror p n fun k => { k with
          rcd := m.rcd, newest := !k.newest, hasOlder := false, hasGrad := !m.grad.isEmpty, hyper := m.hyper }, some m.rcd.version)
      else
        let r : Rec := { m.rcd with slotPage := k.slotPage, gradPage := k.gradPage }
        let s := s.writeSlot r (r.slotAddr !k.newest) (arraysOf r m.slot)
        let s := if m.grad.isEmpty then s else s.writeMem (r.gradAddr 0) m.grad
        let ok := slotDigest n r.version.toNat (s.readArrays r (r.slotAddr !k.newest)) == r.digest
        let follows := k.filled && m.rcd.version == k.rcd.version + 1
        if !ok then
          -- the older slot and the gradient have been written over
          (s.modMirror p n fun k => { k with hasOlder := false, hasGrad := false }, none)
        else
          let s := if m.other.isEmpty then s else s.writeSlot r (r.slotAddr k.newest) (arraysOf r m.other)
          (s.modMirror p n fun k => { k with
            rcd := m.rcd, newest := !k.newest, filled := true, hasOlder := follows || !m.other.isEmpty
            hasGrad := !m.grad.isEmpty, hyper := m.hyper }, some m.rcd.version)

/-- Answer mirror data. -/
def State.answerMirror (s : State) (p : Nat) (m : ShardMsg) : State :=
  let n := m.rcd.shardId
  match s.takeMirror p m with
  | (s, some v) => s.toTwin p 0x41 32 (.mirrorAckSent m.src n v)
  | (s, none) => s.toTwin p 0x43 32 (.mirrorAgain m.src n)

/-- Mirror data that waited for a disagreement (R384). -/
def State.takeWaiting (s : State) (p : Nat) : State :=
  let t := s.twin p
  let free := fun (m : ShardMsg) => !t.disagree.any fun d => d.mirror && d.shard == m.rcd.shardId
  let s := s.modTwin p fun t => { t with waiting := t.waiting.filter fun m => !free m }
  forEach (t.waiting.filter free) (fun s m => s.answerMirror p m) s

/-- The disagreement is settled on this side. -/
def State.settle (s : State) (p : Nat) (d : Disagree) (outcome blocks : Nat) : State :=
  ((((s.closeDisagree p d).resolveDone d outcome 0 blocks).unblock p).takeWaiting p).compareCheck p

/-- The twin answers again after a suspension (R382). -/
def State.twinHeard (s : State) (p : Nat) : State :=
  if (s.twin p).state = 3 then
    (s.modTwin p fun t => { t with state := 2, seeded := false, outstanding := [], seeding := [], lastAck := s.clock }).twinEvent p 3
  else s

/-! ### The procedure (R386, R387, R388) -/

/-- Bytes of the disputed blocks of one side. -/
def State.keepBlocks (s : State) (p n : Nat) (mirror : Bool) (d : List Nat) : List (Nat × List Byte) :=
  let r := (s.sideOf p n mirror).1
  d.map fun b => (4096 * b, s.readMem (r.slotAddr r.cur + 4096 * b) 4096)

/-- Send the stored blocks of this side to the other (Keep). -/
def State.sendKeep (s : State) (p : Nat) (d : Disagree) (own peer : Side) (outcome : Nat) : State :=
  let blocks := disputed own peer
  let digest := (s.sideOf p d.shard d.mirror).1.digest
  let s := s.twinMsg p (.keep d.shard digest (s.keepBlocks p d.shard d.mirror blocks))
  (s.resolvedEvent p d outcome blocks.length).settle p d outcome blocks.length

/-- ACTION 4: write this side's recomputed blocks and their digest. -/
def State.install (s : State) (p : Nat) (d : Disagree) (own peer : Side) : State :=
  let blocks := disputed own peer
  let (r, grad, hyper, _) := s.sideOf p d.shard d.mirror
  let all := s.recompute r grad hyper
  let s := s.putBlocks p d.shard d.mirror (blocks.map fun b => (4096 * b, slice all (4096 * b) 4096))
  let s := s.markCopy p d.shard d.mirror false (some (s.copyDigest p d.shard d.mirror))
  (s.resolvedEvent p d 0 blocks.length).settle p d 0 blocks.length

/-- Act once both sides are known. -/
def State.conclude (s : State) (p : Nat) (d : Disagree) (own peer : Side) : State :=
  let (owner, mirror) := if d.mirror then (peer, own) else (own, peer)
  let (code, reason) := decideSides owner mirror
  match d.action with
  | 2 => if d.mirror then s else s.sendKeep p d own peer 1
  | 3 => if d.mirror then s.sendKeep p d own peer 2 else s
  | 4 =>
    if owner.base.isSome && mirror.base.isSome && owner.recomputed == mirror.recomputed then s.install p d own peer
    else
      -- not permitted: the disagreement stays as it is
      (s.modDisagree p d.shard d.mirror fun d => { d with hold := true, asked := false, peer := none, cmd := none }).resolveDone
        d 3 (if reason = 0 then 3 else reason) 0
  | _ => match code with
    | 0 => s.settle p d 0 0
    | 1 => if d.mirror then s else s.sendKeep p d own peer 1
    | 2 => if d.mirror then s.sendKeep p d own peer 2 else s
    | _ => s.unresolved p d reason

/-- DISAGREE_PROCEDURE on either side: send this side's digests, and act once those of the other side are there. -/
def execDisagreeProcedure (p : Fin 8) (shard : Nat) (s : State) : Host.Outcome State Fault Refusal :=
  match (s.twin p.val).disagree.find? fun d => d.shard == shard && !d.hold with
  | none => .next s
  | some d =>
    if !s.anyChecker then .next s
    else
      let own := s.side p.val shard d.mirror
      let s := if d.asked then s
        else (s.modDisagree p.val shard d.mirror fun d => { d with asked := true }).twinMsg p.val
          (.resolve shard d.version own.base own.blocks own.recomputed d.action)
      match d.peer with
      | none => .next s
      | some x => .next (s.conclude p.val { d with asked := true } own x)

/-- Every disagreement in progress ends unresolved: the twin is unreachable (R387 reason 5). -/
def State.twinUnreachable (s : State) (p : Nat) : State :=
  forEach ((s.twin p).disagree.filter fun d => !d.hold) (fun s d => s.unresolved p d 5) s

/-- FUNCTION_RESET of an updater: the procedure starts again (R403). -/
def State.restartDisagree (s : State) (p : Nat) (die : Nat) : State :=
  s.modTwin p fun t => { t with
    disagree := t.disagree.map fun (d : Disagree) =>
      if d.shard / 131072 = die && !d.mirror then { d with asked := false, peer := none } else d }

/-! ### Mirror rows -/

def State.fromTwin (s : State) (p src srcPav : Nat) : Bool :=
  let t := s.twin p
  (t.state == 2 || t.state == 3) && t.id == src && t.pav == srcPav

/-- Give a restored shard its place and contents (R389). -/
def State.restoreShard (s : State) (p : Nat) (l : Layout) (m : ShardMsg) : Option (State × Bool) :=
  match l.pieceOf m.rcd.shardId with
  | none => none
  | some (e, _) =>
    let n := m.rcd.shardId
    let base := !m.other.isEmpty && !m.grad.isEmpty
    let r0 : Rec := { m.rcd with
      valid := true, gradNext := false, gradCur := base, staged := false, damaged := false, gradLost := false
      mirrorPending := false, migrating := false, paired := true, remapped := false, state := if base then 4 else 0
      twinVersion := m.rcd.version }
    if slotDigest n r0.version.toNat (arraysOf r0 m.slot) ≠ r0.digest then some (s, false)
    else (s.placeShard p r0 e.slotTier e.gradTier).map fun (r, s) =>
      let s := s.writeSlot r (r.slotAddr r.cur) (arraysOf r m.slot)
      let s := if base then (s.writeSlot r (r.slotAddr !r.cur) (arraysOf r m.other)).writeMem (r.gradAddr r.curBuf) m.grad else s
      let s := s.modLedger fun x => { x with hyper := if base then tset x.hyper n m.hyper else x.hyper }
      (s.modShard n fun _ => r, true)

/-- MIRROR_DATA: mirror data of the twin, or a mirror entry that TWIN_RESTORE has asked for. -/
def execMirrorData (p : Fin 8) (m : ShardMsg) (s : State) : Host.Outcome State Fault Refusal :=
  match if s.shut p.val then none else s.pav p.val with
  | none => .next s
  | some v => match v.twin.restore with
    | some x =>
      if x.id ≠ m.src ∨ x.pav ≠ m.srcPav ∨ x.done.contains m.rcd.shardId then .next s
      else match v.reshape.active with
        | none => .next s
        | some l =>
          if !s.ownsIn l m.rcd.shardId then .next s
          else match s.restoreShard p.val l m with
            | none => .next s
            | some (s, false) => .next (s.trySend p.val m.src 32 8 (.mirrorAgain m.src m.rcd.shardId))
            | some (s, true) => .next (s.modTwin p.val fun t => { t with
                restore := t.restore.map fun (x : Restore) => { x with done := x.done ++ [m.rcd.shardId] } })
    | none =>
      if !s.fromTwin p.val m.src m.srcPav then .next s
      else
        let s := s.twinHeard p.val
        if (s.twin p.val).disagree.any fun d => d.mirror && d.shard == m.rcd.shardId then
          .next (s.modTwin p.val fun t => { t with waiting := t.waiting ++ [m] })
        else .next (s.answerMirror p.val m)

/-- MIRROR_ACK (R272, R295, R316, R381): an acknowledged seeding pairs the shard. One of an older VERSION, or of a departing
shard, sets TWIN_VERSION only; a shard that has committed while it was seeded is seeded again. -/
def execMirrorAck (p : Fin 8) (shard : Nat) (version : BitVec 16) (s : State) : Host.Outcome State Fault Refusal :=
  let t := s.twin p.val
  if s.shut p.val then .next s
  else if (t.state ≠ 2 ∧ t.state ≠ 3) ∨ !(t.outstanding.any fun x => x.1 == shard) then .next (s.twinHeard p.val)
  else if t.state = 3 then .next (s.twinHeard p.val)
  else
    let r := s.shard shard
    let s := s.modTwin p.val fun t => { t with lastAck := s.clock, outstanding := t.outstanding.filter fun x => x.1 != shard }
    if version ≠ r.version ∨ r.migrating then
      let s := if older version r.version || version == r.version then
        s.modShard shard fun r => { r with twinVersion := version } else s
      .next (if t.seeding.contains shard && !r.migrating then s.sendMirror p.val shard true else s)
    else
      let s := s.modTwin p.val fun t => { t with seeding := t.seeding.filter (· != shard) }
      let s := s.modShard shard fun r => { r with paired := true, twinVersion := version, mirrorPending := false }
      .next (s.seedCheck p.val)

/-- MIRROR_RETRY (R379): the mirror side asks again; after a second mismatch the owner checks its own slot, and then
retries every 100 ms, at most ten times. -/
def execMirrorRetry (p : Fin 8) (shard : Nat) (s : State) : Host.Outcome State Fault Refusal :=
  let t := s.twin p.val
  match (if t.state = 2 then t.outstanding.find? fun x => x.1 == shard else none) with
  | none => .next s
  | some (_, fails, last) =>
    let seed := t.seeding.contains shard
    let bump := fun (s : State) => s.modTwin p.val fun t => { t with
      outstanding := t.outstanding.map fun (x : Nat × Nat × Nat) => if x.1 = shard then (x.1, x.2.1 + 1, s.clock) else x }
    if fails = 0 then .next ((bump s).sendMirror p.val shard seed)
    else if fails = 1 then
      let r := s.shard shard
      if (s.badSlot r (r.slotAddr r.cur)).isNone && s.copyDigest p.val shard false != r.digest then
        let s := ((bump s).modShard shard fun r => { r with damaged := true }).shardDamaged p.val shard 2
        .next (s.openDisagree p.val shard false t.manual)
      else .next (bump s)
    else if s.clock < last + 100000000 then .next s
    else if fails < 12 then .next ((bump s).sendMirror p.val shard seed)
    else
      let s := s.modShard shard fun r => { r with paired := false, mirrorPending := false }
      let s := s.modTwin p.val fun t => { t with
        outstanding := t.outstanding.filter fun x => x.1 != shard
        seeding := t.seeding.filter (· != shard), seeded := false, compare := none }
      let s := s.twinEvent p.val 4
      .next (match t.compare.bind fun k => s.cmd k.cmd with
        | some c => s.fail c 0x02C0 (updaterPlace shard) 2
        | none => s)

/-- The pair no longer serves: PAIRED and MIRROR_PENDING cleared, comparisons skipped, disagreements end (R382). -/
def State.loosen (s : State) (p : Nat) : State :=
  let s := s.twinUnreachable p
  let s := forEach (s.shardsOf p) (fun s n => s.modShard n fun r => { r with paired := false, mirrorPending := false }) s
  let s := s.modTwin p fun t => { t with
    outstanding := [], seeding := [], seeded := false, due := none, openCmp := none, blocked := []
    compare := t.compare.map fun (k : Compare) => { k with finished := true } }
  s.compareCheck p

/-- TWIN_SUSPEND (R382). -/
def execTwinSuspend (p : Fin 8) (s : State) : Host.Outcome State Fault Refusal :=
  let t := s.twin p.val
  if t.state ≠ 2 ∨ t.outstanding.isEmpty ∨ s.clock < t.lastAck + 10000000000 then .next s
  else .next (((s.loosen p.val).modTwin p.val fun t => { t with state := 3 }).twinEvent p.val 2)

/-! ### Comparisons (R383 to R385) -/

/-- Shards of this side in a group, with versions and digests: own PAIRED shards, or the mirror entries of those that the
owner names. A slot that cannot be read has a free digest (log 7). -/
def State.shardDigests (s : State) (p : Nat) (mirror full : Bool) (named : Nat → Bool) (g : Nat) : List (Nat × Nat × Nat) :=
  let list := if mirror then ((s.twin p).mirrors.filter fun e => e.2.filled).map fun e => (e.1, e.2.here)
              else (s.pairedShards p).map fun n => (n, s.shard n)
  (list.filter fun x => x.1 / 4096 == g && named x.1).map fun (n, r) =>
    (n, r.version.toNat,
      if !full then r.digest
      else if (s.badSlot r (r.slotAddr r.cur)).isSome then Config.freeNat (s.freeCtr + n) % 2 ^ 128
      else slotDigest n r.version.toNat (s.readArrays r (r.slotAddr r.cur)))
def groupDigest (l : List (Nat × Nat × Nat)) : Nat :=
  digest128 (l.flatMap fun x => leBytes 4 x.1 ++ leBytes 2 x.2.1 ++ leBytes 16 x.2.2)

/-- Group digests, and the shard digests of those groups with their versions. -/
def State.digestsOf (s : State) (p : Nat) (mirror full : Bool) (named : Nat → Bool) (gs : List Nat) :
    List (Nat × Nat) × List (Nat × Nat) :=
  let all := gs.map fun g => (g, s.shardDigests p mirror full named g)
  (all.map fun x => (x.1, groupDigest x.2), all.flatMap fun x => x.2.map fun y => (y.1, y.2.1 * 2 ^ 128 + y.2.2))

/-- A recomputed digest that differs from DIGEST damages the shard, and an unreadable slot is lost (R288). -/
def State.checkOwn (s : State) (p : Nat) (gs : List Nat) : State :=
  forEach ((s.pairedShards p).filter fun n => gs.contains (n / 4096)) (fun s n =>
    let r := s.shard n
    match s.badSlot r (r.slotAddr r.cur) with
    | some w => s.slotLost n w
    | none =>
      if s.copyDigest p n false = r.digest || r.damaged then s
      else (s.modShard n fun r => { r with damaged := true }).shardDamaged p n 2) s
/-- The same on the mirror side. -/
def State.checkMirrors (s : State) (p : Nat) (gs : List Nat) : State :=
  forEach ((s.twin p).mirrors.filter fun e => gs.contains (e.1 / 4096) && e.2.filled) (fun s e =>
    let r := e.2.here
    match s.badSlot r (r.slotAddr r.cur) with
    | some w => (s.memError w 1).markCopy p e.1 true true none
    | none => if s.copyDigest p e.1 true = r.digest then s else s.markCopy p e.1 true true none) s

/-- The comparison to run next: the scheduled one, then a command's. -/
def TwinSt.nextCmp (t : TwinSt) (groups : List Nat) : Option (Bool × Nat × Bool × List Nat) :=
  match t.due, t.compare with
  | some (seq, full), _ => some (false, seq, full, groups)
  | none, some k =>
    if k.finished then none else some (true, 0, k.full, groups.filter fun g => decide (k.first ≤ g ∧ g ≤ k.last))
  | none, none => none

/-- A comparison is over for this side: a full one may follow the step-end one (R384). -/
def State.closeCompare (s : State) (p : Nat) (o : OpenCmp) (bad : List (Nat × Nat)) : State :=
  let s := s.modTwin p fun t => { t with
    openCmp := none
    due := if o.forCmd then t.due else if !o.full && o.seq % max 1 t.fullEvery == 0 then some (o.seq, true) else none
    compare := if !o.forCmd then t.compare else t.compare.map fun (k : Compare) => { k with
      finished := true, compared := o.groups.length, mismatched := bad.length
      firstShard := match bad with
        | [] => 0xFFFFFFFF
        | x :: l => l.foldl (fun m y => min m y.2) x.2 } }
  (s.unblock p).compareCheck p

/-- DIGEST_COMPARISON: once every PAIRED shard has MIRROR_PENDING = 0, this side's digests go to the twin. -/
def execDigestComparison (p : Fin 8) (s : State) : Host.Outcome State Fault Refusal :=
  let t := s.twin p.val
  if t.state ≠ 2 ∨ t.openCmp.isSome ∨ (s.pairedShards p.val).any (fun n => (s.shard n).mirrorPending) then .next s
  else match t.nextCmp (s.pairedGroups p.val) with
    | none => .next s
    | some (forCmd, seq, full, gs) =>
      let seq := if forCmd then ((s.pav p.val).map (·.stepSeq)).getD 0 else seq
      let s := if full then (s.checkOwn p.val gs).bumpFree else s
      let (groups, shards) := s.digestsOf p.val false full (fun _ => true) gs
      let o : OpenCmp := { forCmd := forCmd, full := full, seq := seq, groups := groups, shards := shards }
      if groups.isEmpty then .next (s.closeCompare p.val o [])
      else
        let s := s.modTwin p.val fun t => { t with openCmp := some o, blocked := gs.foldl addNew t.blocked }
        .next (s.toTwin p.val 0x42 (16 * groups.length) (.groupDigests t.id
          { src := s.ownId, srcPav := p.val, full := full, ofMine := false, seq := seq, groups := groups, shards := shards }))

/-- Compare two sides: mismatched groups with the first SHARD_ID that differs, and the shards that differ. -/
def compareDigests (a b : List (Nat × Nat) × List (Nat × Nat)) : List (Nat × Nat) × List Nat :=
  let badG := (a.1.filter fun x => !b.1.contains x).map (·.1)
  let ids := sortBy (fun x y => decide (x ≤ y)) ((a.2 ++ b.2).map (·.1)).eraseDups
  let badS := ids.filter fun n => badG.contains (n / 4096) && (a.2.find? fun x => x.1 == n) != (b.2.find? fun x => x.1 == n)
  (badG.map fun g => (g, ((badS.find? fun n => n / 4096 == g).getD (4096 * g))), badS)

/-- EV_DIGEST_MISMATCH for each mismatched group, and a disagreement for each shard that differs. -/
def State.mismatches (s : State) (p : Nat) (mirror full hold : Bool) (seq : Nat) (bad : List (Nat × Nat)) (ids : List Nat) : State :=
  let s := forEach bad (fun s x => s.postPav p 0x0602 2 (updaterPlace x.2)
    (pack [(2, x.1), (1, if full then 2 else 1), (1, 0), (4, x.2), (8, seq)])) s
  forEach ids (fun s n => s.openDisagree p n mirror hold) s

/-- TWIN_DIGEST (R384). -/
def execTwinDigest (p : Fin 8) (m : DigestMsg) (s : State) : Host.Outcome State Fault Refusal :=
  if s.shut p.val || !s.fromTwin p.val m.src m.srcPav then .next s
  else
    let s := s.twinHeard p.val
    let t := s.twin p.val
    if m.ofMine then
      match t.openCmp with
      | none => .next s
      | some o =>
        if o.full != m.full || o.seq != m.seq then .next s
        else
          let (bad, ids) := compareDigests (o.groups, o.shards) (m.groups, m.shards)
          .next ((s.mismatches p.val false o.full t.manual o.seq bad ids).closeCompare p.val o bad)
    else
      let gs := m.groups.map (·.1)
      let s := if m.full then (s.checkMirrors p.val gs).bumpFree else s
      let own := s.digestsOf p.val true m.full (fun n => m.shards.any fun x => x.1 == n) gs
      let s := s.toTwin p.val 0x42 (16 * gs.length) (.groupDigests m.src
        { src := s.ownId, srcPav := p.val, full := m.full, ofMine := true, seq := m.seq, groups := own.1, shards := own.2 })
      let (bad, ids) := compareDigests own (m.groups, m.shards)
      .next (s.mismatches p.val true m.full false m.seq bad (ids.filter fun n => thas (s.twin p.val).mirrors n))

/-! ### Pairing and control messages (R377, R378, R380) -/

/-- The default twin: the X-ring neighbour of slot 0 of the XP ACCEPT list for an even x, of the XM list for an odd
one (R377). -/
def State.defaultTwin (s : State) : Nat := match s.route.active with
  | none => 0xFFFF
  | some pl =>
    -- eight slots for each port, in the order XM, YM, ZM, XP, YP, ZP (R333)
    pl.accept.getD (if pl.selfId % 2 = 0 then 24 else 0) 0xFFFF

/-- Form the pair with a matching offer: the command completes, or is rejected for a difference (R375, R402). -/
def State.matchPair (s : State) (p : Nat) (o : PairOffer) : State :=
  match s.pav p with
  | none => s
  | some v =>
    let t := v.twin
    match t.cmd.bind s.cmd with
    | none => s
    | some c =>
      let drop := fun (s : State) => s.modTwin p fun t => { t with state := 0, cmd := none, offer := none }
      if t.wantDigest ≠ 0 ∧ t.wantDigest ≠ o.digest then s
      else if o.partition ≠ v.partition then (drop s).reject c (stReject 0x01F8 4)
      else if (match o.job, v.reshape.active with
          | some j, some l => j != l.job
          | _, _ => false) then (drop s).reject c (stReject 0x01F8 5)
      else
        let s := s.modTwin p fun t => { t with
          state := 2, digest := o.digest, cmd := none, offer := none, seeded := false, outstanding := [], seeding := []
          lastAck := s.clock }
        let n := (s.unseeded p).length
        (s.finish c (pack [(2, o.id), (1, o.pav), (5, 0), (16, o.digest), (4, n)])).seedCheck p

/-- A twin that speaks level 2 only takes no twin packet: ST_FAIL_PEER (R327, R380). -/
def twinLevel (id : Nat) : Rej := { code := 0x0205, detail := some (placeHub 0 6 0 * 65536 + id) }

def bodyTwinPair (s : State) (c : Cmd) : Chk State := do
  let p := c.pavilion
  match s.pav p with
  | none => .error { code := 0x0106, off := 0 }
  | some v =>
    let w := c.word
    let named := bits (w 0) 15 0
    let id := if named = 0xFFFF then s.defaultTwin else named
    let every := if c.expert then bits (w 1) 63 48 else 0
    need (v.twin.state == 0 && v.twin.restore.isNone) (stReject 0x01F8 1)
    need (id != s.ownId && decide (id < 12800) && s.routed id) (c.bad 0x01F8 0 2)
    need (decide (0 < s.room v 1)) (stReject 0x01F8 3)
    let twinPav := bits (w 0) 19 16
    need (decide (twinPav < 8)) (c.badParam 0)
    need (!s.levelTwo id) (twinLevel id)
    let s := (s.started c).modTwin p fun t => { t with
      state := 1, id := id, pav := twinPav, fullEvery := if every = 0 then 64 else every
      manual := c.expert && bitAt (w 1) 0, wantDigest := if c.expert then w 2 + w 3 * 2 ^ 64 else 0
      cmd := some c.serial, askedAt := s.clock }
    let s := s.twinMsg p (.pair s.ownId p v.partition (v.reshape.active.map (·.job)) identityDigest twinPav)
    match v.twin.offer with
    | some o => .ok (if o.id = id ∧ o.pav = twinPav ∧ s.clock ≤ o.time + 60000000000 then s.matchPair p o else s)
    | none => .ok s

def execTwinPair (id : Nat) (s : State) : Host.Outcome State Fault Refusal := .next (s.startCmd id 0x0601 bodyTwinPair)

/-- TWIN_PAIR_TIMEOUT: no match within 60 s. -/
def execTwinPairTimeout (p : Fin 8) (s : State) : Host.Outcome State Fault Refusal :=
  let t := s.twin p.val
  if t.state ≠ 1 ∨ s.clock < t.askedAt + 60000000000 then .next s
  else
    let s := s.modTwin p.val fun t => { t with state := 0, cmd := none }
    .next (match t.cmd.bind s.cmd with
      | some c => s.fail c 0x02C0 0xFFFF 1
      | none => s)

/-- End the pair on this side. -/
def State.unpair (s : State) (p : Nat) (keep : Bool) : State :=
  let s := s.loosen p
  let s := s.modTwin p fun t => { t with state := 0, disagree := [], waiting := [] }
  let s := s.twinEvent p 4
  if keep then s else s.freeMirrors p

def bodyTwinUnpair (s : State) (c : Cmd) : Chk State := do
  let p := c.pavilion
  match s.pav p with
  | none => .error { code := 0x0106, off := 0 }
  | some v =>
    let keep := c.expert && bitAt (c.word 0) 0
    if v.twin.state = 2 ∨ v.twin.state = 3 then .ok (((s.twinMsg p .unpair).unpair p keep).finish c [])
    else do
      -- mirror entries kept from a pair that has ended
      need (v.twin.state == 0 && !v.twin.mirrors.isEmpty) (stReject 0x01F8 1)
      .ok ((if keep then s else s.freeMirrors p).finish c [])

def execTwinUnpair (id : Nat) (s : State) : Host.Outcome State Fault Refusal := .next (s.startCmd id 0x0602 bodyTwinUnpair)

/-! ### TWIN_RESTORE (R389) -/

def bodyTwinRestore (s : State) (c : Cmd) : Chk State := do
  let p := c.pavilion
  match s.pav p with
  | none => .error { code := 0x0106, off := 0 }
  | some v =>
    let w := c.word
    let id := bits (w 0) 15 0
    let tp := bits (w 0) 19 16
    let n := bits (w 2) 31 0
    need (v.twin.state == 0 && v.twin.restore.isNone) (stReject 0x01F8 1)
    need (id != s.ownId && decide (id < 12800) && s.routed id) (c.bad 0x01F8 0 2)
    need v.reshape.active.isNone (stReject 0x01F8 7)
    need (decide (tp < 8)) (c.badParam 0)
    s.checkAddr c 1 (w 1) (max n 64) 64
    match s.badRead (w 1) (max n 64) with
    | some x => .ok (s.failMemory c x)
    | none =>
      let l ← parseLayout (s.readMem (w 1) n) n s.ownId p
      s.layoutRelation p v l false
      let owned := s.ownedShards l
      let sizeIn := fun (tier : Nat) => sumNat (owned.map fun k => match l.pieceOf k with
        | none => 0
        | some (e, _) =>
          let r := newRecord l k e e.pieceRows
          (if b2n e.slotTier = tier then 8192 * r.slotPages else 0)
            + if b2n e.gradTier = tier then 8192 * pages (4 * r.length) else 0)
      lay (decide (sizeIn 0 ≤ s.room v 0 ∧ sizeIn 1 ≤ s.room v 1)) 12
      need (!s.levelTwo id) (twinLevel id)
      let s := (s.started c).modPav p fun v => { v with
        reshape := { v.reshape with active := some l }
        twin := { v.twin with id := id, pav := tp, restore := some { cmd := c.serial, id := id, pav := tp } } }
      .ok (s.twinMsg p (.restoreAsk s.ownId p))

def execTwinRestore (id : Nat) (s : State) : Host.Outcome State Fault Refusal := .next (s.startCmd id 0x0603 bodyTwinRestore)

/-- The last mirror entry has come: the pair is formed and the journal gets its DONE entry. -/
def State.restoreEnd (s : State) (p : Nat) : State :=
  match s.pav p with
  | none => s
  | some v => match v.twin.restore with
    | none => s
    | some x =>
      let seqs := x.done.map fun n => (s.shard n).sealSeq.toNat
      let top := seqs.foldl max 0
      let owned := match v.reshape.active with
        | some l => s.ownedShards l
        | none => []
      let count := fun (k : Nat) => (seqs.filter (· == k)).length
      let behind := if top = 0 then 0 else count (top - 1)
      let e : JEntry := { stepSeq := top, sealTime := s.now, doneTime := s.now, programId := 0, stagedCount := x.done.length
                          commitCount := x.done.length, opIndex := 0, state := 2, kind := 1 }
      let s := s.modPav p fun v => { v with
        stepSeq := top, journal := tset v.journal (top % 16) e
        twin := { v.twin with state := 2, restore := none, seeded := false, lastAck := s.clock } }
      let s := match s.cmd x.cmd with
        | none => s
        | some c => s.finish c (pack [(4, x.done.length), (4, count top), (4, behind), (4, top),
            (4, (owned.filter fun n => !x.done.contains n).length)])
      s.seedCheck p

/-- The mirror side of TWIN_RESTORE: every mirror entry goes back, and the own shards are to be seeded. -/
def State.answerRestore (s : State) (p id pav : Nat) : State :=
  let t := s.twin p
  let s := s.loosen p
  let s := s.modTwin p fun t => { t with state := 2, id := id, pav := pav, seeded := false, lastAck := s.clock }
  let s := forEach (t.mirrors.filter fun e => e.2.filled) (fun s e =>
    let r := e.2.here
    let other := if e.2.hasOlder && (s.badSlot r (r.slotAddr !r.cur)).isNone then s.slotBytes r !r.cur else []
    let grad := if e.2.hasGrad && (s.badRead (r.gradAddr 0) (gradLen r)).isNone then s.readMem (r.gradAddr 0) (gradLen r) else []
    match s.badSlot r (r.slotAddr r.cur) with
    | some w => s.memError w 1
    | none =>
      let m : ShardMsg := { src := s.ownId, srcPav := p, rcd := e.2.rcd, slot := s.slotBytes r r.cur, other := other
                            grad := grad, hyper := e.2.hyper }
      s.toTwin p 0x40 (64 + m.slot.length + other.length + grad.length + m.hyper.length) (.shard id 0x40 m)) s
  s.twinMsg p .restoreEnd

/-- TWIN_RESTORE fails: what it has placed is dropped. -/
def State.restoreFail (s : State) (p : Nat) : State :=
  match (s.twin p).restore with
  | none => s
  | some x =>
    let s := forEach x.done (fun s n => s.dropShard n) s
    let s := s.modPav p fun v => { v with
      reshape := { v.reshape with active := none }, twin := { v.twin with restore := none } }
    match s.cmd x.cmd with
    | some c => s.fail c 0x02C0 0xFFFF 3
    | none => s

/-- Blocks kept from the other side (R387). -/
def State.takeKeep (s : State) (p n digest : Nat) (blocks : List (Nat × List Byte)) : State :=
  match (s.twin p).disagree.find? fun d => d.shard == n with
  | none => s
  | some d =>
    let s := s.putBlocks p n d.mirror blocks
    if s.copyDigest p n d.mirror ≠ digest then s
    else
      let outcome := if d.mirror then 1 else 2
      let s := (s.markCopy p n d.mirror false (some digest)).fact 2
      (s.resolvedEvent p d outcome blocks.length).settle p d outcome blocks.length

/-- TWIN_CONTROL (R380). -/
def execTwinControl (p : Fin 8) (m : TwinMsg) (s : State) : Host.Outcome State Fault Refusal :=
  match if s.shut p.val then none else s.pav p.val with
  | none => .next s
  | some v =>
    let t := v.twin
    let on := t.state == 2 || t.state == 3
    .next (match m with
      | .pair id pav partition job digest toPav =>
        let o : PairOffer := { id := id, pav := pav, partition := partition, job := job, digest := digest, time := s.clock }
        if toPav ≠ p.val ∨ on then s
        else if t.state = 1 ∧ t.id = id ∧ t.pav = pav then s.matchPair p.val o
        else s.modTwin p.val fun t => { t with offer := some o }
      | .unpair => if on then s.unpair p.val false else s
      | .alive => s.twinHeard p.val
      | .lost => (s.twinUnreachable p.val).restoreFail p.val
      | .resolve n version base blocks recomputed action =>
        if !on then s
        else
          let s := s.twinHeard p.val
          let mirror := !(t.disagree.any fun d => d.shard == n && !d.mirror)
          if mirror && !(thas t.mirrors n) then s
          else
            let s := if mirror then s.openDisagree p.val n true false else s
            s.modDisagree p.val n mirror fun d => { d with
              peer := some { base := base, blocks := blocks, recomputed := recomputed }
              version := if mirror then version else d.version
              hold := if mirror then false else d.hold
              asked := if mirror then false else d.asked, action := if mirror then action else d.action }
      | .keep n digest blocks => if on then s.takeKeep p.val n digest blocks else s
      | .restoreAsk id pav => if t.id = id ∧ !t.mirrors.isEmpty then s.answerRestore p.val id pav else s
      | .restoreEnd => s.restoreEnd p.val)

/-! ### DIGEST_COMPARE and DISAGREE_RESOLVE (R385, R388) -/

def bodyDigestCompare (s : State) (c : Cmd) : Chk State := do
  match s.pav c.pavilion with
  | none => .error { code := 0x0106, off := 0 }
  | some v =>
    need (v.twin.state == 2) (stReject 0x01F8 1)
    need v.twin.compare.isNone (stReject 0x0104 0xFF)
    let (first, last, full) := if c.expert then (bits (c.word 0) 7 0, bits (c.word 0) 15 8, !bitAt (c.word 0) 16) else (0, 255, true)
    need (decide (first ≤ last)) (c.badParam 0)
    need (!s.levelTwo v.twin.id) (twinLevel v.twin.id)
    .ok ((s.started c).modTwin c.pavilion fun t => { t with
      compare := some { cmd := c.serial, full := full, first := first, last := last, resolvedAt := t.resolved } })

def execDigestCompare (id : Nat) (s : State) : Host.Outcome State Fault Refusal := .next (s.startCmd id 0x0610 bodyDigestCompare)

def bodyDisagreeResolve (s : State) (c : Cmd) : Chk State := do
  let p := c.pavilion
  match s.pav p with
  | none => .error { code := 0x0106, off := 0 }
  | some v =>
    let n := bits (c.word 0) 19 0
    let act := if c.expert then bits (c.word 0) 63 56 else 1
    let r := s.shard n
    need (decide (1 ≤ act ∧ act ≤ 4)) (c.badParam 0)
    need (v.twin.state == 2 || v.twin.state == 3) (stReject 0x01F8 1)
    need (!s.ledger.unreadable.contains n) { code := 0x0290, detail := some (updaterPlace n * 65536 + low16 n) }
    need (r.valid && r.paired && r.pavilion == p) (c.bad 0x01F8 0 6)
    let d := v.twin.disagree.find? fun d => d.shard == n && !d.mirror
    need (act == 1 || d.isSome) (c.bad 0x01F8 0 8)
    need (!d.any fun d => d.cmd.isSome) (stReject 0x0104 0xFF)
    need (!s.levelTwo v.twin.id) (twinLevel v.twin.id)
    let s := (s.started c).openDisagree p n false false
    .ok (s.modDisagree p n false fun d => { d with
      hold := false, asked := false, peer := none, action := act, cmd := some c.serial })

def execDisagreeResolve (id : Nat) (s : State) : Host.Outcome State Fault Refusal :=
  .next (s.startCmd id 0x0611 bodyDisagreeResolve)

end Sys2Proof.Machine
end

