-- ==== Sys2Proof/Machine/Check.lean ====
section
/-! DEFINITION. Failing cores and stand-ins (R14 to R21, R145), sampled checking (R390 to R397), health and probation
(R398 to R400), self-test and calibration (R422 to R424), die bridges (R25). -/

namespace Sys2Proof.Machine

/-! ### Replay (R415) -/

/-- Abandon the passes in the banks of an engine that a condition names: they run again from their inputs. -/
def State.dropBanks (s : State) (e : Nat) (hit : Nat → Bool) : State :=
  let gone := (s.engine e).banks.filter fun b => hit b.1
  let s := forEach gone (fun s b => s.modRun b.2.pav fun r => { r with
    inflight := r.inflight.map fun (y : TileProg) =>
      if b.2.tiles.any (·.1 == y.tile) then { y with passes := y.passes.filter (· != (b.2.pass.block, b.2.pass.stitch)) }
      else y }) s
  s.modEngine e fun g => g.dropBanks fun k _ => hit k

/-- Everything in flight on the engines of a core. -/
def State.dropCoreWork (s : State) (p : Nat) : State :=
  forEach [2 * p, 2 * p + 1] (fun s e => (s.dropBanks e fun _ => true).modEngine e fun _ => {}) s

/-- The pavilions of which passes stand in the banks of an engine. -/
def State.enginePavs (s : State) (e : Nat) : List Nat := ((s.engine e).banks.map fun b => b.2.pav).eraseDups

/-- The store of a core: its address window. -/
def windowOf (p : Nat) : Nat := 3 * 2 ^ 48 + p * 4 * mib
/-- Make the contents of a range undefined (log 7). -/
def State.spoilMem (s : State) (a n : Nat) : State :=
  forEach (List.range n) (fun s k => s.writeMem (a + k) [BitVec.ofNat 8 (Config.freeNat (s.freeCtr + k))])
    { s with freeCtr := s.freeCtr + n }

/-! ### Failing units (R17, R18, R21) -/

/-- The checker core of a cluster works. -/
def State.checkerWorks (s : State) (c : Nat) : Bool :=
  let h := 6 * c + (s.cluster c).checker
  !(s.core h).failed && !(s.core h).retired && !s.dieLost (c / 4)

/-- Whether some core of a cluster runs active duty, or is about to (R21). -/
def State.clusterAlive (s : State) (c : Nat) : Bool :=
  ((List.range 6).any fun j => s.runsActive (6 * c + j)) || ((s.cluster c).failedCore.isSome && s.checkerWorks c)

/-- A cluster leaves service: at once when it is free or its pavilion runs nothing, else at the next step boundary. -/
def State.clusterOut (s : State) (c : Nat) : State :=
  match s.ownerOfCluster c with
  | none => s.modCluster c fun k => { k with inService := false }
  | some p =>
    let s := s.modCluster c fun k => { k with leaving := true }
    if (s.pav p).any (·.atBoundary) then s.dropLeaving p else s

/-- A window is no longer served: 4 MiB less for its pavilion, whose capacity is checked again (R18). -/
def State.unmapWindow (s : State) (p : Nat) : State :=
  let s := (s.modCore p fun k => { k with unmapped := true }).zeroMem (windowOf p) (4 * mib)
  match s.ownerOfCluster (p / 6) with
  | some o => s.modPav o fun v => { v with capacityDue := true }
  | none => s

/-- What a lost store held may not be produced again (R415): whether the chain of replays reaches a tensor that is
gone is a free value, since the manual leaves the placement of tensors open (log 33). -/
def State.replayLost (s : State) (p : Nat) : State :=
  match s.ownerOfCluster (p / 6) with
  | none => s
  | some o =>
    if (s.pav o).any fun v => v.run.any (fun r => !r.done.isEmpty) && v.sealing.isNone && Config.freeNat s.freeCtr % 2 == 1 then
      s.bumpFree.endRun o 0x0203 (placeCore p 4 * 65536 + 0xFFFF) none
    else s.bumpFree

/-- EV_UNIT_FAILED (R425). -/
def State.unitFailed (s : State) (o : Option Nat) (place cause : Nat) : State :=
  s.postOwner o 0x0102 2 place (pack [(2, place), (1, cause)])

/-- A core goes out of service: it has failed, or is retired. Causes 1 liveness, 2 self-test, 3 retired by command,
4 repeated uncorrectable errors. -/
def State.coreOut (s : State) (p cause : Nat) (retire : Bool) : State :=
  let c := p / 6
  let j := p % 6
  let k := s.cluster c
  if (s.core p).failed || (s.core p).retired then
    s.modCore p fun x => { x with retired := x.retired || retire, passed := x.passed && cause != 2 }
  else
    let s := (s.dropCoreWork p).modCore p fun x => { x with failed := !retire, retired := retire, passed := false }
    let s := s.unitFailed (s.ownerOfCluster c) (placeCore p 5) cause
    let s :=
      if j = k.storeOnly then (s.unmapWindow p).replayLost p
      else if j = k.checker then
        match k.standin with
        | some a =>
          -- the window that it was serving goes with it
          ((s.modCluster c fun k => { k with standin := none }).unmapWindow (6 * c + a)).replayLost p
        | none => s.modCluster c fun k => { k with failedCore := none }
      else if s.checkerWorks c && k.standin.isNone && k.failedCore.isNone then
        (s.modCluster c fun k => { k with failedCore := some j }).replayLost p
      else (s.unmapWindow p).replayLost p
    -- a checker that failed before the stand-in began leaves the window unmapped
    let s := match k.failedCore with
      | some a => if j = k.checker ∧ k.standin.isNone then s.unmapWindow (6 * c + a) else s
      | none => s
    -- a check under way of a tile of this core, or on this checker, is discarded (R21)
    let s := { s with pavs := tmap (fun _ (v : Pav) => { v with
      samples := v.samples.filter fun x => !(x.excess.isSome && x.cluster == c
        && (j == k.checker || x.place / 128 == placeCore p 0 / 128)) }) s.pavs }
    let s := s.moversGone (fun m => m == p) (0x3000 + p) none
    if s.clusterAlive c || !(s.cluster c).inService then s else s.clusterOut c

/-- CORE_FAILURE. A core that is out of service already cannot fail again. -/
def execCoreFailure (core : Fin 192) (cause : Nat) (s : State) : Host.Outcome State Fault Refusal :=
  let k := s.core core.val
  if k.failed || k.retired then .next s else .next (s.coreOut core.val cause false)

/-- Checks run per million finished tiles over the last 60 s (R399). -/
def State.checksPerMillion (s : State) (c : Nat) : Nat :=
  let k := s.cluster c
  let n := (recent k.tiles60 s.clock 60000000000).length
  if n = 0 then 0 else (recent k.checks24 s.clock 60000000000).length * 1000000 / n

def State.standinEvent (s : State) (c core begins : Nat) : State :=
  s.postOwner (s.ownerOfCluster c) 0x0103 1 (placeCore (6 * c + (s.cluster c).checker) 5)
    (pack [(1, c), (1, core), (1, begins), (1, 0), (4, s.checksPerMillion c)])

/-- STANDIN_BEGIN (R17): at a tile boundary the checker takes over the failed core's duty and window. -/
def execStandinBegin (c : Fin 32) (s : State) : Host.Outcome State Fault Refusal :=
  let k := s.cluster c.val
  match k.failedCore with
  | none => .next s
  | some j =>
    if k.standin.isSome || !s.checkerWorks c.val || !k.inService then .next s
    else
      let ch := 6 * c.val + k.checker
      let s := ((s.dropCoreWork ch).resetCounters (ctrOfCore ch)).spoilMem (windowOf (6 * c.val + j)) (4 * mib)
      .next ((s.modCluster c.val fun k => { k with standin := some j }).standinEvent c.val j 1)

/-- A core returns to service with an empty store (R18, R20). -/
def State.coreBack (s : State) (p : Nat) : State :=
  (s.modCore p fun k => { k with failed := false, retired := false, unmapped := false }).zeroMem (windowOf p) (4 * mib)

/-- STANDIN_END (R20): after the failed core has passed self-test, at a step boundary of the owner. -/
def execStandinEnd (c : Fin 32) (s : State) : Host.Outcome State Fault Refusal :=
  let k := s.cluster c.val
  match k.standin with
  | none => .next s
  | some j =>
    let p := 6 * c.val + j
    let boundary := match s.ownerOfCluster c.val with
      | some o => (s.pav o).all (·.stepFresh)
      | none => true
    if !(s.core p).passed || (s.core p).retired || !boundary then .next s
    else
      let ch := 6 * c.val + k.checker
      let s := (((s.dropCoreWork ch).resetCounters (ctrOfCore ch)).coreBack p).modCluster c.val fun k => { k with
        standin := none, failedCore := none }
      .next (s.standinEvent c.val j 0)

/-- The key of the pass that uses a bank: one that takes both is kept with bank 0. -/
def Engine.bankKey (g : Engine) (bank : Nat) : Nat := if g.banks.any (·.2.tall) then 0 else bank

/-- ACC_UNCORRECTABLE (R145): the pass runs again with NOTE 0x0105; the second within 1 s fails the core. -/
def execAccUncorrectable (eng : Fin 384) (bank : Fin 2) (s : State) : Host.Outcome State Fault Refusal :=
  let e := eng.val
  let k := (s.engine e).bankKey bank.val
  match tfind (s.engine e).banks k with
  | none => .next s
  | some b =>
    let again := (s.engine e).lastBad.any fun t => decide (s.clock < t + 1000000000)
    let s := s.count (ctrId (placeCore (e / 2) (e % 2)) 1 5) 1
    let s := (s.dropBanks e fun i => i == k).modRun b.pav fun r => { r with notes := addNew r.notes 0x0105 }
    let s := s.modEngine e fun g => { g with lastBad := some s.clock }
    .next (if again then s.coreOut (e / 2) 4 false else s)

/-- DIE_BRIDGE_FAILURE (R25). -/
def execDieBridgeFailure (b : Fin 10) (s : State) : Host.Outcome State Fault Refusal :=
  .next (s.modRoute fun r => { r with bridgesDown := addNew r.bridgesDown b.val })

/-! ### Sampled checking (R390 to R396) -/

/-- Form 1 EXACT, 2 WIDE, 3 FAST, and the sweeps that the checker runs (R392). -/
def checkForm (o : Op) (fast : Bool) : Nat × Nat :=
  if !isMatrix o.code || o.wide == 0 then (1, o.wide)
  else if fast then (3, 3)
  else if o.wide = 1 then (2, 2) else (1, 2)

/-- E of R172 as a power of two, and S, for the sweeps of a mode: the exponent is none for E = 0. -/
def foldError (wide : Nat) : Option Int × Nat :=
  match wide with
  | 0 => (none, 1) | 1 => (some (-13), 3) | 2 => (some (-21), 6) | _ => (some (-6), 1)

def pow2 (k : Option Int) : Val := match k with
  | some k => Val.one.scale2 k
  | none => .zero

/-- One ulp of a format at a code. -/
def ulpOf (format code : Nat) : Val :=
  match floatFormat format with
  | some f => match f.dec code with
    | .fin _ _ e => .fin false 1 e
    | _ => .zero
  | none => .one

/-- 100 × B of R392 for an element: σ, M, the two modes, K and u. -/
def bound100 (sigma m u : Val) (op chk k : Nat) : Val :=
  let (e1, s1) := foldError op
  let (e2, s2) := foldError chk
  let n := Val.ofNat (s1 * k + 1 + (s2 * k + 1))
  let c1 := (((pow2 e1).add (pow2 e2)).mul (.ofNat 100)).add ((n.mul (.ofNat 101)).scale2 (-24))
  (sigma.mul ((c1.mul m).add ((n.mul (.ofNat 100)).scale2 (-149)))).add (u.mul (.ofNat 200))

/-- What a check finds: elements in excess, the first of them, and DIFF. -/
structure CheckOut where
  bad : Nat
  row : Nat
  col : Nat
  diff : Nat
  deriving DecidableEq, Repr

/-- The instance of a sampled tile with the contents that OUT had before its final drain, and the operands that its
operation also wrote as they stood before it (log 42). -/
def State.checkInst (s : State) (p : Nat) (x : Sample) : Option (State × Inst) :=
  match s.runOf p with
  | none => none
  | some (_, r, h) =>
    let g := h.image
    let o := g.op x.tile.op
    let s1 := if o.acc then
        forEach x.initial (fun s e =>
          s.putCode p r.handle h o.out x.tile.slice (g.tileCoord o.out x.tile (e.1 / 1024) (e.1 % 1024)) e.2) s
      else s
    let s1 := forEach x.before (fun s y => s.putSnap p r.handle h y) s1
    (s1.inst p x.tile).map fun i => (s1, i)

/-- The codes that the checker forms for the tile. -/
def State.checkCodes (s : State) (p : Nat) (x : Sample) (i : Inst) (sweepMode : Nat) : State × List (Nat × Nat) :=
  let els := if isMatrix i.o.code then i.matrixTile sweepMode x.tile else i.tile x.tile
  let s2 := (s.writeTile p i.hd i.h i.o.out x.tile els).1
  match s2.runOf p with
  | some (v, r, h) => (s2, s2.tileCodes v r.handle h x.tile)
  | none => (s2, [])

/-- The checker's M of R392: the left fold of the magnitudes, times 1 + 2⁻⁶. -/
def Inst.magnitude (x : Inst) (c : Coord) : Val :=
  let ps := (List.range x.kSize).map fun k => (x.aVal c.2.1 k c.2.2.1 c.2.2.2).abs.mul (x.bVal k c.1 c.2.2.1 c.2.2.2).abs
  (d32 (foldProducts (r32 (d32 (x.initial c)).abs) ps)).mul (.fin false 65 (-6))

/-- Recompute a sampled tile and compare: none when no element is in excess. -/
def State.checkTile (s : State) (p : Nat) (x : Sample) (fast : Bool) : Option CheckOut :=
  match s.checkInst p x with
  | none => none
  | some (s1, i) =>
    let (form, mode) := checkForm i.o fast
    let (s2, codes) := s1.checkCodes p x i mode
    let pairs := (x.stored.zip codes).filter fun e => e.1.2 != e.2.2
    if form = 1 then
      match pairs with
      | [] => none
      | e :: _ => some { bad := pairs.length, row := e.1.1 / 1024, col := e.1.1 % 1024, diff := e.1.2 ^^^ e.2.2 }
    else
      let g := i.img
      let t := g.tensor i.o.out
      let at_ := fun (e : (Nat × Nat) × (Nat × Nat)) => g.tileCoord i.o.out x.tile (e.1.1 / 1024) (e.1.1 % 1024)
      let val := fun (c : Coord) (code : Nat) =>
        match (s2.putCode p i.hd i.h i.o.out i.sl c code).pav p with
        | some v => d32 (r32 ((s2.putCode p i.hd i.h i.o.out i.sl c code).valAt v i.hd i.h i.o.out i.sl c))
        | none => .zero
      let worst := pairs.map fun e =>
        let c := at_ e
        let a := val c e.1.2
        let b := val c e.2.2
        let d := (a.sub b).abs
        let f := if i.o.fuse = 2 then (d32 (i.get i.o.c c)).abs else .one
        let sigma := (if i.o.scaleEn then (d32 i.o.outScale).abs else .one).mul f
        let u := ulpOf t.format (if a.abs.lt b.abs then e.2.2 else e.1.2)
        let b100 := bound100 sigma (i.magnitude c) u i.o.wide mode i.kSize
        (e.1.1, d.mul (.ofNat 100), b100)
      let bad := worst.filter fun e => e.2.2.lt e.2.1
      match bad with
      | [] => none
      | e :: rest =>
        let top := rest.foldl (fun (m : Val) y => let q := y.2.1.div y.2.2; if m.lt q then q else m) (e.2.1.div e.2.2)
        some { bad := bad.length, row := e.1 / 1024, col := e.1 % 1024, diff := r32 top }

/-! #### Operand signatures (R395) -/

/-- Share in 1/256 of n parts of a whole, saturating at 255. -/
def share (n whole : Nat) : Nat := if whole = 0 then 0 else min 255 (256 * n / whole)
def ones (bits x : Nat) : Nat := (maskBits bits x).length

/-- Rows of operand codes of a tile: the streamed and the stationary operand. -/
def Inst.operandRows (x : Inst) (t : TileRef) : List (List Nat) × List (List Nat) :=
  let g := x.img
  let (nr, nc) := g.tileSize x.o.out t
  let at_ := fun (r k : Nat) => g.tileCoord x.o.out t r k
  let code := fun (i : Nat) (c : Coord) => x.s.codeAt x.v x.hd x.h i x.sl (bcast (x.dims i) c)
  if isMatrix x.o.code then
    ((List.range nr).map fun r => (List.range x.kSize).map fun k =>
        let c := at_ r 0
        code x.o.a (matCoord x.o.transA c.2.1 k c.2.2.1 c.2.2.2),
     (List.range x.kSize).map fun k => (List.range nc).map fun j =>
        let c := at_ 0 j
        code x.o.b (matCoord x.o.transB k c.1 c.2.2.1 c.2.2.2))
  else
    let rows := fun (i : Nat) => if i = 0 then [] else
      (List.range nr).map fun r => (List.range nc).map fun j => code i (at_ r j)
    (rows x.o.a, rows x.o.b)

def Inst.signature (x : Inst) (t : TileRef) : Nat :=
  let (a, b) := x.operandRows t
  let ba := formatBits (x.img.tensor x.o.a).format
  let bb := formatBits (x.img.tensor x.o.b).format
  let total := fun (w : Nat) (rows : List (List Nat)) => w * sumNat (rows.map (·.length))
  let count := fun (w : Nat) (rows : List (List Nat)) => sumNat (rows.map fun r => sumNat (r.map (ones w)))
  let flips := (a.zip (a.drop 1)).map fun y => zipMap (fun m n => ones ba (m ^^^ n)) y.1 y.2
  let exps := if !isMatrix x.o.code then [] else
    let g := x.img
    let (nr, nc) := g.tileSize x.o.out t
    (List.range nr).flatMap fun r => (List.range nc).flatMap fun j =>
      let c := g.tileCoord x.o.out t r j
      (List.range x.kSize).filterMap fun k =>
        let q := r32 ((x.aVal c.2.1 k c.2.2.1 c.2.2.2).mul (x.bVal k c.1 c.2.2.1 c.2.2.2))
        if q % 2 ^ 31 = 0 then none else some (q / 2 ^ 23 % 256)
  let span := match exps with
    | [] => 0
    | e :: l => l.foldl max e - l.foldl min e
  share (count ba a) (total ba a) * 2 ^ 24 + share (sumNat (flips.map sumNat)) (ba * sumNat (flips.map (·.length))) * 2 ^ 16
    + share (count bb b) (total bb b) * 2 ^ 8 + min 255 span

/-! #### Evidence (R393, R394, R396) -/

/-- The evidence record as a number. -/
def evidenceWord (h : Handle) (x : Sample) (e : CheckOut) (chk form blame sig : Nat) : Nat :=
  let g := h.image
  let o := g.op x.tile.op
  let t := x.tile
  x.finishedAt * 2 ^ 448 + g.programId * 2 ^ 384 + t.op % 2 ^ 24 * 2 ^ 360
    + (if g.perSlice o then t.slice else 0) * 2 ^ 344 + t.row % 2 ^ 28 * 2 ^ 316 + t.col % 2 ^ 28 * 2 ^ 288 + x.place * 2 ^ 272
    + chk * 2 ^ 256 + sig * 2 ^ 224 + e.diff % 2 ^ 32 * 2 ^ 192 + sat16 e.bad * 2 ^ 176 + e.row % 1024 * 2 ^ 166
    + e.col % 1024 * 2 ^ 156 + x.runMhz % 4096 * 2 ^ 144 + x.tempC % 256 * 2 ^ 136 + sat16 x.droops * 2 ^ 120
    + form * 2 ^ 116 + (g.tensor o.out).format * 2 ^ 108 + blame * 2 ^ 104 + o.code * 2 ^ 96 + t.d2 * 2 ^ 64 + t.d3 * 2 ^ 32

/-- Write an evidence record; its log index. -/
def State.putEvidence (s : State) (w : Nat) : State × Nat :=
  let k := s.check
  let s := s.count (ctrId 0xFFFF 9 0) 1
  if k.stickyEvidence.isNone then
    (s.modCheck fun k => { k with stickyEvidence := some w, written := k.written + 1 }, 0)
  else
    let full := decide (65536 ≤ k.written)
    let s := s.modCheck fun k => { k with
      evidence := tdel (k.evidence ++ [(k.written, w)]) (if full then k.written - 65535 else 0)
      written := k.written + 1, overwritten := k.overwritten + b2n full }
    (if full then s.count (ctrId 0xFFFF 9 1) 1 else s, 1 + (k.written - 1) % 65535)

/-- Engine of a checker core that recomputes a tile of an operation. -/
def checkerPlace (c ch code : Nat) : Nat := placeCore (6 * c + ch) (if isMatrix code then 0 else 2)

/-- Steps 2 and 3 of R393. -/
def State.excess (s : State) (p : Nat) (x : Sample) (e : CheckOut) (blame : Nat) : State :=
  match s.runOf p with
  | none => s
  | some (_, _, h) =>
    let k := s.cluster x.cluster
    let o := h.image.op x.tile.op
    let (form, _) := checkForm o k.fastWide
    let sig := ((s.inst p x.tile).map fun i => i.signature x.tile).getD 0
    let w := evidenceWord h x e (checkerPlace x.cluster k.checker o.code) form blame sig
    let (s, idx) := s.putEvidence w
    let s := s.fact (if blame = 2 then 1 else 0)
    let s := s.modCluster x.cluster fun k => { k with excesses := recent k.excesses s.clock 86400000000000 ++ [s.clock] }
    let s := s.modCheck fun c => { c with lastExcess := s.now }
    let s := s.modPav p fun v => { v with samples := v.samples.filter (· != x) }
    let s := s.postPav p 0x0901 2 x.place ((leBytes 64 w).drop 32 ++ leBytes 4 idx)
    if k.logOnly || blame == 2 then s else s.endRun p 0x0206 (x.place * 65536 + idx) none

/-- The pavilion and sample of a tile that waits on a cluster's checker. -/
def State.sampleOf (s : State) (hit : Sample → Bool) : Option (Nat × Sample) :=
  s.pavs.findSome? fun e => (e.2.samples.find? hit).map fun x => (e.1, x)

/-- Active duty leaves core k without work: no pass stands in a bank of its engines and no vector tile is in flight
there. -/
def State.coreIdle (s : State) (k : Nat) : Bool :=
  (s.engine (2 * k)).banks.isEmpty && (s.engine (2 * k + 1)).banks.isEmpty
    && s.pavs.all fun e => match s.runOf e.1 with
      | none => true
      | some (_, r, h) => r.inflight.all fun x => isMatrix (h.image.op x.tile.op).code || s.homeCore e.1 x.tile != k
/-- Active cores of a cluster that are out of service. -/
def State.activeOut (s : State) (c : Nat) : Nat :=
  ((List.range 6).filter fun j => s.isActive (6 * c + j) && ((s.core (6 * c + j)).failed || (s.core (6 * c + j)).retired)).length
/-- A checker may check now: it works and its cluster is in service; while it stands in, only where its active duty leaves
it idle (R19), and not at all with a second active core failed (R21). -/
def State.mayCheck (s : State) (c : Nat) : Bool :=
  let k := s.cluster c
  k.inService && s.checkerWorks c
    && (k.standin.isNone || (decide (s.activeOut c < 2) && s.coreIdle (6 * c + k.checker)))
/-- A checker that works, whether or not it is idle now (R391). -/
def State.healthyChecker (s : State) (c : Nat) : Bool :=
  let k := s.cluster c
  k.inService && s.checkerWorks c && (k.standin.isNone || decide (s.activeOut c < 2))
/-- Other clusters of the pavilion that may arbitrate (R393). -/
def State.arbiters (s : State) (p c : Nat) : List Nat :=
  match s.pav p with
  | some v => v.clusters.filter fun d => d != c && s.healthyChecker d
  | none => []

/-- What a recomputation counts on the checker's units (R155, R156, R216): rows streamed and masked in each pass, row passes and
primitives. The passes leave its banks free (log 12). -/
def State.countCheck (s : State) (p : Nat) (x : Sample) (c : Nat) (fast : Bool) : State :=
  match s.checkInst p x with
  | none => s
  | some (_, i) =>
    let place := checkerPlace c (s.cluster c).checker i.o.code
    if isMatrix i.o.code then
      let mode := (checkForm i.o fast).2
      let blocks := List.range (i.blocks x.tile)
      let rows := fun (b : Nat) => (i.blockRows x.tile b).length
      let streamed := sumNat (blocks.map fun b => sumNat ((List.range i.stitches).map fun st => rows b * i.loads mode st))
      let masked := sumNat (blocks.map fun b => i.stitches * ((i.img.tileSize i.o.out x.tile).1 - rows b))
      (s.count (ctrId place 1 1) streamed).count (ctrId place 1 2) masked
    else
      let work := i.workOf x.tile
      (s.count (ctrId place 2 2) work.1).count (ctrId place 2 3) work.2

/-- CHECK_RUN: within 1 ms of the tile's final write the checker recomputes the tile. -/
def execCheckRun (c : Fin 32) (t : TileRef) (s : State) : Host.Outcome State Fault Refusal :=
  match s.sampleOf fun x => x.cluster == c.val && x.tile == t && x.excess.isNone with
  | none => .next s
  | some (p, x) =>
    if !s.mayCheck c.val || decide (x.clockAt + 1000000 < s.clock) then .next s
    else
      let k := s.cluster c.val
      let s := s.modCluster c.val fun k => { k with checks24 := recent k.checks24 s.clock 86400000000000 ++ [s.clock] }
      let s := s.countCheck p x c.val k.fastWide
      match s.checkTile p x k.fastWide with
      | none => .next (s.modPav p fun v => { v with samples := v.samples.filter (· != x) })
      | some e =>
        if (k.noArbiter && !s.check.probation) || (s.arbiters p c.val).isEmpty then .next (s.excess p x e 3)
        else .next (s.modPav p fun v => { v with
          samples := v.samples.map fun (y : Sample) =>
            if y = x then { y with excess := some (e.bad, e.row * 1024 + e.col, e.diff) } else y })

/-- CHECK_DROP (R391): not started within 1 ms, or no healthy checker. -/
def execCheckDrop (c : Fin 32) (t : TileRef) (s : State) : Host.Outcome State Fault Refusal :=
  match s.sampleOf fun x => x.cluster == c.val && x.tile == t && x.excess.isNone with
  | none => .next s
  | some (p, x) =>
    if s.healthyChecker c.val && decide (s.clock < x.clockAt + 1000000) then .next s
    else
      let s := s.modCluster c.val fun k => { k with skipped := recent k.skipped s.clock 86400000000000 ++ [s.clock] }
      .next (s.modPav p fun v => { v with samples := v.samples.filter (· != x) })

/-- ARBITER_CHECK (R393, R403): another cluster's checker decides the blame; without one it is 3. -/
def execArbiterCheck (c : Fin 32) (t : TileRef) (s : State) : Host.Outcome State Fault Refusal :=
  match s.sampleOf fun x => x.tile == t && x.excess.isSome with
  | none => .next s
  | some (p, x) =>
    match x.excess with
    | none => .next s
    | some (bad, rc, diff) =>
      let e : CheckOut := { bad := bad, row := rc / 1024, col := rc % 1024, diff := diff }
      let all := s.arbiters p x.cluster
      if all.isEmpty then .next (s.excess p x e 3)
      else if !all.contains c.val || !s.mayCheck c.val then .next s
      else
        let s := s.countCheck p x c.val (s.cluster x.cluster).fastWide
        let blame := match s.checkTile p x (s.cluster x.cluster).fastWide with
          | none => 2
          | some f => if f = e then 1 else 3
        .next (s.excess p x e blame)

/-! ### CHECK_RATE_SET (R397) -/

def bodyCheckRateSet (s : State) (c : Cmd) : Chk State := do
  let w := c.word 0
  let n := bits w 5 0
  need (n == 0 || n == 63 || decide (6 ≤ n ∧ n ≤ 16)) (c.badParam 0)
  need (c.target == 0 || c.target / 4096 == 2 || c.target == pavTarget c.pavilion) { code := 0x0107, off := 1 }
  let rate := if n = 0 then 12 else n
  let cs := if c.target / 4096 = 2 then [c.target % 4096]
    else if c.pavilion = 0xF then List.range 32 else ((s.pav c.pavilion).map (·.clusters)).getD []
  let s := forEach cs (fun s k => s.modCluster k fun x => { x with
    rateLog2 := rate, noArbiter := c.expert && bitAt w 10, logOnly := c.expert && bitAt w 9, fastWide := c.expert && bitAt w 8 }) s
  let eff := if s.check.probation then min rate s.check.probRate else rate
  .ok (s.finish c (pack [(1, eff), (3, 0), (4, cs.length)]))

def execCheckRateSet (id : Nat) (s : State) : Host.Outcome State Fault Refusal :=
  .next (s.startCmd id 0x0620 bodyCheckRateSet)

/-! ### Health (R398, R399) -/

def day : Nat := 86400000000000
/-- Evidence of some kinds within a window. -/
def State.factsIn (s : State) (kinds : List Nat) (span : Nat) : Nat :=
  (s.check.facts.filter fun f => kinds.contains f.1 && decide (s.clock < f.2 + span)).length

def State.standins (s : State) : Nat := (s.clusters.filter fun e => e.2.inService && e.2.standin.isSome).length
def State.parkedLanes (s : State) : Nat := sumNat (s.links.map fun e => (e.2.lanes.filter fun x => x.2.parked).length)
/-- More than half of the sampled tiles of the last 60 s skipped. -/
def Cluster.mostSkipped (k : Cluster) (clk : Nat) : Bool :=
  let a := (recent k.skipped clk 60000000000).length
  let b := (recent k.checks24 clk 60000000000).length
  decide (b < a)

/-- The health score of R398. -/
def State.scoreNow (s : State) : Nat :=
  let out := (s.clusters.filter fun e => !e.2.inService && !e.2.disabled && decide (8 ≤ s.boot.stage)).length
  let skip := (s.clusters.filter fun e => e.2.mostSkipped s.clock).length
  1000 - (150 * s.factsIn [0] day + 50 * s.factsIn [1] day + 200 * s.factsIn [2] (7 * day) + 300 * s.factsIn [3] (7 * day)
    + 40 * s.factsIn [4] day + min 100 (5 * s.factsIn [5] day) + 100 * s.standins + 200 * out + 20 * s.parkedLanes + 25 * skip)

/-- HEALTH_SCORE_UPDATE: evidence older than 7 days is forgotten, and a change of band is posted. -/
def execHealthScoreUpdate (s : State) : Host.Outcome State Fault Refusal :=
  let old := s.check.score
  let n := s.scoreNow
  let s := s.modCheck fun k => { k with score := n, facts := k.facts.filter fun f => decide (s.clock < f.2 + 7 * day) }
  .next (if n / 100 = old / 100 then s else s.postModule 0x0902 1 0xFFFF (pack [(2, n), (2, old)]))

def State.healthRecord (s : State) (c : Nat) : List Byte :=
  let k := s.cluster c
  pack [(4, s.checksPerMillion c), (4, (recent k.checks24 s.clock day).length), (2, sat16 (recent k.excesses s.clock day).length),
    (2, sat16 (recent k.skipped s.clock day).length), (1, if s.checkerWorks c then k.checker else 0xFF), (1, b2n k.standin.isSome),
    (1, k.rateLog2), (1, 0)]

def bodyHealthReport (s : State) (c : Cmd) : Chk State :=
  if c.expert then do
    let a := c.word 0
    let mine := (List.range 32).filter fun k => c.fn == 0 || s.ownerOfCluster k == some (c.fn - 1)
    s.checkAddr c 0 a 512 1
    -- from a virtual function the buffer lies in the pavilion's memory, the staging area is no place for it
    need (c.fn == 0 || (s.pav (c.fn - 1)).any fun v => v.ownsRange a 512) (c.badAddr 0 2)
    match s.partialBad a 512 with
    | some w => .error (stMemory w)
    | none => .ok ((forEach mine (fun s k => s.writeMem (a + 16 * k) (s.healthRecord k)) s).finish c [])
  else
    let rates := ((List.range 32).filter fun k => (s.cluster k).inService).map s.rateOf
    let low := (rates.filter fun r => decide (r < 32)).foldl min 0xFF
    .ok (s.finish c (pack [(2, s.check.score), (1, b2n s.check.probation), (1, low), (4, s.factsIn [0, 1] day),
      (4, s.factsIn [6] (7 * day)), (4, s.factsIn [4] day), (4, s.standins), (4, s.parkedLanes), (8, s.check.lastExcess)]))

def execHealthReport (id : Nat) (s : State) : Host.Outcome State Fault Refusal :=
  .next (s.startCmd id 0x0910 bodyHealthReport)

/-! ### Probation (R400) -/

def State.setProbation (s : State) (on : Bool) (rate until_ : Nat) : State :=
  (s.modCheck fun k => { k with probation := on, probRate := rate, probEnd := until_ }).postModule 0x0903 1 0xFFFF
    (pack [(1, b2n on), (1, rate), (6, 0), (8, until_)])

def bodyProbationSet (s : State) (c : Cmd) : Chk State := do
  let w := c.word
  let r := if c.expert then bits (w 0) 13 8 else 6
  need (decide (r ≤ 6)) (c.badParam 0)
  let rate := if r = 0 then 6 else r
  let dur := if c.expert then w 1 else 0
  let on := bitAt (w 0) 0
  .ok ((if on then s.setProbation true rate (if dur = 0 then 0 else s.clock + dur * 1000000000)
    else if s.check.probation then s.setProbation false s.check.probRate 0 else s).finish c [])

def execProbationSet (id : Nat) (s : State) : Host.Outcome State Fault Refusal :=
  .next (s.startCmd id 0x0911 bodyProbationSet)

/-- PROBATION_EXPIRE: the duration has passed. -/
def execProbationExpire (s : State) : Host.Outcome State Fault Refusal :=
  let k := s.check
  if k.probation && k.probEnd != 0 && decide (k.probEnd ≤ s.clock) then .next (s.setProbation false k.probRate 0) else .next s

/-! ### SELFTEST_RUN (R422, R424) -/

/-- Units of a self-test, in the numbering of its operand (log 5): core p; 0x1000 + 32 × link + lane; 0x2000 + cluster;
0x6000 + stack; and 0x5000 + axis for a loopback. -/
def testPlace (u : Nat) : Nat :=
  let i := u % 4096
  match u / 4096 with
  | 0 => placeCore i 5
  | 1 => placeLink (i / 32)
  | 2 => placeCluster i 3
  | 5 => placeLink i
  | _ => placeDie (i / 4) 3 (i % 4)

def Pav.idleRole (v : Pav) : Bool := v.role == 0
/-- Every pavilion with clusters on a die is IDLE. -/
def State.dieIdle (s : State) (d : Nat) : Bool := s.pavs.all fun e => e.2.idleRole || !(e.2.clusters.any fun c => c / 4 == d)
def State.hubWindowIdle (s : State) (h : Nat) : Bool := s.pavs.all fun e => e.2.idleRole || !(e.2.lpddr.any fun g => g.1 == h)
/-- A cluster is free, or its pavilion is IDLE. -/
def State.clusterIdle (s : State) (c : Nat) : Bool := match s.ownerOfCluster c with
  | none => true
  | some p => (s.pav p).all (·.idleRole)

def coresOf (c : Nat) : List Nat := (List.range 6).map fun j => 6 * c + j
/-- Lanes of a link that are out of use. -/
def State.lanesOut (s : State) (l : Nat) : List Nat :=
  ((List.range (linkWidth l)).filter fun i => !(s.link l).inUse.testBit i).map fun i => 0x1000 + 32 * l + i

/-- Units of the basic level. -/
def State.basicUnits (s : State) (v : Option Pav) : List Nat :=
  let cs := (List.range 32).filter fun c => (s.cluster c).inService && v.all (·.clusters.contains c)
  let checkers := (cs.filter fun c => s.checkerWorks c && (s.cluster c).standin.isNone).map fun c => 6 * c + (s.cluster c).checker
  let lanes := if v.isSome then [] else (List.range 6).flatMap s.lanesOut
  let stackIds := (List.range 32).filter fun h => !s.route.lostStacks.contains h && v.all fun v => v.hbm.any fun g => g.1 == h / 4
  checkers ++ lanes ++ stackIds.map (0x6000 + ·)

/-- Units of the full level, or none where a condition of R424 is not met. -/
def State.fullUnits (s : State) (c : Cmd) : Option (List Nat) :=
  let i := c.target % 4096
  let out := fun (p : Nat) => (s.core p).failed || (s.core p).retired
  let pavUnits := fun (v : Pav) => v.clusters.flatMap (fun k => coresOf k ++ [0x2000 + k])
    ++ ((List.range 32).filter fun h => (v.hbm.any fun g => g.1 == h / 4) && s.dieIdle (h / 4)).map (0x6000 + ·)
  let when_ := fun (ok : Bool) (l : List Nat) => if ok then some l else none
  match c.target / 4096 with
  | 0 => if c.pavilion = 0xF then when_ (s.pavs.all fun e => e.2.idleRole)
        ((List.range 192) ++ (List.range 32).map (0x2000 + ·) ++ (List.range 32).map (0x6000 + ·))
      else match s.pav c.pavilion with
        | some v => when_ v.idleRole (pavUnits v)
        | none => some []
  | 1 => match s.pav i with
      | some v => when_ v.idleRole (pavUnits v)
      | none => some []
  | 2 => when_ (s.clusterIdle i || !(s.cluster i).inService) (coresOf i ++ [0x2000 + i])
  | 3 => when_ (s.clusterIdle (i / 6) || out i) [i]
  | 4 => when_ (s.clusterIdle (engineCore i / 6) || out (engineCore i)) [engineCore i]
  | 5 => some (s.lanesOut i)
  | 6 => when_ (s.dieIdle (i / 4)) [0x6000 + i]
  | 7 => when_ (s.hubWindowIdle (i / 12)) []
  | 8 => when_ (s.clusterIdle (i / 6) || out i) [i]
  | 9 => when_ (s.dieIdle i) []
  | _ => some []

/-- Treat a failing unit (R422): a core or a lane is retired, a cluster leaves service. -/
def State.testFailed (s : State) (u : Nat) : State :=
  let i := u % 4096
  match u / 4096 with
  | 0 => s.coreOut i 2 true
  | 1 => s.retireLane (i / 32) (i % 32)
  | 2 => s.clusterOut i
  | _ => s

/-- EV_SELFTEST and the ending of the command. -/
def State.testEnd (s : State) (c : Cmd) (level tested : Nat) (bad : List Nat) : State :=
  let place := (bad.head?.map testPlace).getD 0xFFFF
  let data := pack [(1, level), (3, 0), (4, bad.length), (2, place)]
  let s := s.postOwner (if c.pavilion = 0xF then none else some c.pavilion) 0x0910 1 place data
  let res := pack [(4, tested), (4, bad.length), (2, place), (1, level), (5, 0), (8, s.now)]
  if bad.isEmpty then s.finish c res else s.fail c 0x02D0 place (sat16 bad.length) res

def selftestBody (failures : List Nat) (s : State) (c : Cmd) : Chk State := do
  let w := if c.expert then c.word 0 else 0
  let level := bits w 1 0
  let keep := bitAt w 8
  need (level != 3) (c.badParam 0)
  if level = 2 then
    need (c.target / 4096 == 5) { code := 0x0107, off := 1 }
    let a := c.target % 4096 % 3
    need (!(s.axis a).isOpen) (stReject 0x01E1 1)
    let bad := failures.filter (· == 0x5000 + a)
    let s := s.modAxis a fun x => { x with loopAt := if bad.isEmpty then some s.clock else none }
    .ok (s.testEnd c 2 1 bad)
  else
    match (if level = 0 then some (s.basicUnits (s.pav c.pavilion)) else s.fullUnits c) with
    | none => .error { stState 7 with defer := true, onCondition := true }
    | some units =>
      let bad := units.filter failures.contains
      let s := if keep then s else forEach bad State.testFailed s
      let s := if level = 0 then s else
        forEach (units.filter fun u => decide (u < 192) && !bad.contains u) (fun s p => s.modCore p fun k => { k with passed := true }) s
      let s := if level = 0 then s else
        forEach (units.filter fun u => u / 4096 == 2 && !bad.contains u) (fun s u => s.modCluster (u % 4096) fun k => { k with
          selfTested := true }) s
      .ok (s.testEnd c level units.length bad)

def execSelftestRun (id : Nat) (failures : List Nat) (s : State) : Host.Outcome State Fault Refusal :=
  .next (s.startCmd id 0x0901 (selftestBody failures))

/-! ### CALIBRATE (R423, R424) -/

/-- Recalibrate one lane: counts of lanes recalibrated, re-admitted and still retired. -/
def State.calibrateLane (a : State × Nat × Nat × Nat) (l i : Nat) (fails : Bool) : State × Nat × Nat × Nat :=
  let (s, done, back, left) := a
  let k := s.link l
  let x := k.lane i
  let out := x.retired || x.parked || x.testing
  if k.state = 2 ∧ k.inUse = 1 <<< i then (s, done, back, left + 1)
  else if fails then (if out then s else s.retireLane l i, done + 1, back, left + 1)
  else (s.admitLane l i, done + 1, back + b2n out, left)

/-- Bit 32 × link + lane of the operand: the lane fails its recalibration (log 5). -/
def calibrateBody (failed : Nat) (s : State) (c : Cmd) : Chk State := do
  let i := c.target % 4096
  let w := if c.expert then bits (c.word 0) 31 0 else 0
  let cond := fun (ok : Bool) => need ok { stState 7 with defer := true, onCondition := true }
  match c.target / 4096 with
  | 6 => do
    cond (s.dieIdle (i / 4))
    .ok (s.finish c (pack [(4, 0), (4, 0), (4, 0)]))
  | 7 => do
    cond (s.hubWindowIdle (i / 12))
    .ok (s.finish c (pack [(4, 0), (4, 0), (4, 0)]))
  | k => do
    need (c.target == 0 || k == 5) { code := 0x0107, off := 1 }
    let links := if c.target = 0 then List.range 6 else [i]
    let lanes := links.flatMap fun l => ((List.range (linkWidth l)).filter fun j => w == 0 || w.testBit j).map fun j => (l, j)
    let (s, done, back, left) := lanes.foldl (fun a x => State.calibrateLane a x.1 x.2 (failed.testBit (32 * x.1 + x.2))) (s, 0, 0, 0)
    .ok (s.finish c (pack [(4, done), (4, back), (4, left)]))

def execCalibrate (id : Nat) (failed : Nat) (s : State) : Host.Outcome State Fault Refusal :=
  .next (s.startCmd id 0x0902 (calibrateBody failed))

end Sys2Proof.Machine
end

