-- ==== Sys2Proof/Machine/Engine.lean ====
section
/-! DEFINITION. The matrix engines at work: passes, loadings of the array, banks, drains and the stitch chain (R126 to R149,
R184 to R191, R197). -/

namespace Sys2Proof.Machine

/-! ### Passes and what they stack (R142, R143) -/

/-- The instance of a tile that a pass stacks. -/
def State.bankInst (s : State) (b : Bank) (t : TileRef) : Option Inst :=
  match s.flying b.pav 1 t with
  | some x => some x
  | none => s.flying b.pav 2 t

/-- Tiles that read the same stationary block of IN_B. -/
def Inst.sameBlock (x : Inst) (t u : TileRef) : Bool :=
  let d := x.dims x.o.b
  let key := (x.img.tensor x.o.b).key
  u.op == t.op && u.col == t.col && key u.slice == key t.slice
    && (dim d 2 == 1 || u.d2 == t.d2) && (dim d 3 == 1 || u.d3 == t.d3)

/-- Give tiles consecutive entries from `first`, while their rows end by `limit`. -/
def stackRows (rows : TileRef → Nat) (limit : Nat) : Nat → List TileRef → List (TileRef × Nat)
  | _, [] => []
  | first, t :: l => if limit < first + rows t then [] else (t, first) :: stackRows rows limit (first + rows t) l

/-- Rows of a tile. -/
def Inst.height (x : Inst) (t : TileRef) : Nat := (x.img.tileSize x.o.out t).1
/-- A tile that takes both banks alone. -/
def Inst.tall (x : Inst) (t : TileRef) : Bool := decide (512 < x.height t)

/-- The tiles that a new pass stacks from its first: those in flight that follow it in logical row order, read the same
stationary block and have not begun the same column block and stitch, up to 512 rows (R142; log 46). -/
def State.stack (s : State) (v : Pav) (r : Run) (x : Inst) (q : PassRef) : List (TileRef × Nat) :=
  if x.tall q.tile then [(q.tile, 0)]
  else
    let waits := fun (t : TileRef) => x.sameBlock q.tile t
      && r.inflight.any fun y => y.tile == t && !y.passes.contains (q.block, q.stitch)
    let ts := ((x.img.opTiles q.tile.op (s.heldSlices v x.img)).filter waits).dropWhile (· != q.tile)
    stackRows x.height (512 * q.bank.val + 512) (512 * q.bank.val) ts

/-- The bank of a new pass: banks alternate, a pass that takes both needs both drained, and one pass streams at a time
(R143). -/
def Engine.takes (g : Engine) (bank : Nat) (tall : Bool) : Bool :=
  !g.stalled && g.banks.all (·.2.complete)
    && if tall then bank == 0 && g.banks.isEmpty
       else bank == g.nextBank && !thas g.banks bank && !(g.banks.any (·.2.tall))

/-! ### Streaming (R130, R131, R133) -/

/-- One loading of the array streams: every entry of the pass folds in its products, and the next loading's codes go into the
shadow registers. `fixed` errors of the accumulator memory are corrected (R145). -/
def State.streamLoad (s : State) (e k : Nat) (b : Bank) (fixed : Nat) : State :=
  match s.bankInst b b.pass.tile with
  | none => s
  | some x =>
    let q := b.pass
    let place := placeCore (e / 2) (e % 2)
    let held := (s.engine e).entries
    let sums := b.tiles.flatMap fun t => match s.bankInst b t.1 with
      | none => []
      | some y => (y.blockRows t.1 q.block).map fun r =>
          (t.2 + r, y.loadRow y.o.wide t.1 q.block q.stitch b.loads r (tget held (t.2 + r) []))
    let last := decide (x.loads x.o.wide q.stitch ≤ b.loads + 1)
    let s := s.modEngine e fun g => { g with
      entries := sums.foldl (fun m y => tset m y.1 y.2) g.entries
      current := g.shadow
      shadow := if last then g.shadow else x.weights x.o.wide q.tile q.block q.stitch (b.loads + 1)
      shadowReady := last, stalled := false
      banks := tset g.banks k { b with loads := b.loads + 1, complete := last } }
    (s.count (ctrId place 1 1) b.rows.length).count (ctrId place 1 4) fixed

/-! ### The stitch buffer (R188, R189; log 46) -/

/-- Slots of 512 KiB in a cluster's store, and the address of one (log 11). -/
def stitchSlotBytes : Nat := 524288
def stitchSlots : Nat := 448
def slotAddr (cluster slot : Nat) : Nat := 2 * 2 ^ 48 + cluster * 2 ^ 28 + slot * stitchSlotBytes
def StitchSum.addr (x : StitchSum) : Nat := slotAddr x.cluster x.slot
/-- Bytes of the sum: 128 values for each entry. -/
def StitchSum.bytes (x : StitchSum) : Nat := 512 * x.rows.length
/-- The first slot that holds no sum and no retired page. -/
def State.freeSlot (s : State) (c : Nat) : Option Nat :=
  (List.range stitchSlots).find? fun k =>
    !(s.stitches.any fun x => x.cluster == c && x.slot == k) && (s.retiredIn (slotAddr c k) stitchSlotBytes).isNone

/-- Two sums of the same stitch of the same block are copies of each other. -/
def StitchSum.same (x y : StitchSum) : Bool :=
  x.pav == y.pav && x.tile == y.tile && x.block == y.block && x.stitch == y.stitch
/-- Put a sum into a cluster's stitch buffer in place of any copy (R197); none where the buffer has no room. -/
def State.putSum (s : State) (c : Nat) (y : StitchSum) : Option State :=
  let s := { s with stitches := s.stitches.filter fun x => !x.same y }
  (s.freeSlot c).map fun k =>
    let y := { y with cluster := c, slot := k }
    { s with stitches := s.stitches ++ [y] }.renew [(y.addr, y.bytes)]
def State.putSums (s : State) (c : Nat) : List StitchSum → Option State
  | [] => some s
  | y :: l => (s.putSum c y).bind fun s => s.putSums c l

/-- Sums held of a column block of some tiles. -/
def State.sumsOf (s : State) (p block : Nat) (ts : List TileRef) : List StitchSum :=
  s.stitches.filter fun y => y.pav == p && y.block == block && ts.contains y.tile
/-- The cluster of the closing engine: that of the pass of stitch 0; before it begins that of the sums held, or the
draining engine's own (R188; log 46). -/
def State.closingCluster (s : State) (p block : Nat) (t : TileRef) (own : Nat) : Nat :=
  match s.engines.find? fun e => e.2.banks.any fun y =>
      y.2.pav == p && y.2.pass.block == block && y.2.pass.stitch == 0 && y.2.tiles.any (·.1 == t) with
  | some e => e.1 / 12
  | none => ((s.sumsOf p block [t]).head?.map (·.cluster)).getD own

/-! ### MATMUL and MATMUL_WGRAD -/

/-- Mark a pass as begun for the tiles that it stacks. -/
def State.markPass (s : State) (p e : Nat) (ts : List TileRef) (block stitch : Nat) : State :=
  let core := e / 2
  s.modRun p fun r => { r with
    inflight := r.inflight.map fun (y : TileProg) =>
      if !ts.contains y.tile then y else { y with
        passes := y.passes ++ [(block, stitch)]
        droops := if y.droops.any fun x => x.1 == core then y.droops else y.droops ++ [(core, s.droopCount core)] } }

/-- A column block of a tile has been drained: the tile whose last block it was is finished (R109). -/
def State.blockDrained (s : State) (p core place block : Nat) (x : Inst) (t : TileRef) : State :=
  let s := s.modRun p fun r => { r with
    inflight := r.inflight.map fun (y : TileProg) =>
      if y.tile = t then { y with drained := addNew y.drained block } else y }
  if (s.runOf p).any fun y => y.2.1.inflight.any fun z => z.tile == t && decide (x.blocks t ≤ z.drained.length) then
    s.finishTile p t core place
  else (s.nanStops p t).1

/-- Begin a pass. Where a mask leaves no row of it the engine skips the pass and its loadings (R151); a masked row counts
once for the pass, a streamed row once for each loading (R156, log 12). An idle engine first
loads its shadow registers, and the row stalls until SHADOW_LOAD_DONE; else the pass streams at once (R130, R153). -/
def State.beginPass (s : State) (p : Nat) (q : PassRef) (x : Inst) (tiles : List (TileRef × Nat)) (fixed : Nat) : State :=
  let e := q.eng.val
  let place := placeCore (e / 2) (e % 2)
  let insts := tiles.filterMap fun t => (s.flying p x.o.code t.1).map fun y => (t, y)
  let rows := insts.flatMap fun u => (u.2.blockRows u.1.1 q.block).map fun r => (u.1.2 + r, u.2.firstRow u.1.1 q.block q.stitch r)
  let ts := tiles.map (·.1)
  let s := s.markPass p e ts q.block q.stitch
  let s := s.count (ctrId place 1 2) (sumNat (ts.map x.height) - rows.length)
  if rows.isEmpty then
    if q.stitch ≠ 0 then s else forEach ts (fun s t => s.blockDrained p (e / 2) place q.block x t) s
  else
    let g := s.engine e
    let idle := g.banks.isEmpty
    let b : Bank :=
      { pav := p, pass := q, tiles := tiles, rows := rows.map (·.1), cols := (x.blockCols q.tile q.block).length
        stitches := x.stitches, tall := x.tall q.tile }
    let s := s.modEngine e fun g => { g with
      shadow := x.weights x.o.wide q.tile q.block q.stitch 0, shadowReady := !idle, stalled := idle
      nextBank := if b.tall then 0 else 1 - q.bank.val, banks := tset g.banks q.bank.val b
      entries := rows.foldl (fun m y => tset m y.1 y.2) g.entries }
    if idle then s else s.streamLoad e q.bank.val b fixed

/-- One loading of the array for a pass (R126, R131): its first begins the pass, each later one goes on with it, and stalls
while its shadow loading is not finished. `errs` are the words in error that the operands meet. -/
def State.matrixPass (s : State) (p code : Nat) (q : PassRef) (errs : MemErrors) (fixed : Nat) : State :=
  match s.flying p code q.tile, s.runOf p with
  | some x, some (v, r, h) =>
    let e := q.eng.val
    let g := s.engine e
    match g.banks.find? fun b => !b.2.complete with
    | some (k, b) =>
      if b.pav ≠ p ∨ b.pass ≠ q ∨ g.stalled then s
      else if !g.shadowReady then s.modEngine e fun g => { g with stalled := true }
      else
        let s := s.meetTiles p (b.tiles.map (·.1)) errs
        match b.tiles.findSome? fun t => s.badTile p t.1 with
        | some w => s.failRunMemory p w
        | none => s.streamLoad e k b fixed
    | none =>
      let fresh := r.inflight.all fun y => y.tile != q.tile || !y.passes.contains (q.block, q.stitch)
      let tiles := s.stack v r x q
      if !fresh || !decide (q.block < x.blocks q.tile ∧ q.stitch < x.stitches)
          || !(s.activeCores (r.clustersFor v h x.o)).contains (e / 2) || !g.takes q.bank.val (x.tall q.tile)
          || !(tiles.all fun t => s.tileReach p (e / 2) t.1) then s
      else
        let s := s.meetTiles p (tiles.map (·.1)) errs
        match tiles.findSome? fun t => s.badTile p t.1 with
        | some w => s.failRunMemory p w
        | none =>
          -- the engine that takes stitch 0 closes the tile: the sums held come to its cluster
          let away := if q.stitch ≠ 0 then []
            else (s.sumsOf p q.block (tiles.map (·.1))).filter fun y => y.cluster != e / 12
          match s.putSums (e / 12) away with
          | none => s
          | some s => s.beginPass p q x tiles fixed
  | _, _ => s

def execMatmul (p : Fin 8) (x : PassLoad) (s : State) : Host.Outcome State Fault Refusal :=
  .next (s.matrixPass p.val 1 x.pass x.errs x.fixed)
def execMatmulWgrad (p : Fin 8) (x : PassLoad) (s : State) : Host.Outcome State Fault Refusal :=
  .next (s.matrixPass p.val 2 x.pass x.errs x.fixed)

/-- SHADOW_LOAD_DONE (R130): a row that stalls on the loading streams. -/
def execShadowLoadDone (eng : Fin 384) (s : State) : Host.Outcome State Fault Refusal :=
  let g := s.engine eng.val
  match g.banks.find? fun b => !b.2.complete with
  | none => .next s
  | some (k, b) =>
    if g.stalled then .next (s.streamLoad eng.val k b 0)
    else .next (s.modEngine eng.val fun g => { g with shadowReady := true })

/-! ### Drains and the stitch adder (R143, R146, R147, R188, R189, R197) -/

/-- ACC_LOC (R144) of an entry and an array column. -/
def accLoc (entry col : Nat) : Nat := col % 128 * 1024 + entry % 1024

/-- The rows of a tile as a pass's entries hold them. -/
def State.tileSums (s : State) (e : Nat) (b : Bank) (t : TileRef × Nat) : Tbl (List Nat) :=
  match s.bankInst b t.1 with
  | none => []
  | some x => (x.blockRows t.1 b.pass.block).map fun r => (r, tget (s.engine e).entries (t.2 + r) [])

def State.dropBank (s : State) (e bank : Nat) : State := s.modEngine e fun g => { g with banks := tdel g.banks bank }

/-- A raw drain: the sums of each tile go into the stitch buffer of the closing engine's cluster, once it has room. -/
def State.rawDrain (s : State) (e k : Nat) (b : Bank) : State :=
  let q := b.pass
  let sums := b.tiles.filterMap fun t =>
    let rows := s.tileSums e b t
    if rows.isEmpty then none
    else some ({ pav := b.pav, tile := t.1, block := q.block, stitch := q.stitch, rows := rows } : StitchSum)
  match s.putSums (s.closingCluster b.pav q.block q.tile (e / 12)) sums with
  | none => s
  | some t => t.dropBank e k

/-- The final drain of one stacked tile: its column block is written to OUT, and its stitch sums are released. -/
def State.drainTile (s : State) (e : Nat) (b : Bank) (t : TileRef × Nat) (rows : Tbl (List Nat)) : State :=
  match s.bankInst b t.1 with
  | none => s
  | some x =>
    let p := b.pav
    let place := placeCore (e / 2) (e % 2)
    let (s, ws) := s.writeTile p x.hd x.h x.o.out t.1 (x.drain t.1 b.pass.block rows)
    let held := s.sumsOf p b.pass.block [t.1]
    let s := { s with stitches := s.stitches.filter fun y => !held.contains y }
    (s.noteNan p t.1 place (fun r c => accLoc (t.2 + r) c) ws).blockDrained p (e / 2) place b.pass.block x t.1

/-- BANK_DRAIN (R143): a complete bank drains as a whole, raw (R147), or into OUT once every stitch sum has been added
(R146, R189). -/
def execBankDrain (eng : Fin 384) (bank : Fin 2) (s : State) : Host.Outcome State Fault Refusal :=
  let e := eng.val
  match tfind (s.engine e).banks bank.val with
  | none => .next s
  | some b =>
    if !b.complete then .next s
    else if b.pass.stitch ≠ 0 then .next (s.rawDrain e bank.val b)
    else if b.added + 1 < b.stitches then .next s
    else
      let rows := b.tiles.map fun t => (t, s.tileSums e b t)
      .next (forEach rows (fun s x => s.drainTile e b x.1 x.2) (s.dropBank e bank.val))

/-- The sums of the next stitch for the tiles of a bank that have rows; none where one has not arrived. -/
def State.nextSums (s : State) (e : Nat) (b : Bank) : Option (List (TileRef × Nat × StitchSum)) :=
  (b.tiles.filter fun t => !(s.tileSums e b t).isEmpty).mapM fun t =>
    ((s.sumsOf b.pav b.pass.block [t.1]).find? fun y => y.stitch == b.added + 1).map fun y => (t.1, t.2, y)

/-- STITCH_ADD (R188, R189): the next stitch sum is added once it has arrived. One that cannot be read is computed again from
its inputs with NOTE 0x0106; the second in a stitch buffer within 1 s fails the run (R197). -/
def execStitchAdd (eng : Fin 384) (bank : Fin 2) (s : State) : Host.Outcome State Fault Refusal :=
  let e := eng.val
  match tfind (s.engine e).banks bank.val with
  | none => .next s
  | some b =>
    if !b.complete || b.pass.stitch != 0 || decide (b.stitches ≤ b.added + 1) then .next s
    else match s.nextSums e b with
      | none => .next s
      | some sums =>
        match sums.findSome? fun y => (s.badRead y.2.2.addr y.2.2.bytes).map fun w => (y.2.2, w) with
        | none =>
          let rows := sums.flatMap fun y => (addRows (s.tileSums e b (y.1, y.2.1)) y.2.2.rows).map fun r => (y.2.1 + r.1, r.2)
          .next (s.modEngine e fun g => { g with
            entries := rows.foldl (fun m y => tset m y.1 y.2) g.entries
            banks := tset g.banks bank.val { b with added := b.added + 1 } })
        | some (y, w) =>
          let again := (s.cluster y.cluster).stitchBad.any fun t => decide (s.clock < t + 1000000000)
          let s := s.count (ctrId (s.placeOfAddr w) 5 1) 1
          if again then .next (s.endRun b.pav 0x0202 (s.placeOfAddr w * 65536 + 0xFFFF) (some (pack [(8, w)])))
          else
            let s := { s with stitches := s.stitches.filter (· != y) }.modCluster y.cluster fun c =>
              { c with stitchBad := some s.clock }
            .next (s.modRun b.pav fun r => { r with
              notes := addNew r.notes 0x0106
              inflight := r.inflight.map fun (z : TileProg) =>
                if z.tile = y.tile then { z with passes := z.passes.filter (· != (y.block, y.stitch)) } else z })

end Sys2Proof.Machine
end

