-- ==== Sys2Proof/Machine/Firmware.lean ====
section
/-! DEFINITION. Identity, attestation, the security mailbox and firmware status (R443 to R451). -/

namespace Sys2Proof.Machine

/-- The identity object of 5,325 bytes (R446). -/
def identityObject : List Byte :=
  fit 64 (pack [(4, 0x5444494D), (2, 1), (2, Config.certKeyId.toNat), (16, Config.serial.toNat), (16, identityDigest),
    (4, 5325)]) ++ leBytes 1952 Config.identityKey.toNat ++ leBytes 3309 Config.identityCert.toNat

/-- The pavilion entry of a report (R449); for another pavilion of a virtual function only STATE, ROLE and
CLUSTER_MASK are filled (R447). -/
def pavEntry (v : Option Pav) (full : Bool) : List Byte :=
  match v with
  | none => leBytes 32 0
  | some v =>
    let w := fun (b : Bool) x => if b then x else 0
    let paired := v.twin.state == 2 || v.twin.state == 3
    fit 32 (pack [(1, pavState (some v)), (1, v.role), (1, w full v.homePort), (1, w full (bitsMask (v.handles.map (·.1)))),
      (4, bitsMask v.clusters), (2, w full v.partition), (2, 0), (4, w full v.hbm.length), (4, w full v.lpddr.length),
      (4, w full (match v.reshape.active with | some l => l.job | none => 0)),
      (4, w full (match v.reshape.active with | some l => l.epoch | none => 0)),
      (2, w full (if paired then v.twin.id else 0xFFFF)), (1, w full (if paired then v.twin.pav else 0))])

/-- STATE of an image entry (R450): which cores run it and whether the standby verified it. -/
def State.imageState (s : State) : Nat := if s.boot.standbyReady then 2 else 3

/-- The image entries, boot ROM first, then in TYPE order (R447, R450). -/
def State.imageEntries (s : State) : List (List Byte) :=
  let rom := pack [(1, 0), (1, 0xFF), (1, 1), (1, 0), (4, Config.romRelease.toNat), (4, 0), (4, 0), (16, Config.romDigest.toNat)]
  match s.boot.bundle with
  | none => [rom]
  | some b => rom :: ((List.range 7).flatMap fun t => (b.images.filter fun i => i.type == t).map fun i =>
      pack [(1, i.type), (1, i.keyIndex), (1, s.imageState), (1, 0), (4, i.version), (4, i.bytes), (4, 0), (16, i.digest % 2 ^ 128)])

/-- The program entries in pavilion and then handle order (R450). -/
def State.programEntries (s : State) (only : Option Nat) : List (List Byte) :=
  (s.pavs.filter fun e => only.all (· == e.1)).flatMap fun e => e.2.handles.map fun h =>
    pack [(1, e.1), (1, h.1), (1, h.2.image.level), (1, h.2.mode), (8, h.2.image.programId), (4, 0), (16, h.2.image.digest)]

/-- The body of an attestation report (R447, R448). `own` is the pavilion of a virtual function. -/
def State.reportBody (s : State) (nonce : List Byte) (own : Option Nat) (programs : Bool) : List Byte :=
  let imgs := s.imageEntries
  let progs := if programs then s.programEntries own else []
  let b := s.boot.bundle
  let flags := b2n s.standbyAll + 2 * b2n (b.any (·.sectionApplied))
    + 4 * b2n (b.any fun b => b.coreSelftest || !b.sectionApplied) + 8 * b2n s.check.probation
  let hdr := fit 128 (pack [(4, 0x54505241), (2, 1), (1, imgs.length), (1, s.boot.leadHub + 2 * s.time.state), (8, s.now)]
    ++ fit 32 nonce ++ pack [(16, identityDigest), (16, match b with | some b => b.digest | none => 0),
      (4, s.flash.starts.count.toNat), (4, if s.boot.stage < 9 then 0 else (s.clock - s.boot.readyLocal) / 1000000000), (2, flags), (1, progs.length)])
  hdr ++ (List.range 8).flatMap (fun p => pavEntry (s.pav p) (own.all (· == p))) ++ imgs.flatten ++ progs.flatten

/-- Body and hedged signature; each signature is numbered, since two never need agree (R447). -/
def State.signedReport (s : State) (body : List Byte) : List Byte :=
  body ++ leBytes 3309 (Config.mldsaSign s.boot.signCount body).toNat

def State.bumpSign (s : State) : State := s.modBoot fun b => { b with signCount := b.signCount + 1 }

/-! ### The mailbox (R443, R444) -/

/-- End a mailbox request with a RESULT and a response. -/
def State.mboxAnswer (s : State) (q result : Nat) (bytes : List Byte) : State :=
  s.modMbox q fun m => { m with result := result, done := true, busy := false, respLen := bytes.length
                                inp := if result = 0 then bytes else m.inp }

/-- Serve a piece of a response object: RESULT 2 for a request that is too short, 3 for an OFFSET beyond it. -/
def State.mboxPiece (s : State) (q need : Nat) (object : List Byte) : State :=
  let m := s.mbox q
  let off := field m.curOut 0 4
  if m.curLen < need then s.mboxAnswer q 2 []
  else if object.length ≤ off then s.mboxAnswer q 3 []
  else s.mboxAnswer q 0 ((object.drop off).take 4096)

/-- Whether the security core serves a request of this kind (R443). -/
def State.mboxReady (s : State) (q req : Nat) : Bool :=
  s.boot.fwRunning && s.roleUp 0 && (s.mbox q).busy && (s.mbox q).curReq == req

def execMboxIdentity (port : Fin 2) (s : State) : Host.Outcome State Fault Refusal :=
  if s.mboxReady port.val 1 then .next (s.mboxPiece port.val 4 identityObject) else .next s

/-- ATTEST: one report for each NONCE, without program entries; a new NONCE discards the old report (R444, R455). While
the security role restarts it is not served (R417). -/
def execMboxAttest (port : Fin 2) (s : State) : Host.Outcome State Fault Refusal :=
  let q := port.val
  if !s.mboxReady q 2 || s.boot.attestBlocked then .next s
  else
    let m := s.mbox q
    if m.curLen < 36 ∨ s.boot.signingStopped then .next (s.mboxAnswer q 2 [])
    else
      let nonce := slice m.curOut 4 32
      let s1 := if m.nonce = some nonce then s
        else (s.modMbox q fun m => { m with nonce := some nonce, report := s.signedReport (s.reportBody nonce none false) }).bumpSign
      .next (s1.mboxPiece q 36 (s1.mbox q).report)

/-- START_LOG: START_COUNT, then ERROR and BOOT_STAGE of the previous start. -/
def execMboxStartLog (port : Fin 2) (s : State) : Host.Outcome State Fault Refusal :=
  let r := s.flash.starts
  if s.mboxReady port.val 3 then
    .next (s.mboxPiece port.val 4 (pack [(4, r.count.toNat), (2, r.error), (1, r.stage)]))
  else .next s

/-! ### ATTEST, IDENTITY_GET, FW_STATUS -/

def bodyAttest (s : State) (c : Cmd) : Chk State := do
  need (!s.boot.attestBlocked) (stState 5)
  let nonce := pack [(8, c.word 0), (8, c.word 1), (8, c.word 2), (8, c.word 3)]
  need (!s.boot.signingStopped) { code := 0x0207, detail := some (placeHub (s.roleHub 0) 0 0 * 65536 + 1) }
  let rep := s.signedReport (s.reportBody nonce c.own (c.expert && bitAt (c.word 5) 0))
  let s ← s.toBuffer c 4 (c.word 4) rep 64
  .ok (s.bumpSign.finish c (res [(4, rep.length), (4, 0), (16, identityDigest)]))

def execAttest (id : Nat) (s : State) : Host.Outcome State Fault Refusal := .next (s.startCmd id 0x0B01 bodyAttest)

def bodyIdentityGet (s : State) (c : Cmd) : Chk State := do
  need (!s.boot.attestBlocked) (stState 5)
  let s ← s.toBuffer c 0 (c.word 0) identityObject 64
  .ok (s.finish c (res [(16, identityDigest), (16, Config.serial.toNat)]))

def execIdentityGet (id : Nat) (s : State) : Host.Outcome State Fault Refusal :=
  .next (s.startCmd id 0x0B02 bodyIdentityGet)

/-- Mask of the cores that hold the active duty of a cluster, the checker that stands in included (R451, R16). -/
def State.activeMask (s : State) (c : Nat) : Nat := bitsMask ((List.range 6).filter fun j => s.runsActive (6 * c + j))

/-- The 8-byte record of a cluster (R451). -/
def State.clusterRecord (s : State) (c : Nat) : List Byte :=
  let k := s.cluster c
  let ch := 6 * c + k.checker
  let dead := (s.core ch).failed || (s.core ch).retired
  pack [(1, s.activeMask c), (1, k.storeOnly), (1, if dead then 0xFF else k.checker),
    (1, match k.standin with | some j => j | none => 0xFF), (1, b2n k.inService), (3, 0)]

def State.imageVersion (s : State) (t : Nat) : Nat :=
  match s.boot.bundle.bind (fun b => b.images.find? fun i => i.type == t) with
  | some i => i.version
  | none => 0

def bodyFwStatus (s : State) (c : Cmd) : Chk State :=
  if c.expert then do
    let recs := (List.range 32).flatMap fun k =>
      if c.fn = 0 ∨ s.ownerOfCluster k = some (c.fn - 1) then s.clusterRecord k else leBytes 8 0
    let s ← s.toBuffer c 0 (c.word 0) recs 1
    .ok (s.finish c [])
  else
    .ok (s.finish c (res [(1, s.boot.stage), (1, s.boot.leadHub), (1, s.roleHub 0), (1, s.roleHub 1), (1, s.roleHub 2),
      (1, bitsMask ((List.range 3).filter s.standbyUp)), (1, s.boot.ccRunning.length), (1, 0),
      (4, s.imageVersion 1), (4, s.imageVersion 2), (4, s.imageVersion 3), (4, s.imageVersion 4),
      (4, match s.boot.bundle with | some b => b.label | none => 0), (4, s.flash.starts.count.toNat),
      (8, s.boot.stage9At), (4, s.boot.restarts)]))

def execFwStatus (id : Nat) (s : State) : Host.Outcome State Fault Refusal := .next (s.startCmd id 0x0C01 bodyFwStatus)

end Sys2Proof.Machine
end

