-- ==== Sys2Proof/Machine/Roles.lean ====
section
/-! DEFINITION. Replays (R415), failing and restarting firmware cores (R417, R418, R452), and the reset of a host port
(R414, R467). -/

namespace Sys2Proof.Machine

/-! ### Replay of a core's or cluster's work -/

/-- A tile of the pavilion's run is in flight on one of the cores: a pass of it stands in a bank of theirs, or its
vector engine serves it. -/
def State.flightOn (s : State) (cores : List Nat) (p : Nat) : Bool :=
  match s.runOf p with
  | none => false
  | some (_, r, h) => r.inflight.any fun x =>
      if isMatrix (h.image.op x.tile.op).code then
        cores.any fun k => [2 * k, 2 * k + 1].any fun e => (s.engine e).banks.any fun b => b.2.pav == p && b.2.tiles.any (·.1 == x.tile)
      else cores.contains (s.homeCore p x.tile)

/-- Abandon the tiles in flight on cores: they run again from their inputs with the same results, and their commands
carry the note. The engines' registers and accumulators become +0. -/
def State.replayCores (s : State) (cores : List Nat) (note : Nat) : State :=
  let ps := (s.pavs.map (·.1)).filter fun p => s.flightOn cores p
  let s := forEach cores (fun s k => s.dropCoreWork k) s
  forEach ps (fun s p => s.modRun p fun r => { r with notes := addNew r.notes note }) s

/-! ### Firmware cores of the hubs -/

/-- A firmware core fails or is reset. A lead power-management core takes the caps in flight with it, a lead security
core attestation; a role without a second core is lost until the next start (R418). -/
def State.hubCoreFails (s : State) (i : Nat) (reset : Bool) : State :=
  if s.boot.coreDown.contains i then s
  else
    let r := i % 3
    let lead := s.roleHub r == i / 3
    let alone := s.boot.coreDown.contains (3 * (1 - i / 3) + r) || !s.boot.standbyReady
    let s := s.modBoot fun b => { b with
      coreDown := b.coreDown ++ [i]
      resetCores := if reset then addNew b.resetCores i else b.resetCores
      lostRoles := if alone then addNew b.lostRoles r else b.lostRoles
      attestBlocked := b.attestBlocked || (lead && r == 0) }
    if lead && r == 1 then
      let caps := s.power.pendingCaps
      (s.modPower fun x => { x with pendingCaps := [] }).forCmds (fun c => caps.any fun x => x.cmd == c.serial)
        fun s c => s.abort c 0x0306 (0xB000 + i) none
    else s

/-- The role moves to the other hub (R30). -/
def State.takeOver (s : State) (r : Nat) : State :=
  s.modBoot fun b => { b with roleHub := b.roleHub.set r (1 - s.roleHub r) }

/-- EV_FW_RESTART (R425): 1 crash, 2 reset. -/
def State.fwRestarted (s : State) (i hub cause : Nat) : State :=
  (s.modBoot fun b => { b with restarts := b.restarts + 1 }).postModule 0x0104 1 (placeFw i) (pack [(1, i), (1, hub), (1, cause)])

/-- The result of FUNCTION_RESET (R413): KIND, reset time and commands aborted. The time is open within the bound of
R414: a free value (log 7). -/
def State.resetResult (s : State) (kind maxUs aborted : Nat) : List Byte :=
  pack [(1, kind), (3, 0), (4, Config.freeNat s.freeCtr % (maxUs + 1)), (4, aborted)]

/-- The core of role r that is down and does not hold the role has restarted: it is the standby now. A CORE_RESTART or
FUNCTION_RESET that restarted it completes. -/
def State.coreRestarted (s : State) (r : Nat) : State :=
  let i := 3 * (1 - s.roleHub r) + r
  if !s.boot.coreDown.contains i || s.boot.lostRoles.contains r || s.hubLost (1 - s.roleHub r) then s
  else
    let cause := if s.boot.resetCores.contains i then 2 else 1
    let hub := s.roleHub r
    let s := s.modBoot fun b => { b with
      coreDown := b.coreDown.filter (· != i), resetCores := b.resetCores.filter (· != i)
      attestBlocked := b.attestBlocked && r != 0 }
    let s := s.fwRestarted i hub cause
    let mine := fun (c : Cmd) => c.phase == .started && c.target == 0xB000 + i
    let s := s.forCmds (fun c => mine c && c.opcode == 0x0C02) fun s c => s.finish c (pack [(1, hub)])
    let s := s.forCmds (fun c => mine c && c.opcode == 0x0110) fun s c =>
      s.bumpFree.finish c (s.resetResult 0xB 2000000 0)
    { s with rings := tmap (fun _ g => if g.frStatus = 0xFFFF ∧ g.frTarget = 0xB000 + i then { g with frStatus := 0 } else g) s.rings }

/-- A cluster control core fails or is reset, and restarts from its image (R417); 1 crash, 2 reset. -/
def State.ccRestart (s : State) (c cause : Nat) : State :=
  let s := (s.replayCores (coresOf c) 0x0001).modBoot fun b => { b with ccRunning := addNew b.ccRunning c }
  s.fwRestarted (16 + c) 0xFF cause

/-! ### Commands cut off at a takeover (R86) -/

/-- Opcodes that their chapters declare resumable, or that the hub hardware carries through: MOVE, OFFLOAD, RESTORE,
RESHAPE_BEGIN, ROUTE_LOAD, ROUTE_SWAP, LINK_JOIN, DIGEST_COMPARE, DISAGREE_RESOLVE, and PAVILION_CREATE, DESTROY, LEND and ADOPT. -/
def resumable (o : Nat) : Bool :=
  [0x0101, 0x0102, 0x0120, 0x0121, 0x0201, 0x0202, 0x0203, 0x0430, 0x0501, 0x0502, 0x0610, 0x0611, 0x0702].contains o

/-- Started firmware-path commands end or go on when the adopting scheduler takes the rings; a reset or restart of a
firmware core goes on. A RING_CLOSE that is cut off still ends its session, once the commands before it have their
final entries (R59). -/
def State.adoptRings (s : State) (i : Nat) : State :=
  s.forCmds (fun c => c.phase == .started && !c.hot && c.opcode != 0x0110 && c.opcode != 0x0C02) fun s c =>
    if resumable c.opcode then s.modCmd c.serial fun c => { c with notes := addNew c.notes 0x0002 }
    else if c.opcode = 0x0002 then
      (s.modRing c.key fun g => { g with closeEnd := some (0x0306, (0xB000 + i) * 65536 + 0xFFFF) }).closeCheck c.key
    else s.cutOff c 0x0306 (0xB000 + i) none

/-- EV_RING_ADOPTED for every allocated ring set, and a mirror write that shows the new hub. Where no session is open the
event goes into the log alone (R76). -/
def State.ringsAdopted (s : State) : State :=
  forEach ((s.rings.filter fun e => e.2.ready).map (·.1)) (fun s k =>
    (s.postRing k 0x0005 1 []).modRing k fun r => { r with dirty := r.dirty || r.isOpen || r.closeHold }) s

/-! ### The reset of a host port -/

/-- A function's reset: its ring set is freed, configuration space, MSI-X and power state return to reset, and the
registers that it owns read their Reset values (R7), the physical function's mailbox among them. -/
def State.resetFunction (s : State) (q n : Nat) : State :=
  let s := (s.resetRing (ringKey q n)).modPort q fun p => { p with
    msixOn := p.msixOn.filter (· != n), fnMasked := p.fnMasked.filter (· != n)
    vecOpen := p.vecOpen.filter (·.1 != n), vecPending := p.vecPending.filter (·.1 != n)
    msixTable := p.msixTable.filter (·.1 / 128 != n), d3 := p.d3.filter (· != n) }
  if n = 0 then s.modMbox q fun _ => {} else s

/-- The port's outstanding requests end with ST_FAIL_TIMEOUT (R470), a load of the port that is busy is abandoned, every
ring set of the port is freed, and configuration space returns to reset. -/
def State.portReset (s : State) (q : Nat) : State :=
  let s := if s.boot.loadPort = some q ∧ s.boot.stage ≤ 4 then s.endLoad 0x000E else s
  let reqs := (s.port q).requests
  let s := s.modPort q fun p => { p with requests := [] }
  let s := forEach reqs (fun s r => s.requestFailed q r.2.1 r.2.2.1 0x0201) s
  let s := forEach (List.range 9) (fun s n => s.resetFunction q n) s
  s.modPort q fun p => { p with vfEnable := false, numVfs := 0 }

end Sys2Proof.Machine
end

