-- ==== Sys2Proof/Machine/Pavilion.lean ====
section
/-! DEFINITION. Creating, destroying and reporting pavilions (R407 to R410), adopting one (R420) and lending between
two (R411, R318). -/

namespace Sys2Proof.Machine

/-! ### Granules and cluster stores (R220, R404) -/

def hbmAddr (g : Nat × Nat) : Nat := g.1 * 2 ^ 38 + g.2 * gib
def lpddrAddr (g : Nat × Nat) : Nat := 2 ^ 48 + g.1 * 2 ^ 40 + g.2 * gib
def dstoreAddr (g : Nat × Nat) : Nat := dieStoreAddr g.1 + g.2 * mib
def clusterStoreAddr (c : Nat) : Nat := 2 * 2 ^ 48 + c * 2 ^ 28

/-- Free granules of a die's HBM3E, a hub window and a die store: those above the firmware region, those of a working
unit, and the 40 MiB below the ledger slice. -/
def State.freeHbm (s : State) (d : Nat) : List Nat :=
  if s.dieLost d then [] else ((List.range 142).map (· + 2)).filter fun g => !(s.pavs.any fun e => e.2.hbm.contains (d, g))
def State.freeLpddr (s : State) (h : Nat) : List Nat :=
  if s.hubLost h then [] else (List.range 768).filter fun g => !(s.pavs.any fun e => e.2.lpddr.contains (h, g))
def State.freeDstore (s : State) (d : Nat) : List Nat :=
  if s.dieLost d then [] else (List.range 40).filter fun g => !(s.pavs.any fun e => e.2.dstore.contains (d, g))

/-- Spread n over units evenly, the remainder to the lowest-numbered first (R407). -/
def spreadEvenly (n : Nat) (us : List Nat) : List (Nat × Nat) :=
  let k := us.length
  ((List.range k).zip us).map fun x => (x.2, n / k + if x.1 < n % k then 1 else 0)

/-- The lowest free granules of each unit, when every unit has as many as are wanted. -/
def takeGranules (want : List (Nat × Nat)) (free : Nat → List Nat) : Option (List (Nat × Nat)) :=
  if want.all fun x => decide (x.2 ≤ (free x.1).length) then
    some (want.flatMap fun x => ((free x.1).take x.2).map fun g => (x.1, g))
  else none

/-- Zero granules, and the stores, banks and weight registers of clusters. -/
def State.zeroGranules (s : State) (hbm lpddr dstore : List (Nat × Nat)) : State :=
  let s := forEach (hbm.map hbmAddr ++ lpddr.map lpddrAddr) (fun s a => s.zeroMem a gib) s
  forEach dstore (fun s g => s.zeroMem (dstoreAddr g) mib) s
def State.zeroClusters (s : State) (cs : List Nat) : State :=
  forEach cs (fun s c =>
    let s := s.zeroMem (clusterStoreAddr c) (224 * mib)
    let s := { s with stitches := s.stitches.filter fun x => x.cluster != c }
    forEach (coresOf c) (fun s p => (s.dropCoreWork p).zeroMem (windowOf p) (4 * mib)) s) s

/-! ### PAVILION_CREATE (R407, R408) -/

/-- The result of R407. -/
def Pav.grant (v : Pav) : List Byte :=
  pack [(4, bitsMask v.clusters), (4, v.hbm.length), (4, v.lpddr.length), (4, v.dstore.length), (1, v.homePort)]

/-- Clear the trap log and its counters (R176). -/
def State.clearTraps (s : State) (p : Nat) : State :=
  (s.modPav p fun v => { v with traps := { seq := v.traps.seq } }).resetCounters fun id => id == ctrId p 8 0 || id == ctrId p 8 1

/-- Re-arm a STOPPED pavilion. -/
def State.rearm (s : State) (c : Cmd) (v : Pav) : State :=
  ((s.modPav c.pavilion fun v => { v with stopped := false }).clearTraps c.pavilion).finish c v.grant

def bodyPavilionCreate (s : State) (c : Cmd) : Chk State := do
  let p := c.pavilion
  let w := c.word
  let free := c.params.isEmpty
  match s.pav p with
  | some v => if free && v.stopped then .ok (s.rearm c v) else .error (stState 2)
  | none =>
    need (!free && decide (p < 8)) { code := 0x0106, off := 0 }
    let short := fun (ok : Bool) (i reason : Nat) => need ok (c.bad 0x01E8 i reason)
    let role := bits (w 0) 19 18
    let cs := maskBits 32 (bits (w 0) 63 32)
    let part := bits (w 0) 31 20
    need (role != 3) (c.badParam 0)
    short (cs.all fun k => (s.cluster k).inService && (s.ownerOfCluster k).isNone) 0 1
    short (role == 0 || !cs.isEmpty) 0 8
    let dies := (cs.map (· / 4)).eraseDups
    let all := bits (w 0) 15 0
    let want := if c.expert then ((List.range 8).map fun d => (d, bits (w 2) (8 * d + 7) (8 * d))).filter fun x => x.2 != 0
      else spreadEvenly all dies
    let lp := bits (w 1) 63 32
    let west := if c.expert then bits (w 3) 63 32 else cdiv lp 2
    let ds := bits (w 1) 31 16
    let hw := if c.expert then 2 else 0
    short ((want.all fun x => dies.contains x.1) && (c.expert || all == 0 || !dies.isEmpty)) hw 3
    match takeGranules want s.freeHbm, takeGranules [(0, west), (1, lp - west)] s.freeLpddr,
        takeGranules (spreadEvenly ds dies) s.freeDstore with
    | none, _, _ => .error (c.bad 0x01E8 hw 3)
    | some hbm, some lpd, some dst => do
      short (decide (west ≤ lp)) 1 4
      short (ds == 0 || !dies.isEmpty) 1 5
      short (decide (1 ≤ part ∧ part ≤ 4094) && s.pavs.all fun e => e.2.partition != part) 0 6
      let home := if c.expert then b2n (bitAt (w 3) 8) else c.port
      let v : Pav := { role := role, homePort := home, partition := part, clusters := cs, hbm := hbm, lpddr := lpd, dstore := dst
                       parking := (s.port home).lost }
      let s := ((s.zeroGranules hbm lpd dst).zeroClusters cs)
      let s := { s with pavs := tset s.pavs p v, pavLogs := tdel s.pavLogs p }
      let s := s.resetCounters fun id => id == ctrId p 8 0 || id == ctrId p 8 1
      -- a pavilion whose home host is lost is parked at once (R420)
      .ok ((s.parkIfDue p).finish c v.grant)
    | some _, none, _ => .error (c.bad 0x01E8 1 4)
    | some _, some _, none => .error (c.bad 0x01E8 1 5)

def execPavilionCreate (id : Nat) (s : State) : Host.Outcome State Fault Refusal :=
  .next (s.startCmd id 0x0101 bodyPavilionCreate)

/-! ### PAVILION_STATUS (R410) -/

/-- Free bytes of granules, less their retired pages and the lines of lost stacks, in whole GiB. -/
def State.freeGib (s : State) (win : Nat) : Nat :=
  let gs := if win = 0 then (List.range 8).flatMap fun d => (s.freeHbm d).map fun g => (d, g)
    else (List.range 2).flatMap fun h => (s.freeLpddr h).map fun g => (h, g)
  let gone := (s.mem.retired.filter fun a => addrWin a == win && gs.contains ((addrUnit a).1, (addrUnit a).2.1 / gib)).length
  let lost := if win = 0 then sumNat (gs.map fun g => (s.route.lostStacks.filter fun h => h / 4 == g.1).length) else 0
  (gib * gs.length - 4096 * gone - 256 * mib * lost) / gib

def bodyPavilionStatus (s : State) (c : Cmd) : Chk State :=
  match s.pav c.pavilion with
  | none => .error { code := 0x0106, off := 0 }
  | some v => .ok (s.finish c (pack [(1, pavState (some v)), (1, v.role), (1, v.homePort), (1, bitsMask (v.handles.map (·.1))),
      (4, bitsMask v.clusters), (2, v.partition), (2, 0), (4, v.hbm.length), (4, v.lpddr.length), (4, s.freeGib 0),
      (4, s.freeGib 1), (4, v.dstore.length)]))

def execPavilionStatus (id : Nat) (s : State) : Host.Outcome State Fault Refusal :=
  .next (s.startCmd id 0x0103 bodyPavilionStatus)

/-! ### PAVILION_ADOPT (R420) -/

def bodyPavilionAdopt (s : State) (c : Cmd) : Chk State := do
  let p := c.pavilion
  match s.pav p with
  | none => .error { code := 0x0106, off := 0 }
  | some v =>
    if !(c.expert && bitAt (c.word 0) 0) then
      need (s.port v.homePort).lost (stState 6)
      need v.parked { stState 3 with defer := true }
    let s := s.modPav p fun v => { v with homePort := c.port, parked := false, parking := false }
    let s := if (s.port c.port).lost then (s.modPav p fun v => { v with parking := true }).parkIfDue p else s
    .ok (s.finish c (pack [(1, v.homePort), (1, c.port), (6, 0), (8, if v.parked then v.parkedAt else 0)]))

def execPavilionAdopt (id : Nat) (s : State) : Host.Outcome State Fault Refusal :=
  .next (s.startCmd id 0x0121 bodyPavilionAdopt)

end Sys2Proof.Machine
end

