-- ==== Sys2Proof/Machine/Window.lean ====
section
/-! DEFINITION. The host's view of a function: the emulated register window (R90), the values of configuration space
(R458), BAR2 (R54, R55, R461), interrupts (R465), virtual functions (R459) and power states (R468). -/

namespace Sys2Proof.Machine

/-! ### Reading the window (R90, R6) -/

/-- RINGSET_CFG and RINGSET_STATUS as they read. -/
def RingSet.cfgWord (r : RingSet) : Nat := b2n r.enable * 2 ^ 63 + r.cfgSizes
def RingSet.statusWord (r : RingSet) : Nat := r.error * 65536 + b2n r.isOpen * 4 + b2n r.ready * 2 + b2n r.busy

/-- Pavilions in the scope of an emergency stop through a function (R91). -/
def stopScope (fn : Nat) : List Nat := if fn = 0 then List.range 8 else [fn - 1]
/-- ESTOP_STATUS: ACTIVE while a stop is in effect for the scope, DONE once no affected program runs. -/
def State.estopWord (s : State) (fn : Nat) : Nat :=
  let l := (stopScope fn).filterMap s.pav
  b2n (l.any (·.stopped)) + 2 * b2n (l.any (·.stopped) && l.all fun v => !v.stopped || v.run.isNone)

/-- MODULE_STATE. -/
def State.moduleStateWord (s : State) (k : Nat) : Nat :=
  s.boot.stage * 2 ^ 48 + s.boot.leadHub * 2 ^ 47 + b2n s.boot.fwRunning * 2 ^ 46
    + (s.estopWord (k % 9) % 2) * 2 ^ 45 + b2n s.standbyAll * 2 ^ 44 + (s.ring k).epoch.toNat

def Mbox.ctrlWord (m : Mbox) : Nat :=
  m.respLen * 2 ^ 48 + m.reqLen.toNat * 2 ^ 32 + m.result * 2 ^ 24 + m.request.toNat * 2 ^ 16 + b2n m.done * 2

/-- The 64-bit register at an offset of BAR0, as it reads. The boot ROM serves the first group alone; while the
security role is down nothing but the counting registers is served (R417, R418). -/
def State.readReg (s : State) (r : FnRef) (off : Nat) : Nat :=
  let q := r.port.val
  let k := fnKey r
  let pf := r.fn.val == 0
  let b := s.bootPort q
  let rom := match off with
    | 0x0000 => some (0x7200 * 2 ^ 48 + 0xA1 * 2 ^ 40 + 0x01 * 2 ^ 32)
    | 0x0008 => some (s.moduleStateWord k)
    | 0x0018 => some (if pf then b.bytesDone * 2 ^ 32 + b.error * 65536 + b2n b.failed * 2 + b2n b.busy else 0)
    | 0x0020 => some (if pf then b.bundleAddr.toNat else 0)
    | 0x0028 => some (if pf then b.bundleBytes.toNat else 0)
    | 0x0078 => some s.beat.toNat
    | _ => none
  if s.boot.fwRunning && !s.roleUp 0 then (if off = 0x0078 then s.beat.toNat else 0)
  else match rom with
  | some x => x
  | none =>
    if !s.boot.fwRunning then 0
    else match off with
    | 0x0040 => (s.ring k).cfgWord
    | 0x0048 => (s.ring k).statusWord
    | 0x0050 => (s.ring k).staging
    | 0x0068 => (s.ring k).frTarget * 65536 + (s.ring k).frStatus
    | 0x0088 => s.estopWord r.fn.val
    | 0x3000 => if pf then (s.mbox q).ctrlWord else 0
    | _ =>
      if !pf then 0
      else if 0x1000 ≤ off ∧ off < 0x2000 then field (s.mbox q).out (off - 0x1000) 8
      else if 0x2000 ≤ off ∧ off < 0x3000 then field (s.mbox q).inp (off - 0x2000) 8
      else 0

/-- Values of configuration space (R458, R456, R459): Vendor ID, Device ID, Revision ID, Class Code, Subsystem
Vendor ID, Subsystem ID, Interrupt Pin, TotalVFs, InitialVFs, First VF Offset, VF Stride. -/
def configIds (vf : Bool) : List Nat :=
  if vf then [0xFFFF, 0x7201, 0xA1, 0x120000, 0x1FA7, 0x7200, 0, 0, 0, 0, 0]
  else [0x1FA7, 0x7200, 0xA1, 0x120000, 0x1FA7, 0x7200, 0, 8, 8, 1, 1]
/-- Device Serial Number: bits [63:0] of the identity digest, zero without an identity. -/
def State.serialNumber (s : State) : Nat := if s.boot.hasIdentity then identityDigest % 2 ^ 64 else 0

/-! ### Interrupts (R465) -/

/-- Clear a vector's mask bit. -/
def PortSt.openVec (p : PortSt) (fn v : Nat) : PortSt :=
  { p with vecOpen := if p.vecOpen.contains (fn, v) then p.vecOpen else p.vecOpen ++ [(fn, v)] }

/-- Send the pending message of a vector that is no longer masked. -/
def State.unmaskSend (s : State) (q fn v : Nat) : State :=
  let p := s.port q
  if p.vecPending.contains (fn, v) && p.msixOn.contains fn && !p.fnMasked.contains fn && p.vecOpen.contains (fn, v)
      && s.canSend q fn then
    (s.modPort q fun p => { p with vecPending := p.vecPending.filter (· != (fn, v)) }).emit (p.message q fn v)
  else s

/-- MSIX_UNMASK: the vector's mask bit is cleared, and a message goes out when its pending bit is set. -/
def execMsixUnmask (r : FnRef) (vec : Fin 64) (s : State) : Host.Outcome State Fault Refusal :=
  let s := s.modPort r.port.val fun p => p.openVec r.fn.val vec.val
  .next (s.unmaskSend r.port.val r.fn.val vec.val)

/-! ### Writes to registers (R6, R90, R461) -/

/-- A register after a write that covers all of it or one half. -/
def mergeHalf (old : Nat) (v : Nat) (h : Half) : Nat :=
  match h with
  | .full => v
  | .low => old / 2 ^ 32 * 2 ^ 32 + v % 2 ^ 32
  | .high => v % 2 ^ 32 * 2 ^ 32 + old % 2 ^ 32

/-- MBOX_CTRL: REQ_LENGTH and REQUEST are RW, DONE is W1C, GO starts a request while security firmware runs: the
request and its bytes are taken as they stand then, so that later writes do not disturb it. A GO during a request gets
RESULT 4, an unknown request RESULT 1 (R443). -/
def State.writeMboxCtrl (s : State) (q v : Nat) (h : Half) : State :=
  let m := s.mbox q
  let low := h != .high
  let v := match h with | .high => v % 2 ^ 32 * 2 ^ 32 | _ => v
  let m' := { m with
    reqLen := if h = .low then m.reqLen else BitVec.ofNat 16 (bits v 47 32)
    request := if low then BitVec.ofNat 8 (bits v 23 16) else m.request
    done := m.done && !(low && bitAt v 1) }
  let go := low && bitAt v 0 && s.boot.fwRunning
  if !go then s.modMbox q fun _ => m'
  else if m.busy then s.modMbox q fun _ => { m' with result := 4 }
  else if [1, 2, 3].contains m'.request.toNat then s.modMbox q fun _ => { m' with
    busy := true, curReq := m'.request.toNat, curLen := m'.reqLen.toNat, curOut := slice m'.out 0 36 }
  else s.modMbox q fun _ => { m' with result := 1, done := true, respLen := 0 }

/-- Change one word of the MSI-X table. -/
def PortSt.setEntry (p : PortSt) (key : Nat) (f : Nat → Nat) : PortSt :=
  { p with msixTable := tset p.msixTable key (f (tget p.msixTable key 0)) }

/-- REGISTER_WRITE. Offsets below 0x10000 name BAR0; 0x10000 + x names offset x of BAR4; 0x20000 names Message
Control of MSI-X (bit 15 enable, bit 14 function mask): operand, log 5. Registers with a command of their own, RO
registers and reserved offsets ignore the write. -/
def execRegisterWrite (r : FnRef) (offset : Nat) (value : W64) (half : Half) (s : State) : Host.Outcome State Fault Refusal :=
  let q := r.port.val
  let fn := r.fn.val
  let v := value.toNat
  let served := s.boot.fwRunning && s.roleUp 0
  if !s.serves r then .next (s.unserved r)
  else if 0x20008 ≤ offset then .next (s.discardWrite r)
  else if offset = 0x20000 then
    let on := bitAt v 15
    let mask := bitAt v 14
    let s := s.modPort q fun p => { p with
      msixOn := if on then addNew p.msixOn fn else p.msixOn.filter (· != fn)
      fnMasked := if mask then addNew p.fnMasked fn else p.fnMasked.filter (· != fn) }
    .next (forEach (List.range 64) (fun s i => s.unmaskSend q fn i) s)
  else if 0x10000 ≤ offset then
    let o := offset - 0x10000
    if 0x8000 ≤ o ∧ o < 0x8400 ∧ o % 16 = 0 then
      .next (s.modPort q fun p => p.setEntry (vecKey fn ((o - 0x8000) / 16)) fun a => mergeHalf a v half)
    else if 0x8000 ≤ o ∧ o < 0x8400 ∧ o % 16 = 8 then
      -- message data in the lower half of an entry's second word, vector control in the upper
      let vec := (o - 0x8000) / 16
      let s := if half = .high then s else s.modPort q fun p => p.setEntry (vecKey fn vec + 1) fun _ => v % 2 ^ 32
      if half = .low then .next s
      else if bitAt (if half = .full then v / 2 ^ 32 else v) 0 then
        .next (s.modPort q fun p => { p with vecOpen := p.vecOpen.filter (· != (fn, vec)) })
      else .next ((s.modPort q fun p => p.openVec fn vec).unmaskSend q fn vec)
    else .next s
  else if offset % 8 ≠ 0 then .next (s.discardWrite r)
  else if fn ≠ 0 then .next s
  else match offset with
    | 0x0020 => .next (s.modBootPort q fun b => { b with bundleAddr := BitVec.ofNat 64 (mergeHalf b.bundleAddr.toNat v half) })
    | 0x0028 => .next (s.modBootPort q fun b => { b with bundleBytes := BitVec.ofNat 32 (mergeHalf b.bundleBytes.toNat v half) })
    | 0x3000 => if served then .next (s.writeMboxCtrl q v half) else .next s
    | _ =>
      if 0x1000 ≤ offset ∧ offset < 0x2000 ∧ served then
        let o := offset - 0x1000
        .next (s.modMbox q fun m =>
          let w := leBytes 8 (mergeHalf (field m.out o 8) v half)
          { m with out := slice m.out 0 o ++ w ++ slice m.out (o + 8) (4096 - (o + 8)) })
      else .next s

/-- HOST_HEARTBEAT: a write counts on the physical function alone (R87). -/
def execHostHeartbeat (r : FnRef) (s : State) : Host.Outcome State Fault Refusal :=
  if !s.serves r then .next (s.unserved r)
  else if r.fn.val = 0 then .next (s.heartbeat r.port.val) else .next s

/-! ### BAR2 (R54, R55, R225, R461, R463) -/

/-- The device address behind an offset of BAR2 (R54). -/
def RingSet.bar2Addr (r : RingSet) (off : Nat) : Nat :=
  if off < stagingOffset then r.base + off else r.staging + (off - stagingOffset)
/-- Where a host write takes effect: the slots of the submission ring, and the staging area. -/
def RingSet.writable (r : RingSet) (off : Nat) : Bool := decide (off < 256 * 2 ^ r.sqLog2 ∨ stagingOffset ≤ off)
/-- Where a read returns stored bytes: the three rings and the staging area. -/
def RingSet.readable (r : RingSet) (off : Nat) : Bool :=
  r.writable off || decide ((cqOffset ≤ off ∧ off < cqOffset + 64 * 2 ^ r.cqLog2)
    ∨ (eqOffset ≤ off ∧ off < eqOffset + 64 * 2 ^ r.eqLog2))

/-- BAR2_WRITE. A poisoned write is discarded whole (R463); of a write that R55 does not permit in full the permitted
bytes take effect and the rest counts as discarded (R461). -/
def execBar2Write (r : FnRef) (offset : Nat) (bytes : List Byte) (poisoned : Bool) (s : State) :
    Host.Outcome State Fault Refusal :=
  let q := r.port.val
  let fn := r.fn.val
  let g := s.ring (fnKey r)
  if !s.serves r then .next (s.unserved r)
  else if 256 * mib < offset + bytes.length then .next (s.discardWrite r)
  else if poisoned then .next (s.emit (.poisonedReceived q fn))
  else if !g.ready then .next s
  else
    let s := if (List.range bytes.length).all fun i => g.writable (offset + i) then s else s.discardWrite r
    let kept := (bytes.zip (List.range bytes.length)).filter fun e => g.writable (offset + e.2)
    if kept.isEmpty then .next s
    else match s.partialBad (g.bar2Addr offset) bytes.length with
      | some w => .next (s.memError w 1)
      | none => .next (forEach kept (fun s e => s.writeMem (g.bar2Addr (offset + e.2)) [e.1]) s)

/-- BAR2_READ. A read that meets an uncorrectable error or a retired page completes with Completer Abort. -/
def execBar2Read (r : FnRef) (offset : Nat) (x : BarRead) (s : State) : Host.Outcome State Fault Refusal :=
  let len := x.len
  let q := r.port.val
  let fn := r.fn.val
  let g := s.ring (fnKey r)
  if !s.serves r then .next (s.unserved r)
  else if 256 * mib < offset + len ∨ len = 0 ∨ 4096 < len then .next (s.emit (.unsupported q fn))
  else if !g.ready then .next (s.emit (.readData q fn (List.replicate len 0)))
  else
    let s := s.meetIn x.errs (g.bar2Addr offset) len
    match s.badRead (g.bar2Addr offset) len with
    | some w => .next ((s.memError w 1).emit (.completerAbort q fn))
    | none =>
      .next (s.emit (.readData q fn ((List.range len).map fun i =>
        if g.readable (offset + i) then cellGet s.mem.cells (g.bar2Addr (offset + i)) else 0)))

/-! ### Virtual functions and power states (R459, R468) -/

/-- VF_ENABLE: NumVFs is limited to 8, and to 7 without ARI Forwarding. -/
def execVfEnable (port : Fin 2) (numVfs : Nat) (s : State) : Host.Outcome State Fault Refusal :=
  .next (s.modPort port.val fun p => { p with vfEnable := true, numVfs := min numVfs (if p.ari then 8 else 7) })

/-- Remove the virtual functions above a number: their ring sets are freed, their pavilions are not reset. -/
def State.removeVfs (s : State) (q keep : Nat) : State :=
  let s := forEach ((List.range 9).filter fun n => decide (keep < n)) (fun s n => s.disableRing (ringKey q n)) s
  s.modPort q fun p => { p with
    numVfs := min p.numVfs keep, vfEnable := p.vfEnable && keep != 0
    msixOn := p.msixOn.filter (· ≤ keep), fnMasked := p.fnMasked.filter (· ≤ keep)
    vecOpen := p.vecOpen.filter (·.1 ≤ keep), vecPending := p.vecPending.filter (·.1 ≤ keep)
    msixTable := p.msixTable.filter (·.1 / 128 ≤ keep)
    d3 := p.d3.filter (· ≤ keep) }

def execVfDisable (port : Fin 2) (numVfs : Nat) (s : State) : Host.Outcome State Fault Refusal :=
  .next (s.removeVfs port.val (min numVfs (s.port port.val).numVfs))

def execD3hotEntry (r : FnRef) (s : State) : Host.Outcome State Fault Refusal :=
  .next (s.modPort r.port.val fun p => { p with d3 := addNew p.d3 r.fn.val })

/-- D0_RETURN: the ring set and session are kept, and a mirror write follows within 1 µs (No_Soft_Reset). -/
def execD0Return (r : FnRef) (s : State) : Host.Outcome State Fault Refusal :=
  let s := s.modPort r.port.val fun p => { p with d3 := p.d3.filter (· != r.fn.val) }
  .next (if (s.ring (fnKey r)).isOpen then s.modRing (fnKey r) fun g => { g with dirty := true } else s)

end Sys2Proof.Machine
end

