-- ==== Sys2Proof/Machine/Reset.lean ====
section
/-! DEFINITION. FUNCTION_RESET (R413 to R415), the FRESET and ESTOP registers (R90, R91) and the resets of a PCIe
function or port (R467). -/

namespace Sys2Proof.Machine

/-! ### Resets of a pavilion and of a unit (R414) -/

/-- Cut off the commands that a condition names, and say how many there were. -/
def State.cutCount (s : State) (f : Cmd → Bool) (target : Nat) (cause : Option Cmd) : State × Nat :=
  (s.forCmds f fun s c => s.cutOff c 0x0301 target cause, (s.cmds.filter f).length)

/-- The run of a pavilion ends with ST_ABORT_RESET; 1 when there was one. -/
def State.cutRun (s : State) (p target : Nat) (cause : Option Cmd) : State × Nat :=
  if (s.runOf p).isSome then (s.abortRun p 0x0301 target cause, 1) else (s, 0)

/-- The reset of a pavilion. Memory, ledger, layout, twin pair, ring sets and the PARKED and FENCED conditions survive;
a sealed step rolls forward, a reshape is aborted where that is permitted. Answers how many commands were cut off. -/
def State.resetPav (s : State) (p target : Nat) (cause : Option Cmd) : State × Nat :=
  match s.pav p with
  | none => (s, 0)
  | some v =>
    let mine := fun (c : Cmd) => c.pavilion == p && c.opcode / 256 != 0 && cause.all fun x => x.serial != c.serial
    let (s, a) := s.cutCount (fun c => mine c && c.phase != .started) target cause
    let (s, b) := s.cutRun p target cause
    let open_ := if v.sealing.isNone then [0x0410, 0x0430, 0x0431, 0x0802] else [0x0430, 0x0431, 0x0802]
    let (s, d) := s.cutCount (fun c => mine c && open_.contains c.opcode) target cause
    let s := if v.sealing.isNone then s.unseal p else s
    let s := if v.abortReason.isNone then (s.reshapeAbort p 0x0301 cause).1 else s
    let s := forEach (v.handles.map (·.1)) (fun s h => s.freeHandle p h) s
    let s := (s.modPav p fun v => { v with data := [], stopped := false }).clearTraps p
    let s := if v.sealing.isSome then (s.rollForward p).1 else s
    (s.parkIfDue p, a + b + d)

/-- The runs of every pavilion that a condition names end. -/
def State.cutRuns (s : State) (f : Pav → Bool) (target : Nat) (cause : Option Cmd) : State × Nat :=
  ((s.pavs.filter fun e => f e.2).map (·.1)).foldl (fun (a : State × Nat) p =>
    let (s, n) := a.1.cutRun p target cause
    (s, a.2 + n)) (s, 0)

/-- A range of device memory has lines behind controller i of m that interleave a unit of a window (R218). -/
def onController (win m i a n : Nat) : Bool :=
  let (u, o, _) := addrUnit a
  addrWin a == win && u == i / m
    && (List.range (min m ((o + n - 1) / 4096 + 1 - o / 4096))).any fun k => (o / 4096 + k) % m == i % m

/-- A descriptor has a device side behind the controller. -/
def Desc.uses (d : Desc) (win m i : Nat) : Bool :=
  (!d.hostDst && onController win m i d.dst d.dstRange.2) || (d.srcRange.any fun x => !d.hostSrc && onController win m i x.1 x.2)

/-- FUNCTION_RESET of a memory controller (R245): the commands that use it end, and the runs of the pavilions with
granules behind it. -/
def State.resetController (s : State) (win m i target : Nat) (cause : Option Cmd) : State × Nat :=
  let users := (s.moves.filter fun j => j.descs.any fun d => d.uses win m i).map (·.cmd)
  let (s, a) := s.cutCount (fun c => users.contains c.serial) target cause
  let (s, b) := s.cutRuns (fun v => (if win = 0 then v.hbm else v.lpddr).any fun g => g.1 == i / m) target cause
  (s, a + b)

/-- FUNCTION_RESET of the updater of a die (R287): before the seal the step ends, after it commits stop until
roll-forward. Comparisons of its shards start again (R386). -/
def State.resetUpdater (s : State) (d target : Nat) (cause : Option Cmd) : State × Nat :=
  let here := fun (s : State) (p : Nat) => (s.shardsOf p).any fun n => n / 131072 == d
  ((s.pavs.map (·.1)).filter (here s)).foldl (fun (a : State × Nat) p =>
    let s := a.1
    if (s.pav p).any (·.sealing.isSome) then
      (s.modPav p fun v => { v with sealing := v.sealing.map fun (x : Sealing) => { x with halted := true } }, a.2)
    else
      let (s, n) := s.cutRun p target cause
      let (s, k) := s.cutCount (fun c => c.pavilion == p && c.opcode == 0x0410 && c.phase == .started) target cause
      ((if n + k = 0 then s else s.unseal p).restartDisagree p d, a.2 + n + k)) (s, 0)

/-- FUNCTION_RESET of a link (R350): its queue is emptied and it trains again; the bridle is unchanged. -/
def State.resetLink (s : State) (l : Nat) : State :=
  let s := s.resetCounters fun id => ctrBlock id == 7 && ctrUnit id == placeLink l
  if (s.axis (l % 3)).isOpen then
    s.modLink l fun k => { k with queue := [], replay := [], state := 0, inUse := 0, pendingMask := none }
  else s.modLink l fun k => { k with queue := [], replay := [] }

/-- FUNCTION_RESET of the collective engine (R362): every operation in progress ends with cause 6. -/
def State.resetCollective (s : State) (target : Nat) (cause : Option Cmd) : State × Nat :=
  let (s, n) := s.cutRuns (fun v => v.colls.any fun c => !c.done) target cause
  let s := { s with pavs := tmap (fun _ (v : Pav) => { v with held := [] }) s.pavs }
  (s.resetCounters fun id => ctrBlock id == 6, n)

/-- FUNCTION_RESET of an engine: registers and accumulator +0, its passes replayed. -/
def State.resetEngine (s : State) (e : Nat) : State :=
  if e < 384 then
    let ps := s.enginePavs e
    let s := ((s.dropBanks e fun _ => true).modEngine e fun _ => {}).resetCounters fun id =>
      ctrBlock id == 1 && ctrUnit id == placeCore (e / 2) (e % 2)
    forEach ps (fun s p => s.modRun p fun r => { r with notes := addNew r.notes 0x0170 }) s
  else
    let k := e - 384
    let ps := (s.pavs.map (·.1)).filter fun p => match s.runOf p with
      | none => false
      | some (_, r, h) => r.inflight.any fun x => !isMatrix (h.image.op x.tile.op).code && s.homeCore p x.tile == k
    let s := s.resetCounters fun id => ctrBlock id == 2 && ctrUnit id == placeCore k 2
    forEach ps (fun s p => s.modRun p fun r => { r with notes := addNew r.notes 0x0170 }) s

/-- SCRUB: the step of the pavilion that holds the cluster ends unsealed, and the stores of the unit are zeroed. -/
def State.scrub (s : State) (cs cores : List Nat) (target : Nat) (cause : Option Cmd) : State × Nat :=
  let owner := (cs ++ cores.map (· / 6)).head?.bind s.ownerOfCluster
  let (s, n) := match owner with
    | some p => s.cutRun p target cause
    | none => (s, 0)
  let s := s.zeroClusters cs
  (forEach cores (fun s k => s.zeroMem (windowOf k) (4 * mib)) s, n)

/-- Reset the unit that a TARGET names, but for pavilions and firmware cores: the state, the commands cut off, and the
longest time of R414 in µs. -/
def State.resetUnit (s : State) (t : Nat) (scrub : Bool) (cause : Option Cmd) : State × Nat × Nat :=
  let i := t % 4096
  match t / 4096 with
  | 2 =>
    let (s, n) := if scrub then s.scrub [i] [] t cause else (s, 0)
    let s := (s.replayCores (coresOf i) 0x0170).resetCounters (ctrOfCluster i)
    let s := s.moversGone (fun m => m / 6 == i) t cause
    (s.modBoot fun b => { b with ccRunning := addNew b.ccRunning i }, n, 20000)
  | 3 =>
    let (s, n) := if scrub then s.scrub [] [i] t cause else (s, 0)
    ((s.replayCores [i] 0x0170).resetCounters (ctrOfCore i), n, 1000)
  | 4 => (s.resetEngine i, 0, 100)
  | 5 => (s.resetLink i, 0, 250000)
  | 6 => let (s, n) := s.resetController 0 4 i t cause; (s, n, 30000)
  | 7 => let (s, n) := s.resetController 1 12 i t cause; (s, n, 20000)
  | 8 => (s.moversGone (· == i) t cause, 0, 50)
  | 9 => let (s, n) := s.resetUpdater i t cause; (s, n, 2000)
  | 10 => let (s, n) := s.resetCollective t cause; (s, n, 2000)
  | 12 => (s.portReset i, 0, 100000)
  | _ => (s, 0, 0)

/-! ### RETIRE and RETURN (R413) -/

/-- Hold a cluster, a core or the core of an engine out of service. -/
def State.retireUnit (s : State) (t : Nat) : State :=
  let i := t % 4096
  match t / 4096 with
  | 2 => (s.modCluster i fun k => { k with retired := true, selfTested := false }).clusterOut i
  | 3 => s.coreOut i 3 true
  | _ => s.coreOut (engineCore i) 3 true

/-- The unit has passed full self-test since it went out of service. -/
def State.mayReturn (s : State) (t : Nat) : Bool :=
  let i := t % 4096
  match t / 4096 with
  | 2 => let k := s.cluster i; k.selfTested && !k.disabled && (k.retired || !k.inService || k.leaving)
  | k => let x := s.core (if k = 3 then i else engineCore i); x.passed && (x.retired || x.failed)

/-- Return a unit to service. A core for which the checker stands in waits for STANDIN_END (R20). -/
def State.returnUnit (s : State) (t : Nat) : State :=
  let i := t % 4096
  if t / 4096 = 2 then s.modCluster i fun k => { k with retired := false, inService := true, leaving := false, selfTested := false }
  else
    let p := if t / 4096 = 3 then i else engineCore i
    if (s.cluster (p / 6)).standin = some (p % 6) then s.modCore p fun k => { k with retired := false, failed := true }
    else (s.coreBack p).modCluster (p / 6) fun k => { k with
      failedCore := if k.failedCore = some (p % 6) then none else k.failedCore }

/-! ### FUNCTION_RESET (R413) -/

/-- Whether a virtual function may name the unit. -/
def Pav.mayReset (v : Pav) (p t : Nat) : Bool :=
  t == 0 || ([1, 2, 3, 4, 8].contains (t / 4096) && v.hasTarget p t)

/-- The pavilion that a reset names: TARGET 0x0000 names the one in PAVILION. -/
def resetPavOf (t pav : Nat) : Option Nat :=
  if t = 0 then (if pav = 0xF then none else some pav) else if t / 4096 = 1 then some (t % 4096) else none

/-- Perform a reset: the state, commands cut off, and the longest time. -/
def State.performReset (s : State) (t pav : Nat) (scrub retire ret : Bool) (cause : Option Cmd) : State × Nat × Nat :=
  match resetPavOf t pav with
  | some p => let (s, n) := s.resetPav p (pavTarget p) cause; (s, n, 50000)
  | none =>
    if t / 4096 = 0xB then
      let i := t % 4096
      if i < 16 then (s.hubCoreFails i true, 0, 2000000) else (s.ccRestart (i - 16) 2, 0, 20000)
    else
      let (s, a) := s.cutCount (fun c => c.target == t && c.phase != .started && c.opcode / 256 != 0
        && cause.all fun x => x.serial != c.serial) t cause
      let (s, n, m) := s.resetUnit t scrub cause
      let s := if retire then s.retireUnit t else s
      (if ret then s.returnUnit t else s, a + n, m)

/-- A reset of a hub core ends when the core has restarted; with its role lost it never does. -/
def State.awaitsCore (s : State) (t : Nat) : Bool :=
  t / 4096 == 0xB && decide (t % 4096 < 16) && !s.boot.lostRoles.contains (t % 4096 % 3)

def bodyFunctionReset (s : State) (c : Cmd) : Chk State := do
  let t := c.target
  let k := t / 4096
  let w := if c.expert then c.word 0 else 0
  let scrub := bitAt w 0
  let retire := bitAt w 1
  let ret := bitAt w 2
  need (c.fn == 0 || (s.pav (c.fn - 1)).any fun v => v.mayReset (c.fn - 1) t) { code := 0x0103 }
  need (t != 0 || c.pavilion != 0xF) { code := 0x0107, off := 1 }
  need ((resetPavOf t c.pavilion).all fun p => (s.pav p).isSome) { code := 0x0107, off := 1 }
  need ((!(retire || ret) || [2, 3, 4].contains k) && (!scrub || k == 2 || k == 3) && !(retire && ret)) (c.badParam 0)
  need (!ret || s.mayReturn t) (stState 4)
  let (s, n, m) := s.performReset t c.pavilion scrub retire ret (some c)
  if s.awaitsCore t then .ok (s.started c)
  else match s.cmd c.serial with
    | some c => .ok (s.bumpFree.finish c (s.resetResult k m n))
    -- its own ring set went with the port
    | none => .ok s

def execFunctionReset (id : Nat) (s : State) : Host.Outcome State Fault Refusal :=
  .next (s.startCmd id 0x0110 bodyFunctionReset)

/-! ### FRESET (R90, R413) -/

/-- The status with which FRESET turns a TARGET away. -/
def State.fresetRej (s : State) (fn t : Nat) : Option Nat :=
  if !targetExists t then some 0x0107
  else if fn = 0 then
    if t = 0 || (t / 4096 == 1 && (s.pav (t % 4096)).isNone) then some 0x0107 else none
  else match s.pav (fn - 1) with
    | none => some 0x0106
    | some v => if v.mayReset (fn - 1) t then none else some 0x0103

/-- FUNCTION_RESET in its basic form through FRESET; FRESET_STATUS reports it. -/
def State.freset (s : State) (q fn t : Nat) : State :=
  let k := ringKey q fn
  let status := fun (s : State) (x : Nat) => s.modRing k fun r => { r with frTarget := t, frStatus := x }
  match s.fresetRej fn t with
  | some e => status s e
  | none =>
    let s := (s.performReset t (fn - 1) false false false none).1
    status s (if s.awaitsCore t then 0xFFFF else 0)

/-- A write with GO = 1. Before security firmware runs it is ignored; while the security role is down it is latched
until the takeover (R417), and with the role lost BAR0 is not served (R418). -/
def execFreset (r : FnRef) (target : BitVec 16) (s : State) : Host.Outcome State Fault Refusal :=
  let q := r.port.val
  let fn := r.fn.val
  if !s.serves r then .next (s.unserved r)
  else if !s.boot.fwRunning || s.boot.lostRoles.contains 0 then .next s
  else if !s.roleUp 0 then .next (s.modBoot fun b => { b with latchedFreset := b.latchedFreset ++ [(q, fn, target.toNat)] })
  else .next (s.freset q fn target.toNat)

/-! ### ESTOP (R91) -/

/-- The emergency stop through a function: its pavilions stop at a tile boundary, and nothing of them commits. -/
def State.estop (s : State) (fn : Nat) : State :=
  forEach ((stopScope fn).filter fun p => (s.pav p).isSome) (fun s p =>
    let s := (s.modPav p fun v => { v with stopped := true }).stopPav p 0x0307 (pavTarget p) none fun _ => false
    (s.modPav p fun v => { v with sealing := v.sealing.map fun (x : Sealing) => { x with halted := true } }).parkIfDue p) s

/-- A write of 0xE5E5; latched while the security role is down (R417). -/
def execEstop (r : FnRef) (arm : BitVec 16) (s : State) : Host.Outcome State Fault Refusal :=
  let q := r.port.val
  let fn := r.fn.val
  if !s.serves r then .next (s.unserved r)
  else if arm.toNat ≠ 0xE5E5 ∨ !s.boot.fwRunning ∨ s.boot.lostRoles.contains 0 then .next s
  else if !s.roleUp 0 then .next (s.modBoot fun b => { b with latchedEstop := b.latchedEstop ++ [(q, fn)] })
  else .next (s.estop fn)

/-! ### Resets of a PCIe function and port (R467) -/

def execPerst (port : Fin 2) (s : State) : Host.Outcome State Fault Refusal := .next (s.portReset port.val)
def execHotReset (port : Fin 2) (s : State) : Host.Outcome State Fault Refusal := .next (s.portReset port.val)

/-- FLR of a physical function: VF Enable is cleared, its control ring set is freed as RINGSET_CFG ENABLE = 0 frees it,
its registers return to reset, and a busy load is abandoned. -/
def execPfFlr (port : Fin 2) (s : State) : Host.Outcome State Fault Refusal :=
  let q := port.val
  let s := if s.boot.loadPort = some q ∧ s.boot.stage ≤ 4 then s.endLoad 0x000E else s
  .next ((s.removeVfs q 0).resetFunction q 0)

/-- FLR of virtual function n + 1: its pavilion n is reset, whichever port issues it, and its ring set is freed. -/
def execVfFlr (port : Fin 2) (n : Fin 8) (s : State) : Host.Outcome State Fault Refusal :=
  let q := port.val
  let fn := n.val + 1
  if !s.present q fn then .next (s.emit (.unsupported q fn))
  else .next ((s.resetPav n.val (pavTarget n.val) none).1.resetFunction q fn)

end Sys2Proof.Machine
end

