-- ==== Sys2Proof/Machine/Lend.lean ====
section
/-! DEFINITION. PAVILION_DESTROY (R409) and PAVILION_LEND (R411, R317, R318). -/

namespace Sys2Proof.Machine

/-! ### PAVILION_DESTROY -/

/-- Other commands of the pavilion that have started and still run: they end first. An armed barrier has no end of its
own, and is cut off. -/
def State.destroyWaits (s : State) (c : Cmd) : Bool :=
  s.cmds.any fun x => x.serial != c.serial && x.pavilion == c.pavilion && x.phase == .started && x.opcode / 256 != 0
    && x.opcode != 0x0802

/-- The actions of R409 in order. A sealed step rolls forward before them (R426). -/
def State.destroyNow (s : State) (c : Cmd) : State :=
  let p := c.pavilion
  match s.pav p with
  | none => s
  | some v =>
    let s := if v.sealing.isSome then (s.rollForward p).1 else s
    let s := s.forCmds (fun x => x.serial != c.serial && x.pavilion == p && (x.opcode / 256 != 0 || x.fn != 0)
      && (x.phase != .started || x.opcode == 0x0802)) fun s x => s.cutOff x 0x0301 (pavTarget p) (some c)
    let s := if v.abortReason.isNone then (s.reshapeAbort p 0x0301 (some c)).1 else s
    let s := if v.twin.state = 2 ∨ v.twin.state = 3 then (s.twinMsg p .unpair).unpair p false else s.freeMirrors p
    let s := forEach (s.shardsOf p) (fun s n => s.dropShard n) s
    let s := (s.freeRing (ringKey 0 (p + 1))).freeRing (ringKey 1 (p + 1))
    let s := s.releasePages fun a => v.ownsRange a 1
    let s := (s.zeroGranules v.hbm v.lpddr v.dstore).zeroClusters v.clusters
    { s with pavs := tdel s.pavs p, pavLogs := tdel s.pavLogs p }.finish c []

/-- Destroy once the started commands have ended. -/
def State.tryDestroy (s : State) (c : Cmd) : State := if s.destroyWaits c then s else s.destroyNow c

def bodyPavilionDestroy (s : State) (c : Cmd) : Chk State := do
  let p := c.pavilion
  match s.pav p with
  | none => .error { code := 0x0106, off := 0 }
  | some v =>
    let force := c.expert && bitAt (c.word 0) 0
    need (force || v.run.isNone) { code := 0x0104 }
    let s := if force then (s.resetPav p (pavTarget p) (some c)).1 else s
    .ok ((s.started c).tryDestroy c)

/-- The command starts; executed again, a destroy that waits goes on. -/
def execPavilionDestroy (id : Nat) (s : State) : Host.Outcome State Fault Refusal :=
  match s.cmd id with
  | none => .next s
  | some c =>
    if c.opcode = 0x0102 ∧ c.phase = .started then .next (s.tryDestroy c) else .next (s.startCmd id 0x0102 bodyPavilionDestroy)

/-! ### Moving a pavilion's pages (R318) -/

/-- Name a range that has moved from x to y by its new address. -/
def State.retarget (s : State) (p x y : Nat) : State :=
  let at_ := fun (a : Nat) => if a = x then y else a
  let page := fun (a : Nat) => at_ (4096 * a) / 4096
  let mine := fun (n : Nat) => (s.shard n).pavilion == p
  let s := s.modPav p fun v => { v with
    handles := v.handles.map fun (e : Nat × Handle) => (e.1, { e.2 with
      addr := at_ e.2.addr, constants := e.2.constants.map fun k => (k.1, at_ k.2.1, k.2.2) }) }
  let s := s.modLedger fun l => { l with
    recs := tmap (fun _ (r : Rec) => if r.valid ∧ r.pavilion = p then
      { r with slotPage := page r.slotPage, gradPage := page r.gradPage } else r) l.recs
    fresh := tmap (fun n a => if mine n then page a else a) l.fresh }
  forEach (pavRings p) (fun s k => s.modRing k fun r =>
    if r.ready ∧ r.base = x then { r with base := y, staging := y + stagingOffset } else r) s

/-- Move one allocation to the granules that the pavilion keeps. Uncorrectable words stay uncorrectable. -/
def State.moveAlloc (s : State) (p : Nat) (a : Nat × Nat × Nat) : Option State :=
  let (x, n, use) := a
  let s := s.freeMem p x
  (if use ≤ 1 then s.allocAny p n 4096 use else s.allocMem p 0 n 4096 use).map fun (y, s) =>
    let bad := (s.mem.bad.filter fun w => decide (x ≤ w ∧ w < x + n)).map fun w => y + (w - x)
    let s := (s.copyMem x y n).modMem fun m => { m with bad := bad.foldl addNew m.bad }
    s.retarget p x y

def State.moveAllocs (s : State) (p : Nat) : List (Nat × Nat × Nat) → Option State
  | [] => some s
  | a :: t => match s.moveAlloc p a with
    | none => none
    | some s => s.moveAllocs p t

/-- A moved slot is checked against DIGEST. -/
def State.checkMoved (s : State) (p n : Nat) : State :=
  let r := s.shard n
  match s.badSlot r (r.slotAddr r.cur) with
  | some w => s.slotLost n w
  | none =>
    if slotDigest n r.version.toNat (s.readArrays r (r.slotAddr r.cur)) = r.digest then s
    else (s.modShard n fun r => { r with damaged := true }).shardDamaged p n 2

/-! ### PAVILION_LEND -/

/-- What moves: granules that leave the source, and of these those that the destination takes. -/
structure Lend where
  clusters : List Nat
  hbm : List (Nat × Nat)
  lpddr : List (Nat × Nat)
  dstore : List (Nat × Nat)
  hbmTo : List (Nat × Nat)
  dstoreTo : List (Nat × Nat)
  deriving DecidableEq, Repr

def diesOf (cs : List Nat) : List Nat := (cs.map (· / 4)).eraseDups
/-- Granules without an allocation first. -/
def Pav.byUse (v : Pav) (addr : Nat × Nat → Nat) (l : List (Nat × Nat)) : List (Nat × Nat) :=
  let used := fun (g : Nat × Nat) => v.allocs.any fun a => overlaps (addr g) gib a.1 a.2.1
  (l.filter fun g => !used g) ++ l.filter used

/-- The granules of a lend (R411; log 34): on a die that the source gives up they all leave, to the destination when it
then holds clusters there; in the expert form as many as the parameters say go with the clusters, and the rest to the
pool. -/
def lendGranules (c : Cmd) (v : Pav) (cs destCs : List Nat) (pool : Bool) : Chk Lend := do
  let w := c.word
  let left := v.clusters.filter fun k => !cs.contains k
  let keep := diesOf left
  let takes := fun (d : Nat) => pool || (diesOf (destCs ++ cs)).contains d
  let gone := fun (g : Nat × Nat) => !keep.contains g.1
  if !c.expert then
    let hbm := v.hbm.filter gone
    let dst := v.dstore.filter gone
    .ok { clusters := cs, hbm := hbm, lpddr := [], dstore := dst, hbmTo := hbm.filter fun g => takes g.1
          dstoreTo := dst.filter fun g => takes g.1 }
  else
    let want := (List.range 8).map fun d => (d, bits (w 2) (8 * d + 7) (8 * d))
    let picks := want.map fun x => (x, (v.byUse hbmAddr (v.hbm.filter fun g => g.1 == x.1)).take x.2)
    need (picks.all fun x => x.2.length == x.1.2 && (x.1.2 == 0 || takes x.1.1)) (c.bad 0x01E8 2 3)
    let hbmTo := picks.flatMap (·.2)
    let lp := bits (w 3) 63 32
    let free := v.lpddr.filter fun g => !(v.allocs.any fun a => overlaps (lpddrAddr g) gib a.1 a.2.1)
    need (decide (lp ≤ free.length)) (c.bad 0x01E8 3 4)
    let ds := bits (w 3) 31 16
    let able := v.dstore.filter fun g => takes g.1
    need (decide (ds ≤ able.length)) (c.bad 0x01E8 3 5)
    let dstTo := ((able.filter gone) ++ able.filter fun g => !gone g).take ds
    .ok { clusters := cs, hbm := hbmTo ++ v.hbm.filter fun g => gone g && !hbmTo.contains g, lpddr := free.take lp
          dstore := dstTo ++ v.dstore.filter fun g => gone g && !dstTo.contains g, hbmTo := hbmTo, dstoreTo := dstTo }

/-- Quiesce the moving clusters: their checks are dropped as skipped (R391), and their moves run elsewhere (R245). -/
def State.quiesce (s : State) (p : Nat) (cs : List Nat) (c : Cmd) : State :=
  let gone := match s.pav p with
    | some v => v.samples.filter fun x => cs.contains x.cluster
    | none => []
  let s := forEach gone (fun s x => s.modCluster x.cluster fun k => { k with
    skipped := recent k.skipped s.clock 86400000000000 ++ [s.clock] }) s
  let s := s.modPav p fun v => { v with samples := v.samples.filter fun x => !cs.contains x.cluster }
  let stay := fun (s : State) (j : MoveJob) =>
    if (s.cmd j.cmd).any fun x => x.pavilion == p then { j with clusters := j.clusters.filter fun k => !cs.contains k } else j
  let s := { s with moves := s.moves.map (stay s) }
  s.moversGone (fun m => cs.contains (m / 6)) (pavTarget p) (some c)

/-- Rebind what moves (R411 steps 3 and 4): clusters and granules zeroed, CLUSTER_MASK bits dropped;
a mask whose last bit goes limits nothing from then on (DESIGN CHOICE, log 11). -/
def State.rebind (s : State) (p dst : Nat) (x : Lend) (roleFrom roleTo : Nat) : State :=
  let s := s.releasePages fun a => (granules a 1).any fun g => match g.1 with
    | 0 => x.hbm.contains g.2
    | 1 => x.lpddr.contains g.2
    | 2 => x.clusters.contains g.2.1
    | 3 => x.clusters.contains (g.2.1 / 6)
    | _ => x.dstore.contains g.2
  let s := (s.zeroGranules x.hbm x.lpddr x.dstore).zeroClusters x.clusters
  let s := s.resetCounters fun id => x.clusters.any fun k => ctrOfCluster k id
  let s := s.modPav p fun v => { v with
    role := if roleFrom = 0xF then v.role else roleFrom
    clusters := v.clusters.filter fun k => !x.clusters.contains k
    arriving := v.arriving.filter fun k => !x.clusters.contains k
    hbm := v.hbm.filter fun g => !x.hbm.contains g
    lpddr := v.lpddr.filter fun g => !x.lpddr.contains g
    dstore := v.dstore.filter fun g => !x.dstore.contains g
    handles := v.handles.map fun (e : Nat × Handle) => (e.1, { e.2 with
      clusterMask := bitsMask ((maskBits 32 e.2.clusterMask).filter fun k => !x.clusters.contains k) })
    capacityDue := true }
  s.modPav dst fun v => { v with
    role := if roleTo = 0xF then v.role else roleTo
    clusters := maskBits 32 (bitsMask (v.clusters ++ x.clusters))
    arriving := if v.run.isSome then v.arriving ++ x.clusters else v.arriving
    hbm := v.hbm ++ x.hbmTo, lpddr := v.lpddr ++ x.lpddr, dstore := v.dstore ++ x.dstoreTo
    capacityDue := true }

/-- Roles that a lend may set: those of R405, and 0xF for no change. -/
def lendRole (r : Nat) : Bool := [0, 1, 2, 0xF].contains r

def bodyPavilionLend (s : State) (c : Cmd) : Chk State := do
  let p := c.pavilion
  match s.pav p with
  | none => .error { code := 0x0106, off := 0 }
  | some v =>
    let w := c.word
    let cs := maskBits 32 (bits (w 0) 31 0)
    let dst := bits (w 1) 3 0
    let pool := dst == 0xF
    let rf := if c.expert then bits (w 3) 7 4 else 0xF
    let rt := if c.expert then bits (w 3) 3 0 else 0xF
    let dest := s.pav dst
    need (lendRole rf && lendRole rt) (c.badParam 3)
    need (cs.all v.clusters.contains) (c.bad 0x01E8 0 2)
    need (pool || (dest.isSome && dst != p)) (c.bad 0x01E8 1 7)
    let left := v.clusters.filter fun k => !cs.contains k
    let destCs := (dest.map (·.clusters)).getD []
    need (!(left.isEmpty && !cs.isEmpty && v.reshape.active.any fun l => (l.held s.ownId).2 != 0)) { code := 0x01D0, reason := 8 }
    let roleA := if rf = 0xF then v.role else rf
    let roleB := if rt = 0xF then (dest.map (·.role)).getD 0 else rt
    need ((roleA == 0 || !left.isEmpty) && (pool || roleB == 0 || !(destCs ++ cs).isEmpty)) (c.bad 0x01E8 0 8)
    need (v.reshape.state != 1 && v.reshape.state != 2) { code := 0x01D0, reason := 2, defer := true }
    need (v.sealing.isNone && v.atBoundary) { stState 8 with defer := true }
    need (!(rf == 0 && v.run.isSome) && !(!pool && rt == 0 && dest.any (·.run.isSome))) { stState 8 with defer := true }
    let x ← lendGranules c v cs destCs pool
    -- pages of the granules that leave go to those that stay
    let s0 := s.modPav p fun v => { v with hbm := v.hbm.filter fun g => !x.hbm.contains g }
    let none_ := (s0.pav p).all (·.hbm.isEmpty)
    let s0 := if none_ then forEach (pavRings p) State.freeRing s0 else s0
    let hit := match s0.pav p with
      | some v => v.allocs.filter fun a => x.hbm.any fun g => overlaps (hbmAddr g) gib a.1 a.2.1
      | none => []
    let shards := (s.shardsOf p).filter fun n => hit.any fun a => a.1 == 4096 * (s.shard n).slotPage
    match s0.moveAllocs p hit with
    | none => .error { code := 0x01D0, reason := 9 }
    | some s1 =>
      let s1 := forEach shards (fun s n => s.checkMoved p n) s1
      let bytes := sumNat ((hit.filter fun a => a.2.2 == 2 || a.2.2 == 3).map fun a => a.2.1)
      let s1 := (s1.quiesce p cs c).rebind p dst x rf rt
      .ok (s1.finish c (pack [(4, bitsMask cs), (4, x.hbm.length), (4, x.lpddr.length), (4, 0), (8, bytes)]))

def execPavilionLend (id : Nat) (s : State) : Host.Outcome State Fault Refusal :=
  .next (s.startCmd id 0x0120 bodyPavilionLend)

end Sys2Proof.Machine
end

