-- ==== Sys2Proof/Machine/Recovery.lean ====
section
/-! DEFINITION. Liveness of hosts and firmware cores (R87, R88, R417 to R419), CORE_RESTART (R452), and the loss of a
die or hub that shuts down (R421, R481). -/

namespace Sys2Proof.Machine

/-! ### Hosts (R87, R419) -/

/-- The host of port q is lost: reading stops, nothing more is sent on the port, its pavilions park at their step
boundaries, and host-side transfers end (R245, R469). Commands not yet started end at the end of their pavilion's
step (R86), those without a running step at once. -/
def State.hostGone (s : State) (q : Nat) : State :=
  let s := (s.modPort q fun p => { p with lost := true }).postTo [ringKey (1 - q) 0]
    { code := 0x0004, severity := 2, pav := 0xF, place := placePort q, time := s.now, data := pack [(1, q)] }
  let hostSide := fun (j : MoveJob) => ((List.range j.descs.length).zip j.descs).any fun x =>
    (x.2.hostSrc || x.2.hostDst) && !j.finished.contains x.1
  let jobs := (s.moves.filter hostSide).map (·.cmd)
  let s := s.forCmds (fun c => c.port == q && jobs.contains c.serial) fun s c => s.cutOff c 0x0304 (0xC000 + q) none
  let idle := fun (s : State) (p : Nat) => (s.pav p).all (·.run.isNone)
  let s := s.abortAll (fun c => c.port == q && c.phase == .accepted && !c.orphan && idle s c.pavilion) 0x0304 (0xC000 + q) none
  forEach ((s.pavs.filter fun e => e.2.homePort == q && !e.2.parked).map (·.1)) (fun s p =>
    let s := (s.modPav p fun v => { v with parking := true }).parkIfDue p
    -- a run that waits for its instant stands at a boundary
    if (s.runOf p).any fun x => x.2.1.phase == 2 then (s.modRun p fun r => { r with phase := 1 }).continueBoundary p else s) s

/-- Time since the last counted heartbeat of a port (R10); counted from stage 9 on (R439, R455). -/
def State.silence (s : State) (q : Nat) : Nat := s.clock - max (s.port q).lastBeatLocal s.boot.stage9Local

def execHeartbeatLate (port : Fin 2) (s : State) : Host.Outcome State Fault Refusal :=
  let q := port.val
  if s.boot.stage < 9 ∨ (s.port q).latePosted ∨ (s.port q).lost ∨ s.silence q < 2500000000 then .next s
  else .next ((s.modPort q fun p => { p with latePosted := true }).postRing (ringKey q 0) 0x0003 1 [])

def execHostLost (port : Fin 2) (s : State) : Host.Outcome State Fault Refusal :=
  let q := port.val
  if s.boot.stage < 9 ∨ (s.port q).lost ∨ s.silence q < 5000000000 then .next s else .next (s.hostGone q)

/-- MODULE_BEAT (R88): every 100 ms while the scheduler role runs. -/
def execModuleBeat (s : State) : Host.Outcome State Fault Refusal :=
  if s.roleUp 2 && decide (s.beatAt + 100000000 ≤ s.clock) then
    .next { s with beat := s.beat + 1, beatAt := s.clock }
  else .next s

/-! ### Takeovers (R30, R86, R417, R418) -/

/-- The lead core of role r has failed and its standby takes the role; without a standby that works the role is lost. -/
def State.roleFails (s : State) (r : Nat) : State × Bool :=
  let s := s.hubCoreFails (3 * s.roleHub r + r) false
  if s.standbyUp r then (s.takeOver r, true) else (s, false)

/-- The roles have standby cores from stage 8 on. -/
def State.mayFail (s : State) (r : Nat) : Bool := decide (8 ≤ s.boot.stage) && !s.boot.lostRoles.contains r

def execSchedulerTakeover (s : State) : Host.Outcome State Fault Refusal :=
  if !s.mayFail 2 then .next s
  else
    let lead := 3 * s.roleHub 2 + 2
    let (s, ok) := s.roleFails 2
    .next (if ok then (s.adoptRings lead).ringsAdopted else s)

def execPowerManagementTakeover (s : State) : Host.Outcome State Fault Refusal :=
  .next (if s.mayFail 1 then (s.roleFails 1).1 else s)

/-- The new security core acts on the writes that were latched while the role was down. -/
def State.actLatched (s : State) : State :=
  let f := s.boot.latchedFreset
  let e := s.boot.latchedEstop
  let s := s.modBoot fun b => { b with latchedFreset := [], latchedEstop := [] }
  let s := forEach f (fun s x => s.freset x.1 x.2.1 x.2.2) s
  forEach e (fun s x => s.estop x.2) s

def execSecurityTakeover (s : State) : Host.Outcome State Fault Refusal :=
  if !s.mayFail 0 then .next s
  else
    let (s, ok) := s.roleFails 0
    .next (if ok then s.actLatched else s)

def execStandbyCoreFailure (role : Fin 3) (s : State) : Host.Outcome State Fault Refusal :=
  let r := role.val
  .next (if s.mayFail r && s.standbyUp r then s.hubCoreFails (3 * (1 - s.roleHub r) + r) false else s)

/-- CLUSTER_CONTROL_RESTART: the watchdog of a cluster that has a running control core. -/
def execClusterControlRestart (c : Fin 32) (s : State) : Host.Outcome State Fault Refusal :=
  .next (if 8 ≤ s.boot.stage ∧ s.boot.ccRunning.contains c.val then s.ccRestart c.val 1 else s)

def execFirmwareCoreRestarted (role : Fin 3) (s : State) : Host.Outcome State Fault Refusal :=
  .next (s.coreRestarted role.val)

/-! ### CORE_RESTART (R452) -/

def bodyCoreRestart (s : State) (c : Cmd) : Chk State := do
  let i := c.target % 4096
  let handover := c.expert && bitAt (c.word 0) 0
  let rej := fun (ok : Bool) (n : Nat) => need ok (stReject 0x01FC n)
  rej (c.target / 4096 == 0xB) 3
  if 16 ≤ i then
    rej (!handover) 2
    .ok ((s.ccRestart (i - 16) 2).finish c (pack [(1, 0xFF)]))
  else
    let r := i % 3
    if handover then
      rej (s.roleHub r == i / 3) 2
      rej (s.standbyUp r && !s.boot.coreDown.contains i) 1
      let s := (s.modBoot fun b => { b with
        coreDown := b.coreDown ++ [i], resetCores := addNew b.resetCores i, attestBlocked := b.attestBlocked || r == 0 }).takeOver r
      .ok ((if r = 2 then s.ringsAdopted else s).started c)
    else
      let s := s.hubCoreFails i true
      if s.boot.lostRoles.contains r then .ok (s.finish c (pack [(1, s.roleHub r)])) else .ok (s.started c)

def execCoreRestart (id : Nat) (s : State) : Host.Outcome State Fault Refusal :=
  .next (s.startCmd id 0x0C02 bodyCoreRestart)

/-! ### Lost units (R421) -/

/-- Take a set of addresses out of a pavilion: granules, allocations and what lay in them. -/
def State.losePages (s : State) (p : Nat) (lost : Nat → Bool) : State :=
  match s.pav p with
  | none => s
  | some v =>
    let s := s.modPav p fun v => { v with
      hbm := v.hbm.filter fun g => !lost (hbmAddr g)
      lpddr := v.lpddr.filter fun g => !lost (lpddrAddr g)
      dstore := v.dstore.filter fun g => !lost (dstoreAddr g)
      twin := { v.twin with mirrors := v.twin.mirrors.filter fun m => !lost (4096 * m.2.slotPage) }
      capacityDue := true }
    let gone := v.handles.filter fun h => lost h.2.addr || h.2.constants.any fun k => lost k.2.1
    let s := forEach gone (fun s h => s.freeHandle p h.1) s
    s.modPav p fun v => { v with
      allocs := v.allocs.filter fun a => !lost a.1
      offTiles := v.offTiles.filter fun x => !x.ranges.any fun r => lost r.1 }

/-- The runs, and shard updates without a run, of the pavilions that used a lost unit end before their seal. -/
def State.failUsers (s : State) (f : State → Nat → Pav → Bool) (place : Nat) : State :=
  forEach ((s.pavs.filter fun e => f s e.1 e.2).map (·.1)) (fun s p =>
    let s := s.endRun p 0x0203 (place * 65536 + 0xFFFF) none
    s.forCmds (fun c => c.pavilion == p && c.opcode == 0x0410 && c.phase == .started && (s.pav p).all (·.sealing.isNone))
      fun s c => (s.disarm c).fail c 0x0203 place 0xFFFF) s

/-- A compute die is lost: its clusters, stacks, die store and ledger slice. Where it was the gate die of a pavilion,
the pavilion's ledger and journal go too (R287). -/
def State.loseDie (s : State) (d : Nat) : State :=
  let here := fun (a : Nat) => addrDie a == some d
  let place := placeDie d 0 0
  let gates := (s.pavs.filter fun e => !e.2.clusters.isEmpty && e.2.gateDie == d).map (·.1)
  let s := s.failUsers (fun s p v => v.clusters.any (fun c => c / 4 == d) || v.hbm.any (fun g => g.1 == d)
    || v.dstore.any (fun g => g.1 == d) || (s.shardsOf p).any fun n => n / 131072 == d) place
  let cs := (List.range 4).map (· + 4 * d)
  let cores := (List.range 24).map (· + 24 * d)
  let s := forEach cores (fun s k => (s.dropCoreWork k).modCore k fun x => { x with failed := true, passed := false, unmapped := true }) s
  let s := s.moversGone (fun m => m / 24 == d) 0 none
  let s := forEach cs (fun s k => s.modCluster k fun x => { x with inService := false, leaving := false, standin := none, failedCore := none }) s
  let s := { s with
    stitches := s.stitches.filter fun x => x.cluster / 4 != d
    pavs := tmap (fun _ (v : Pav) => { v with
      clusters := v.clusters.filter fun k => k / 4 != d
      arriving := v.arriving.filter fun k => k / 4 != d
      handles := v.handles.map fun (e : Nat × Handle) => (e.1, { e.2 with
        clusterMask := bitsMask ((maskBits 32 e.2.clusterMask).filter fun k => k / 4 != d) }) }) s.pavs }
  let s := forEach (s.pavs.map (·.1)) (fun s p =>
    let s := forEach ((s.shardsOf p).filter fun n => n / 131072 == d || gates.contains p) (fun s n => s.dropShard n) s
    let s := if gates.contains p then s.modPav p fun v => { v with journal := [], sealing := none } else s
    s.losePages p here) s
  let s := forEach ((s.rings.filter fun e => e.2.ready && here e.2.base).map (·.1)) State.freeRing s
  let s := s.modBoot fun b => { b with ccRunning := b.ccRunning.filter fun k => k / 4 != d }
  let s := forEach cs (fun s k => s.zeroMem (clusterStoreAddr k) (224 * mib)) s
  let s := forEach cores (fun s k => s.zeroMem (windowOf k) (4 * mib)) s
  ((s.zeroMem (d * 2 ^ 38) (144 * gib)).zeroMem (dieStoreAddr d) (48 * mib)).modLedger fun l => { l with
    unreadable := l.unreadable.filter fun n => n / 131072 != d }

/-- The lead hub fails before stage 9: the start returns to stage 2 with the other hub when that passed its self-test,
and otherwise nothing leads (R31, R455). -/
def State.restartStart (s : State) (h : Nat) : State :=
  let other := 1 - h
  let ok := (lookupHub s.boot.hubTested other).getD false
  let s := { s.moduleReset with
    power := s.power, ports := s.ports, time := { localNs := s.time.localNs, elapsed := s.clock }
    boot := { stage := 0, leadHub := other, roleHub := [other, other, other], hubResetAt := s.boot.hubResetAt
              hubTested := [(h, false), (other, ok)] } }
  s.setStage (if ok then 2 else 1)

/-- A hub is lost: forwarding ends, the bridles close, its port's host is lost, its firmware cores fail, and the LPDDR5X
of its window is gone. -/
def State.loseHub (s : State) (h : Nat) : State :=
  let here := fun (a : Nat) => addrWin a == 1 && (addrUnit a).1 == h
  let s := s.modRoute fun r => { r with noForward := addNew r.noForward h }
  let s := forEach [0, 1, 2] (fun s a => if (s.axis a).join.isSome then s.failJoin a a 8 else s.closeBridle a) s
  if s.boot.stage < 9 then
    if s.boot.leadHub = h then s.restartStart h else s.modBoot fun b => { b with standbyReady := false }
  else
    let s := if (s.port h).lost then s else s.hostGone h
    let s := s.failUsers (fun _ _ v => v.lpddr.any fun g => g.1 == h) (placeHub h 0 0)
    let s := forEach (s.pavs.map (·.1)) (fun s p => s.losePages p here) s
    let s := s.zeroMem (2 ^ 48 + h * 2 ^ 40) (768 * gib)
    forEach [0, 1, 2] (fun s r => s.hubCoreFails (3 * h + r) false) s

/-- DIE_SHUTDOWN (R481): at 115 °C the die or hub turns its rails off until the next start. -/
def execDieShutdown (u : Fin 10) (tempC : Nat) (s : State) : Host.Outcome State Fault Refusal :=
  if tempC < 115 ∨ s.power.shut.contains u.val ∨ !s.power.pwrGood then .next s
  else
    let s := ((s.modPower fun p => { p with shut := p.shut ++ [u.val] }).modUnitTemp u.val fun x => { x with
      high := max x.high tempC, highAt := if x.high < tempC then s.now else x.highAt, hourHigh := max x.hourHigh tempC }).updateAlert
    let s := s.postModule 0x0A03 3 0xFFFF (pack [(1, u.val), (1, tempC)])
    .next (if u.val < 8 then s.loseDie u.val else s.loseHub (u.val - 8))

end Sys2Proof.Machine
end

