-- ==== Sys2Proof/Machine/Dispatch.lean ====
section
/-! DEFINITION. The dispatch: one arm for each command of the table. -/

namespace Sys2Proof.Machine

/-- A command's effect on everything but the queue. -/
def exec (i : Instr) (s : State) : Host.Outcome State Fault Refusal :=
  match i with
  | .ringOpen id => Sys2Proof.Machine.execRingOpen id s
  | .ringClose id => Sys2Proof.Machine.execRingClose id s
  | .heartbeat id => Sys2Proof.Machine.execHeartbeat id s
  | .pavilionCreate id => Sys2Proof.Machine.execPavilionCreate id s
  | .pavilionDestroy id => Sys2Proof.Machine.execPavilionDestroy id s
  | .pavilionStatus id => Sys2Proof.Machine.execPavilionStatus id s
  | .functionReset id => Sys2Proof.Machine.execFunctionReset id s
  | .pavilionLend id => Sys2Proof.Machine.execPavilionLend id s
  | .pavilionAdopt id => Sys2Proof.Machine.execPavilionAdopt id s
  | .move id => Sys2Proof.Machine.execMove id s
  | .offload id => Sys2Proof.Machine.execOffload id s
  | .restore id => Sys2Proof.Machine.execRestore id s
  | .memRepair id => Sys2Proof.Machine.execMemRepair id s
  | .memRetireList id => Sys2Proof.Machine.execMemRetireList id s
  | .programLoad id => Sys2Proof.Machine.execProgramLoad id s
  | .programRun id => Sys2Proof.Machine.execProgramRun id s
  | .programStop id => Sys2Proof.Machine.execProgramStop id s
  | .programUnload id => Sys2Proof.Machine.execProgramUnload id s
  | .stepRun id => Sys2Proof.Machine.execStepRun id s
  | .shardUpdate id => Sys2Proof.Machine.execShardUpdate id s
  | .ledgerQuery id => Sys2Proof.Machine.execLedgerQuery id s
  | .ledgerRepair id => Sys2Proof.Machine.execLedgerRepair id s
  | .reshapeBegin id => Sys2Proof.Machine.execReshapeBegin id s
  | .reshapeCommit id => Sys2Proof.Machine.execReshapeCommit id s
  | .reshapeAbort id => Sys2Proof.Machine.execReshapeAbort id s
  | .reshapeRelease id => Sys2Proof.Machine.execReshapeRelease id s
  | .layoutQuery id => Sys2Proof.Machine.execLayoutQuery id s
  | .routeLoad id => Sys2Proof.Machine.execRouteLoad id s
  | .routeSwap id => Sys2Proof.Machine.execRouteSwap id s
  | .fenceSet id => Sys2Proof.Machine.execFenceSet id s
  | .linkStatus id => Sys2Proof.Machine.execLinkStatus id s
  | .linkJoin id => Sys2Proof.Machine.execLinkJoin id s
  | .acceptWiring id => Sys2Proof.Machine.execAcceptWiring id s
  | .bridleStepAside id => Sys2Proof.Machine.execBridleStepAside id s
  | .timeStatus id => Sys2Proof.Machine.execTimeStatus id s
  | .barrierAt id => Sys2Proof.Machine.execBarrierAt id s
  | .timeRoot id => Sys2Proof.Machine.execTimeRoot id s
  | .twinPair id => Sys2Proof.Machine.execTwinPair id s
  | .twinUnpair id => Sys2Proof.Machine.execTwinUnpair id s
  | .twinRestore id => Sys2Proof.Machine.execTwinRestore id s
  | .digestCompare id => Sys2Proof.Machine.execDigestCompare id s
  | .disagreeResolve id => Sys2Proof.Machine.execDisagreeResolve id s
  | .checkRateSet id => Sys2Proof.Machine.execCheckRateSet id s
  | .selftestRun id failures => Sys2Proof.Machine.execSelftestRun id failures s
  | .calibrate id failed => Sys2Proof.Machine.execCalibrate id failed s
  | .healthReport id => Sys2Proof.Machine.execHealthReport id s
  | .probationSet id => Sys2Proof.Machine.execProbationSet id s
  | .powerCap id => Sys2Proof.Machine.execPowerCap id s
  | .thermalStatus id => Sys2Proof.Machine.execThermalStatus id s
  | .attest id => Sys2Proof.Machine.execAttest id s
  | .identityGet id => Sys2Proof.Machine.execIdentityGet id s
  | .fwStatus id => Sys2Proof.Machine.execFwStatus id s
  | .coreRestart id => Sys2Proof.Machine.execCoreRestart id s
  | .countersRead id => Sys2Proof.Machine.execCountersRead id s
  | .logRead id => Sys2Proof.Machine.execLogRead id s
  | .forerunnerNumerics id => Sys2Proof.Machine.execForerunnerNumerics id s
  | .commandRead r => Sys2Proof.Machine.execCommandRead r s
  | .deferredCommandStart p => Sys2Proof.Machine.execDeferredCommandStart p s
  | .sqDb r value half => Sys2Proof.Machine.execSqDb r value half s
  | .cqDb r value half => Sys2Proof.Machine.execCqDb r value half s
  | .eqDb r value half => Sys2Proof.Machine.execEqDb r value half s
  | .mirrorWrite r => Sys2Proof.Machine.execMirrorWrite r s
  | .mirrorRefresh r => Sys2Proof.Machine.execMirrorRefresh r s
  | .coalesceTimeout r => Sys2Proof.Machine.execCoalesceTimeout r s
  | .ringsetCfgEnable r eqLog2 cqLog2 sqLog2 => Sys2Proof.Machine.execRingsetCfgEnable r eqLog2 cqLog2 sqLog2 s
  | .ringsetCfgDisable x => Sys2Proof.Machine.execRingsetCfgDisable x s
  | .freset r target => Sys2Proof.Machine.execFreset r target s
  | .hostHeartbeat r => Sys2Proof.Machine.execHostHeartbeat r s
  | .estop r arm => Sys2Proof.Machine.execEstop r arm s
  | .load port => Sys2Proof.Machine.execLoad port s
  | .abandon port => Sys2Proof.Machine.execAbandon port s
  | .mboxIdentity port => Sys2Proof.Machine.execMboxIdentity port s
  | .mboxAttest port => Sys2Proof.Machine.execMboxAttest port s
  | .mboxStartLog port => Sys2Proof.Machine.execMboxStartLog port s
  | .registerWrite r offset value half => Sys2Proof.Machine.execRegisterWrite r offset value half s
  | .bar2Write r offset bytes poisoned => Sys2Proof.Machine.execBar2Write r offset bytes poisoned s
  | .bar2Read r offset x => Sys2Proof.Machine.execBar2Read r offset x s
  | .heartbeatLate port => Sys2Proof.Machine.execHeartbeatLate port s
  | .hostLost port => Sys2Proof.Machine.execHostLost port s
  | .moduleBeat => Sys2Proof.Machine.execModuleBeat s
  | .schedulerTakeover => Sys2Proof.Machine.execSchedulerTakeover s
  | .powerManagementTakeover => Sys2Proof.Machine.execPowerManagementTakeover s
  | .securityTakeover => Sys2Proof.Machine.execSecurityTakeover s
  | .standbyCoreFailure role => Sys2Proof.Machine.execStandbyCoreFailure role s
  | .clusterControlRestart c => Sys2Proof.Machine.execClusterControlRestart c s
  | .firmwareCoreRestarted role => Sys2Proof.Machine.execFirmwareCoreRestarted role s
  | .powerUp mv => Sys2Proof.Machine.execPowerUp mv s
  | .resetNAssert => Sys2Proof.Machine.execResetNAssert s
  | .inputBelowStop mv => Sys2Proof.Machine.execInputBelowStop mv s
  | .inputOvervoltage mv => Sys2Proof.Machine.execInputOvervoltage mv s
  | .evInput mv => Sys2Proof.Machine.execEvInput mv s
  | .perst port => Sys2Proof.Machine.execPerst port s
  | .hotReset port => Sys2Proof.Machine.execHotReset port s
  | .pfFlr port => Sys2Proof.Machine.execPfFlr port s
  | .vfFlr port n => Sys2Proof.Machine.execVfFlr port n s
  | .vfDisable port numVfs => Sys2Proof.Machine.execVfDisable port numVfs s
  | .d3hotEntry r => Sys2Proof.Machine.execD3hotEntry r s
  | .d0Return r => Sys2Proof.Machine.execD0Return r s
  | .msixUnmask r vec => Sys2Proof.Machine.execMsixUnmask r vec s
  | .hostCompletion port tag cpl => Sys2Proof.Machine.execHostCompletion port tag cpl s
  | .completionTimeout port tag => Sys2Proof.Machine.execCompletionTimeout port tag s
  | .smbusRead cmd => Sys2Proof.Machine.execSmbusRead cmd s
  | .hubSelftest hub pass => Sys2Proof.Machine.execHubSelftest hub pass s
  | .leadHubTimeout => Sys2Proof.Machine.execLeadHubTimeout s
  | .identityDerive hub o => Sys2Proof.Machine.execIdentityDerive hub o s
  | .bundlePullDone => Sys2Proof.Machine.execBundlePullDone s
  | .bundleVerify => Sys2Proof.Machine.execBundleVerify s
  | .powerFirmwareStart => Sys2Proof.Machine.execPowerFirmwareStart s
  | .memoryTrained failedStacks => Sys2Proof.Machine.execMemoryTrained failedStacks s
  | .configApply failedCores => Sys2Proof.Machine.execConfigApply failedCores s
  | .moduleReady => Sys2Proof.Machine.execModuleReady s
  | .startTimeout => Sys2Proof.Machine.execStartTimeout s
  | .islandTargetSet isl mhz => Sys2Proof.Machine.execIslandTargetSet isl mhz s
  | .frequencyChange isl => Sys2Proof.Machine.execFrequencyChange isl s
  | .droopDetect isl cycles => Sys2Proof.Machine.execDroopDetect isl cycles s
  | .droopEnd isl goodCycles => Sys2Proof.Machine.execDroopEnd isl goodCycles s
  | .thermalCeilingLower isl tempC => Sys2Proof.Machine.execThermalCeilingLower isl tempC s
  | .thermalCeilingRaise isl tempC => Sys2Proof.Machine.execThermalCeilingRaise isl tempC s
  | .dieShutdown u tempC => Sys2Proof.Machine.execDieShutdown u tempC s
  | .hbmOvertemp hs tempC => Sys2Proof.Machine.execHbmOvertemp hs tempC s
  | .powerBudgetDivision otherDraw => Sys2Proof.Machine.execPowerBudgetDivision otherDraw s
  | .powerMonitorSample u draw => Sys2Proof.Machine.execPowerMonitorSample u draw s
  | .capTakeEffect => Sys2Proof.Machine.execCapTakeEffect s
  | .coolantLowFlow flow => Sys2Proof.Machine.execCoolantLowFlow flow s
  | .thermalHistoryWrite meanW peakW => Sys2Proof.Machine.execThermalHistoryWrite meanW peakW s
  | .matmul p x => Sys2Proof.Machine.execMatmul p x s
  | .matmulWgrad p x => Sys2Proof.Machine.execMatmulWgrad p x s
  | .elementwise p t => Sys2Proof.Machine.execElementwise p t s
  | .reduce p t => Sys2Proof.Machine.execReduce p t s
  | .normFwd p t => Sys2Proof.Machine.execNormFwd p t s
  | .normBwd p t => Sys2Proof.Machine.execNormBwd p t s
  | .softmaxFwd p t => Sys2Proof.Machine.execSoftmaxFwd p t s
  | .softmaxBwd p t => Sys2Proof.Machine.execSoftmaxBwd p t s
  | .windowGather p t => Sys2Proof.Machine.execWindowGather p t s
  | .gatherShards p op => Sys2Proof.Machine.execGatherShards p op s
  | .reduceScatter p op => Sys2Proof.Machine.execReduceScatter p op s
  | .tieSum p t => Sys2Proof.Machine.execTieSum p t s
  | .offloadOp p t => Sys2Proof.Machine.execOffloadOp p t s
  | .restoreOp p x => Sys2Proof.Machine.execRestoreOp p x s
  | .update p op shard => Sys2Proof.Machine.execUpdate p op shard s
  | .waitToken p op => Sys2Proof.Machine.execWaitToken p op s
  | .signalToken p op => Sys2Proof.Machine.execSignalToken p op s
  | .stepMark p op => Sys2Proof.Machine.execStepMark p op s
  | .tileStart p t => Sys2Proof.Machine.execTileStart p t s
  | .shadowLoadDone eng => Sys2Proof.Machine.execShadowLoadDone eng s
  | .bankDrain eng bank => Sys2Proof.Machine.execBankDrain eng bank s
  | .stitchAdd eng bank => Sys2Proof.Machine.execStitchAdd eng bank s
  | .accUncorrectable eng bank => Sys2Proof.Machine.execAccUncorrectable eng bank s
  | .progressTimeout p => Sys2Proof.Machine.execProgressTimeout p s
  | .barrierInstant p => Sys2Proof.Machine.execBarrierInstant p s
  | .sealWrite p => Sys2Proof.Machine.execSealWrite p s
  | .shardCommit p shard => Sys2Proof.Machine.execShardCommit p shard s
  | .rollForward p => Sys2Proof.Machine.execRollForward p s
  | .chainSum p m => Sys2Proof.Machine.execChainSum p m s
  | .chainResult p m => Sys2Proof.Machine.execChainResult p m s
  | .gatherPiece p m => Sys2Proof.Machine.execGatherPiece p m s
  | .collAck p m => Sys2Proof.Machine.execCollAck p m s
  | .collAbort p m => Sys2Proof.Machine.execCollAbort p m s
  | .collectiveTimeout p op => Sys2Proof.Machine.execCollectiveTimeout p op s
  | .packetArrive l k => Sys2Proof.Machine.execPacketArrive l k s
  | .packetQueueTimeout l => Sys2Proof.Machine.execPacketQueueTimeout l s
  | .flitReceive l f => Sys2Proof.Machine.execFlitReceive l f s
  | .replayLimit l => Sys2Proof.Machine.execReplayLimit l s
  | .linkIdleTimeout l => Sys2Proof.Machine.execLinkIdleTimeout l s
  | .linkRetrain l => Sys2Proof.Machine.execLinkRetrain l s
  | .trainingRecordSend l => Sys2Proof.Machine.execTrainingRecordSend l s
  | .trainingRecord l t => Sys2Proof.Machine.execTrainingRecord l t s
  | .quarantineRetry l => Sys2Proof.Machine.execQuarantineRetry l s
  | .laneLossOfSignal l lane => Sys2Proof.Machine.execLaneLossOfSignal l lane s
  | .laneErrorRate l lane events => Sys2Proof.Machine.execLaneErrorRate l lane events s
  | .laneRecalibrate l lane => Sys2Proof.Machine.execLaneRecalibrate l lane s
  | .laneTestDone l lane uncorrectable events => Sys2Proof.Machine.execLaneTestDone l lane uncorrectable events s
  | .laneMask l mask => Sys2Proof.Machine.execLaneMask l mask s
  | .laneSwitch l => Sys2Proof.Machine.execLaneSwitch l s
  | .timeSyncSend l => Sys2Proof.Machine.execTimeSyncSend l s
  | .timeSync l m => Sys2Proof.Machine.execTimeSync l m s
  | .rootLost => Sys2Proof.Machine.execRootLost s
  | .timeLock => Sys2Proof.Machine.execTimeLock s
  | .timeHoldover => Sys2Proof.Machine.execTimeHoldover s
  | .routeSwapTakeEffect => Sys2Proof.Machine.execRouteSwapTakeEffect s
  | .oldPlaneExpire => Sys2Proof.Machine.execOldPlaneExpire s
  | .fenceTakeEffect => Sys2Proof.Machine.execFenceTakeEffect s
  | .reshapeCommitAt p => Sys2Proof.Machine.execReshapeCommitAt p s
  | .bridleStepAsideAt => Sys2Proof.Machine.execBridleStepAsideAt s
  | .grantExpire l => Sys2Proof.Machine.execGrantExpire l s
  | .bridleOpen axis => Sys2Proof.Machine.execBridleOpen axis s
  | .bridleClose axis cause => Sys2Proof.Machine.execBridleClose axis cause s
  | .joinTimeout axis => Sys2Proof.Machine.execJoinTimeout axis s
  | .loopbackDone axis pass => Sys2Proof.Machine.execLoopbackDone axis pass s
  | .hubForwardFail unit => Sys2Proof.Machine.execHubForwardFail unit s
  | .patrolScrub place errs => Sys2Proof.Machine.execPatrolScrub place errs s
  | .softRowRepair page => Sys2Proof.Machine.execSoftRowRepair page s
  | .retirementRecordWrite => Sys2Proof.Machine.execRetirementRecordWrite s
  | .descriptorStart id x => Sys2Proof.Machine.execDescriptorStart id x s
  | .descriptorTimeout id => Sys2Proof.Machine.execDescriptorTimeout id s
  | .coreFailure core cause => Sys2Proof.Machine.execCoreFailure core cause s
  | .standinBegin c => Sys2Proof.Machine.execStandinBegin c s
  | .standinEnd c => Sys2Proof.Machine.execStandinEnd c s
  | .checkRun c t => Sys2Proof.Machine.execCheckRun c t s
  | .checkDrop c t => Sys2Proof.Machine.execCheckDrop c t s
  | .arbiterCheck c t => Sys2Proof.Machine.execArbiterCheck c t s
  | .mirrorSend p shard => Sys2Proof.Machine.execMirrorSend p shard s
  | .mirrorData p m => Sys2Proof.Machine.execMirrorData p m s
  | .mirrorAck p shard version => Sys2Proof.Machine.execMirrorAck p shard version s
  | .mirrorRetry p shard => Sys2Proof.Machine.execMirrorRetry p shard s
  | .twinSuspend p => Sys2Proof.Machine.execTwinSuspend p s
  | .twinSeed p shard => Sys2Proof.Machine.execTwinSeed p shard s
  | .twinDigest p m => Sys2Proof.Machine.execTwinDigest p m s
  | .twinControl p m => Sys2Proof.Machine.execTwinControl p m s
  | .twinPairTimeout p => Sys2Proof.Machine.execTwinPairTimeout p s
  | .digestComparison p => Sys2Proof.Machine.execDigestComparison p s
  | .disagreeProcedure p shard => Sys2Proof.Machine.execDisagreeProcedure p shard s
  | .shardArrival p m => Sys2Proof.Machine.execShardArrival p m s
  | .reshapeTransferTimeout p => Sys2Proof.Machine.execReshapeTransferTimeout p s
  | .healthScoreUpdate => Sys2Proof.Machine.execHealthScoreUpdate s
  | .probationExpire => Sys2Proof.Machine.execProbationExpire s
  | .counterFoldA => Sys2Proof.Machine.execCounterFoldA s
  | .counterFoldB => Sys2Proof.Machine.execCounterFoldB s
  | .evCounterLost counter => Sys2Proof.Machine.execEvCounterLost counter s
  | .dieBridgeFailure b => Sys2Proof.Machine.execDieBridgeFailure b s
  | .vfEnable port numVfs => Sys2Proof.Machine.execVfEnable port numVfs s
  | .portConfigReady port => Sys2Proof.Machine.execPortConfigReady port s
  | .coolantInletTemperature deciC => Sys2Proof.Machine.execCoolantInletTemperature deciC s
  | .hbmTemperatureFall hs tempC => Sys2Proof.Machine.execHbmTemperatureFall hs tempC s
  | .reshapeShardAck p shard ok => Sys2Proof.Machine.execReshapeShardAck p shard ok s

end Sys2Proof.Machine
end

