-- ==== Sys2Proof/WellFormed.lean ====
section
/-! DEFINITION. Well-formed commands: operands that some agent can produce. -/

namespace Sys2Proof

/-- A command whose operands an agent can produce. A posted write into BAR2 carries at least one byte and ends
inside the aperture of 256 MiB (R53); a register write falls in the 64 KiB of BAR0, the 64 KiB of BAR4 (from
0x10000 here) or the MSI-X Message Control register (0x20000 here) (R56, R465). -/
def Instr.wf : Instr → Bool
  | .bar2Write _ off bytes _ => bytes != [] && decide (off + bytes.length ≤ 0x10000000)
  | .registerWrite _ off _ _ => decide (off < 0x20008)
  | _ => true

end Sys2Proof
end

