-- ==== Sys2Proof/Safety.lean ====
section
/-! DEFINITION. The invariants of every step and the conditions on a state, in the terms that statements use. -/

namespace Sys2Proof.Machine

/-! ### Invariants -/

/-- Every byte memory is in canonical form: device memory and what the module wrote into both hosts. -/
def State.memWf (s : State) : Bool := cellsWf s.mem.cells && cellsWf s.host0 && cellsWf s.host1

/-- Every waiting command has operands that some agent can produce. -/
def State.queueWf (s : State) : Bool := s.pending.all Instr.wf

/-! ### Conditions of statements -/

/-- The outstanding command `id` has this opcode and may start: its ring, its pavilion's state (R406) and its DEADLINE
(R85) permit it. -/
abbrev State.due (s : State) (id op : Nat) (c : Cmd) : Prop :=
  s.cmd id = some c ∧ c.opcode = op ∧ s.mayStart c = true ∧ pavGate (s.pav c.pavilion) c = none
    ∧ ((c.phase == .deferred && !s.idleWait.contains c.serial) = true ∨ s.deadlineCheck c = none)

/-- A function whose registers answer: its port is configured, it exists and it is in D0 (R31, R457, R466, R468). -/
abbrev State.live (s : State) (r : FnRef) : Prop := s.serves r = true

/-- The function may write n bytes at a (R502), and no uncorrectable code word lies there in part (R225): a command's
result lands. -/
abbrev State.takes (s : State) (c : Cmd) (a n : Nat) : Prop :=
  s.badRange c.port c.fn a n = none ∧ s.partialBad a n = none

/-- R475: t is the reset state but for the flash, the hosts' memories, what was sent and the pins. -/
def State.isResetOf (t s : State) : Prop :=
  t = { State.reset with
    pending := s.pending, freeCtr := s.freeCtr, out := s.out, flash := s.flash, host0 := s.host0, host1 := s.host1
    power := t.power }
  ∧ t.power = { (State.reset).power with inputMv := t.power.inputMv, resetN := t.power.resetN, overVolt := t.power.overVolt }

end Sys2Proof.Machine
end

