-- ==== Sys2Proof/Certificates/Slice0/Obligations.lean ====
section
/-! DEFINITION. The statements for the provers. -/

open Sys2Proof Sys2Proof.Machine

/-! ### The queue and the tick -/

/-- A step with a command at the front of the queue is that command on the state with the rest of the queue. -/
def Obligations.StepRunsFront : Prop :=
  ∀ (c : Instr) (rest : List Instr) (s : State), s.pending = c :: rest →
    step s = exec c { s with pending := rest }

/-- The model's choice (log 3): on an empty queue a step is one nanosecond of the oscillator, and of building time at
its steered rate while it runs; nothing but the time changes, and at a microsecond of building time the throttle counters
of R263. -/
def Obligations.IdleStepAdvancesClock : Prop :=
  ∀ (s : State), s.pending = [] →
    ∃ t, step s = .next t ∧ t.time.localNs = s.time.localNs + 1 ∧ t = { s with time := t.time, ctrs := t.ctrs }
      ∧ (t.time.btime / 1000 = s.time.btime / 1000 → t.ctrs = s.ctrs)
      ∧ (s.time.state = 0 → t.time.btime = s.time.btime ∧ t.time.elapsed = s.time.elapsed + 1)
      ∧ (s.time.state ≠ 0 → t.time.elapsed + s.time.btime = s.time.elapsed + t.time.btime)
      ∧ (s.time.state ≠ 0 → -1000000000 ≤ s.time.ratePpb → s.time.part < 1000000000 →
          1000000000 * (t.time.btime : Int) + t.time.part
            = 1000000000 * (s.time.btime : Int) + s.time.part + 1000000000 + s.time.ratePpb)

/-! ### Doorbells and ring sets (chapters 03 and 18) -/

/-- R63: a doorbell write within the ring of a function that answers moves its pointer. SQ_DB and EQ_DB move nothing else,
but that EQ_DB reports events that found no room; CQ_DB frees the TAGs whose final entries are consumed (R74), and the last
consumption of a held ring set releases it (R59). -/
def Obligations.DoorbellsMovePointers : Prop :=
  ∀ (r : FnRef) (v : W64) (h : Half) (n : Nat) (s : State), s.live r →
    doorbellValue v h = some n → (s.ring (fnKey r)).ready = true →
    let k := fnKey r
    let g := s.ring k
    let sq := 2 ^ g.sqLog2
    let cq := 2 ^ g.cqLog2
    let eq := 2 ^ g.eqLog2
    (n % 2 ^ 13 < sq → (g.sqTail + sq - g.sqHead) % sq + (n % 2 ^ 13 + sq - g.sqTail) % sq ≤ sq - 1 →
      exec (.sqDb r v h) s = .next (s.modRing k fun g => { g with sqTail := n % 2 ^ 13 }))
    ∧ (n % 2 ^ 14 < cq → (n % 2 ^ 14 + cq - g.cqHead) % cq ≤ (g.cqTail + cq - g.cqHead) % cq →
      let u := s.modRing k fun g => { g with
        cqHead := n % 2 ^ 14
        tags := g.tags.filter fun x => !ringWithin cq g.cqHead ((n % 2 ^ 14 + cq - g.cqHead) % cq) x.index }
      exec (.cqDb r v h) s = .next (if g.closeHold = true ∧ n % 2 ^ 14 = g.cqTail then u.releaseHold k else u)
        ∧ (u.ring k).cqHead = n % 2 ^ 14
        ∧ ((u.releaseHold k).ring k).closeHold = false ∧ ((u.releaseHold k).ring k).busy = false
        ∧ ((u.releaseHold k).ring k).ready = true)
    ∧ (n % 2 ^ 13 < eq → (n % 2 ^ 13 + eq - g.eqHead) % eq ≤ (g.eqTail + eq - g.eqHead) % eq →
      ∃ t, exec (.eqDb r v h) s = .next t ∧ (t.ring k).eqHead = n % 2 ^ 13
        ∧ (g.droppedNew = 0 → t = s.modRing k fun g => { g with eqHead := n % 2 ^ 13 }))

/-- R63: a doorbell index at or beyond the ring size, or one that moves a pointer too far, changes no pointer;
EV_DOORBELL_INVALID carries the value written. Without an allocated ring set a write does nothing. Any other write to an
allocated one moves its pointer, whether or not a session is open. -/
def Obligations.BadDoorbellsAreIgnored : Prop :=
  ∀ (r : FnRef) (v : W64) (h : Half) (n : Nat) (s : State), s.live r → doorbellValue v h = some n →
    let k := fnKey r
    let g := s.ring k
    let sq := 2 ^ g.sqLog2
    let cq := 2 ^ g.cqLog2
    let eq := 2 ^ g.eqLog2
    (g.ready = false → exec (.sqDb r v h) s = .next s ∧ exec (.cqDb r v h) s = .next s ∧ exec (.eqDb r v h) s = .next s)
    ∧ (g.ready = true → sq ≤ n % 2 ^ 13 ∨ sq - 1 < (g.sqTail + sq - g.sqHead) % sq + (n % 2 ^ 13 + sq - g.sqTail) % sq →
      exec (.sqDb r v h) s = .next (s.postRing k 0x0002 1 (pack [(8, n)])))
    ∧ (g.ready = true → cq ≤ n % 2 ^ 14 ∨ (g.cqTail + cq - g.cqHead) % cq < (n % 2 ^ 14 + cq - g.cqHead) % cq →
      exec (.cqDb r v h) s = .next (s.postRing k 0x0002 1 (pack [(8, n)])))
    ∧ (g.ready = true → eq ≤ n % 2 ^ 13 ∨ (g.eqTail + eq - g.eqHead) % eq < (n % 2 ^ 13 + eq - g.eqHead) % eq →
      exec (.eqDb r v h) s = .next (s.postRing k 0x0002 1 (pack [(8, n)])))
    ∧ (let x := s.postRing k 0x0002 1 (pack [(8, n)])
      (x.ring k).sqTail = g.sqTail ∧ (x.ring k).cqHead = g.cqHead ∧ (x.ring k).eqHead = g.eqHead)
    ∧ (g.ready = true → n % 2 ^ 13 < sq → (g.sqTail + sq - g.sqHead) % sq + (n % 2 ^ 13 + sq - g.sqTail) % sq ≤ sq - 1 →
      ∃ t, exec (.sqDb r v h) s = .next t ∧ (t.ring k).sqTail = n % 2 ^ 13)
    ∧ (g.ready = true → g.closeHold = false → n % 2 ^ 14 < cq →
      (n % 2 ^ 14 + cq - g.cqHead) % cq ≤ (g.cqTail + cq - g.cqHead) % cq →
      ∃ t, exec (.cqDb r v h) s = .next t ∧ (t.ring k).cqHead = n % 2 ^ 14)
    ∧ (g.ready = true → n % 2 ^ 13 < eq → (n % 2 ^ 13 + eq - g.eqHead) % eq ≤ (g.eqTail + eq - g.eqHead) % eq →
      ∃ t, exec (.eqDb r v h) s = .next t ∧ (t.ring k).eqHead = n % 2 ^ 13)

/-- R65, R66: a mirror write stores 64 bytes at MIRROR_ADDR with MIRROR_SEQ one higher, then sends one message on CQ_VECTOR
for the entries that are due, and one on EQ_VECTOR for new events where that is another vector; a refresh sends no message;
the end of a coalescing hold sends one message on CQ_VECTOR for every held entry. -/
def Obligations.MirrorIsWritten : Prop :=
  ∀ (r : FnRef) (s : State),
    let k := fnKey r
    let q := r.port.val
    let fn := r.fn.val
    let g := s.ring k
    let wrote := Emission.hostWrite q g.mirrorAddr (s.mirrorBytes k (g.mirrorSeq + 1))
    (g.dirty = true → s.mirrorDue k = true →
      s.memWf = true → ∃ t, exec (.mirrorWrite r) s = .next t ∧ (t.ring k).mirrorSeq = g.mirrorSeq + 1 ∧ (t.ring k).dirty = false
        ∧ (t.ring k).mirrorAt = s.clock ∧ (t.ring k).notifyNew = 0 ∧ (t.ring k).eventNew = 0
        ∧ cellsGet (t.hostMem q) g.mirrorAddr 64 = s.mirrorBytes k (g.mirrorSeq + 1)
        ∧ (∀ a, a < g.mirrorAddr ∨ g.mirrorAddr + 64 ≤ a → cellGet (t.hostMem q) a = cellGet (s.hostMem q) a)
        ∧ (g.held + g.notifyNew = 0 → g.eventNew = 0 → t.out = s.out ++ [wrote])
        ∧ (0 < g.held + g.notifyNew → g.holds (g.held + g.notifyNew) = false → (s.port q).msixOn.contains fn = true →
            (s.port q).fnMasked.contains fn = false → (s.port q).vecOpen.contains (fn, g.cqVector) = true →
            (s.port q).vecOpen.contains (fn, g.eqVector) = true →
            t.out = s.out ++ [wrote, (s.port q).message q fn g.cqVector]
              ++ (if g.eventNew = 0 ∨ g.eqVector = g.cqVector then [] else [(s.port q).message q fn g.eqVector])))
    ∧ (g.dirty = false → s.mirrorDue k = true → g.mirrorAt + 99000000 ≤ s.clock →
      ∃ t, exec (.mirrorRefresh r) s = .next t ∧ (t.ring k).mirrorSeq = g.mirrorSeq + 1
        ∧ (t.ring k).mirrorAt = s.clock ∧ t.out = s.out ++ [wrote])
    ∧ (0 < g.held → g.heldSince + 1000 * g.coalUs ≤ s.clock →
      exec (.coalesceTimeout r) s = .next ((s.modRing k fun g => { g with held := 0 }).sendMsix q fn g.cqVector))

/-- R57, R90: RINGSET_CFG with ENABLE = 1 allocates a ring set of zeroed memory with the sizes asked for and every pointer 0,
or reports why it does not; with ENABLE = 0 it frees the ring set, its memory zeroed, and in an open session first ends the
session as RING_CLOSE with ABORT = 1 does: commands that have not started end, and with none left the ring set is freed. A
write in the hold of R59 ends the hold first. The order of the errors is the model's choice (log 41). -/
def Obligations.RingSetsAreAllocatedAndFreed : Prop :=
  ∀ (r : FnRef) (eq cq sq : BitVec 4) (s : State), s.live r → s.roleUp 0 = true →
    let k := fnKey r
    let u := if (s.ring k).closeHold = true then s.endHold k else s
    let w := u.writeCfg k true eq cq sq
    let zeroed := fun (t : State) (a : Nat) => ∀ x, a ≤ x → x < a + ringBytes + stagingBytes → cellGet t.mem.cells x = 0
    ((u.ring k).isOpen = true ∨ (u.ring k).draining = true ∨ (u.ring k).busy = true →
      exec (.ringsetCfgEnable r eq cq sq) s = .next (u.modRing k fun g => { g with error := 5 }))
    ∧ ((u.ring k).isOpen = false → (u.ring k).draining = false → (u.ring k).busy = false →
      (u.boot.stage < 9 → exec (.ringsetCfgEnable r eq cq sq) s = .next (w.modRing k fun g => { g with error := 2 }))
      ∧ (9 ≤ u.boot.stage → r.fn.val ≠ 0 → u.pav (r.fn.val - 1) = none →
        exec (.ringsetCfgEnable r eq cq sq) s = .next (w.modRing k fun g => { g with error := 3 }))
      ∧ (9 ≤ u.boot.stage → (r.fn.val = 0 ∨ (u.pav (r.fn.val - 1)).isSome = true) →
        (validSizes eq.toNat cq.toNat sq.toNat = false →
          exec (.ringsetCfgEnable r eq cq sq) s = .next (w.modRing k fun g => { g with error := 1 }))
        ∧ (validSizes eq.toNat cq.toNat sq.toNat = true →
          ((w.freeRing k).allocRing r.port.val r.fn.val = none →
            exec (.ringsetCfgEnable r eq cq sq) s = .next ((w.freeRing k).modRing k fun g => { g with error := 4 }))
          ∧ (∀ a x, (w.freeRing k).allocRing r.port.val r.fn.val = some (a, x) →
            ∃ t, exec (.ringsetCfgEnable r eq cq sq) s = .next t
              ∧ (t.ring k).ready = true ∧ (t.ring k).enable = true ∧ (t.ring k).error = 0 ∧ (t.ring k).isOpen = false
              ∧ (t.ring k).sqLog2 = sq.toNat ∧ (t.ring k).cqLog2 = cq.toNat ∧ (t.ring k).eqLog2 = eq.toNat
              ∧ (t.ring k).sqHead = 0 ∧ (t.ring k).sqTail = 0 ∧ (t.ring k).cqHead = 0 ∧ (t.ring k).cqTail = 0
              ∧ (t.ring k).eqHead = 0 ∧ (t.ring k).eqTail = 0
              ∧ (t.ring k).base = a ∧ (t.ring k).staging = a + stagingOffset ∧ zeroed t a))))
    ∧ ((u.ring k).draining = true ∨ (u.ring k).busy = true →
      exec (.ringsetCfgDisable ⟨r, eq, cq, sq⟩) s = .next (u.modRing k fun g => { g with error := 5 }))
    ∧ ((u.ring k).draining = false → (u.ring k).busy = false →
      ((u.ring k).isOpen = false → ∃ t, exec (.ringsetCfgDisable ⟨r, eq, cq, sq⟩) s = .next t
        ∧ (t.ring k).ready = false ∧ (t.ring k).enable = false ∧ (t.ring k).isOpen = false
        ∧ ((u.ring k).ready = true → zeroed t (u.ring k).base)
        ∧ ∀ c ∈ t.cmds, c.key = k → c.orphan = true)
      ∧ ((u.ring k).isOpen = true → ∃ t, exec (.ringsetCfgDisable ⟨r, eq, cq, sq⟩) s = .next t ∧ (t.ring k).enable = false
        ∧ (∀ c ∈ t.cmds, c.key = k → c.phase = .started ∨ c.orphan = true)
        ∧ ((∀ c ∈ s.cmds, c.key = k → c.orphan = true) → (t.ring k).ready = false ∧ (t.ring k).isOpen = false)))

/-- R58, R59: RING_OPEN opens the session with a new epoch and its settings. RING_CLOSE, the last command of its ring,
closes the session into the hold of R59; with other commands of the ring left and ABORT = 0 it waits, and with ABORT = 1
those that have not started end. -/
def Obligations.SessionsOpenAndClose : Prop :=
  ∀ (id : Nat) (c : Cmd) (s : State),
    let g := s.ring c.key
    (s.due id 0x0001 c → g.isOpen = false → g.closing = none → g.draining = false →
      c.word 0 % 64 = 0 → c.word 0 ≠ 0 → bits (c.word 1) 7 0 < 64 → bits (c.word 1) 15 8 < 64 →
      (c.expert = true → 1 ≤ bits (c.word 2) 47 32 ∧ bits (c.word 2) 47 32 ≤ 1024) →
      ∃ t, exec (.ringOpen id) s = .next t ∧ t.cmd id = none
        ∧ (t.ring c.key).isOpen = true ∧ (t.ring c.key).epoch = g.epoch + 1
        ∧ (t.ring c.key).mirrorAddr = c.word 0
        ∧ (t.ring c.key).cqVector = bits (c.word 1) 7 0 ∧ (t.ring c.key).eqVector = bits (c.word 1) 15 8
        ∧ (t.ring c.key).outMax = (if c.expert = true then bits (c.word 2) 47 32 else 1024)
        ∧ (c.expert = true → (t.ring c.key).coalUs = bits (c.word 2) 31 16 ∧ (t.ring c.key).coalCount = bits (c.word 2) 15 0)
        ∧ (c.expert = false → (t.ring c.key).coalUs = 0 ∧ (t.ring c.key).eventMask = 0xFFFF))
    ∧ (s.due id 0x0002 c → g.closing = some id → g.draining = false → c.orphan = false →
      ((∀ x ∈ s.cmds, x.key = c.key → x.serial ≠ id → x.orphan = true) →
        ∃ t, exec (.ringClose id) s = .next t ∧ t.cmd id = none ∧ (t.ring c.key).isOpen = false
          ∧ (t.ring c.key).busy = true ∧ (t.ring c.key).closeHold = true ∧ (t.ring c.key).closing = none)
      ∧ (((c.expert && bitAt (c.word 0) 0) = false) → (∃ x ∈ s.cmds, x.key = c.key ∧ x.serial ≠ id ∧ x.orphan = false) →
        exec (.ringClose id) s = .next (s.started c))
      ∧ (((c.expert && bitAt (c.word 0) 0) = true) → ∃ t, exec (.ringClose id) s = .next t
        ∧ ∀ x ∈ t.cmds, x.key = c.key → x.serial ≠ id → x.phase = .started ∨ x.orphan = true))

/-- R81, R87, R88, R419: HEARTBEAT reports liveness and, like a write of HOST_HEARTBEAT on a physical function, counts
for its port. 2.5 s of silence post EV_HEARTBEAT_LATE, 5 s declare the host lost, and MODULE_BEAT rises every 100 ms. -/
def Obligations.HeartbeatsKeepHostsAlive : Prop :=
  ∀ (s : State),
    (∀ (id : Nat) (c : Cmd), s.due id 0x0003 c →
      let u := if c.fn = 0 then s.heartbeat c.port else s
      exec (.heartbeat id) s = .next (u.finish c (pack [(8, u.beat.toNat), (8, (u.port c.port).lastBeat),
        (4, u.outstanding c.key), (1, u.boot.leadHub), (3, 0), (8, if c.expert = true then c.word 0 else 0)]))
      ∧ (c.fn = 0 → (u.port c.port).lastBeat = s.now ∧ (u.port c.port).lost = false))
    ∧ (∀ (r : FnRef), s.live r → (r.fn.val = 0 →
        ∃ t, exec (.hostHeartbeat r) s = .next t ∧ (t.port r.port.val).lastBeat = s.now
          ∧ (t.port r.port.val).lastBeatLocal = s.clock ∧ (t.port r.port.val).lost = false
          ∧ (t.port r.port.val).latePosted = false ∧ t.mem = s.mem ∧ t.pavs = s.pavs)
      ∧ (r.fn.val ≠ 0 → exec (.hostHeartbeat r) s = .next s))
    ∧ (∀ (q : Fin 2), 9 ≤ s.boot.stage → (s.port q.val).lost = false →
      ((s.port q.val).latePosted = false → 2500000000 ≤ s.silence q.val →
        exec (.heartbeatLate q) s
          = .next ((s.modPort q.val fun p => { p with latePosted := true }).postRing (ringKey q.val 0) 0x0003 1 []))
      ∧ (5000000000 ≤ s.silence q.val →
        ∃ t, exec (.hostLost q) s = .next t ∧ (t.port q.val).lost = true))
    ∧ (s.roleUp 2 = true → s.beatAt + 100000000 ≤ s.clock →
      exec .moduleBeat s = .next { s with beat := s.beat + 1, beatAt := s.clock })

/-- R64, R71, R73, R84, R85: a slot is read when R64 permits it: two completion entries are reserved and the command, its
header checked, becomes outstanding; a header that fails is rejected. At a step boundary the first deferred command may
start, unless its DEADLINE has passed. A final entry goes to CQ_TAIL, gives back its reserved entries and ends the
command. -/
def Obligations.CommandsAreReadAndCompleted : Prop :=
  (∀ (r : FnRef) (s : State), s.mayRead (fnKey r) = true →
    let k := fnKey r
    let g := s.ring k
    let a := g.base + 256 * g.sqHead
    let c0 := parseHeader (s.readMem a 256) s.nextCmd r.port.val r.fn.val g.sqHead
    let u := { s with nextCmd := s.nextCmd + 1 }.modRing k fun g => { g with
      sqHead := (g.sqHead + 1) % 2 ^ g.sqLog2, reserved := g.reserved + 2, dirty := true }
    s.badRead a 256 = none →
      (∀ c, s.checkHeader c0 (s.readMem a 256) = .ok c →
        ∃ t, exec (.commandRead r) s = .next t ∧ t.cmds = s.cmds ++ [{ c with hot := s.isHot c }]
          ∧ t.nextCmd = s.nextCmd + 1 ∧ t.mem = s.mem ∧ t.pavs = s.pavs
          ∧ (t.ring k).sqHead = (g.sqHead + 1) % 2 ^ g.sqLog2 ∧ (t.ring k).reserved = g.reserved + 2
          ∧ (t.ring k).closing = (if c.opcode = 0x0002 then some c.serial else g.closing))
      ∧ (∀ e, s.checkHeader c0 (s.readMem a 256) = .error e → e.code ≠ 0x0202 →
        exec (.commandRead r) s = .next ({ u with cmds := s.cmds ++ [c0] }.reject c0 e)))
  ∧ ∀ (p : Fin 8) (c : Cmd) (s : State), (s.pav p.val).any (·.atBoundary) = true →
      (s.cmds.all fun x => !(x.phase == .deferred && x.pavilion == p.val && x.atBoundary)) = true →
      ((s.dueDeferred p.val).find? fun c => !((s.pav p.val).any (·.parking) && c.opcode == 0x0121)) = some c →
      (c.hot || s.roleUp 2) = true →
      (s.deadlineCheck c = none →
        exec (.deferredCommandStart p) s = .next (s.modCmd c.serial fun c => { c with atBoundary := true }))
      ∧ (∀ e, s.deadlineCheck c = some e → exec (.deferredCommandStart p) s = .next (s.reject c e))
  ∧ ∀ (c : Cmd) (status detail : Nat) (result : List Byte) (s : State), c.orphan = false → s.memWf = true →
      let g := s.ring c.key
      let a := g.base + cqOffset + 64 * g.cqTail
      g.closing = none → g.draining = false → (∀ p ∈ s.mem.retired, overlaps p 4096 a 64 = false) →
      let t := s.complete c status detail result
      t.readMem a 64 = completionBytes c.tag status detail s.now result
        ∧ (t.ring c.key).cqTail = (g.cqTail + 1) % 2 ^ g.cqLog2 ∧ (t.ring c.key).reserved = g.reserved - c.reserved
        ∧ t.cmd c.serial = none

/-! ### The host's view of a function (chapter 18) -/

/-- R54, R55, R461, R463: a host write into the submission ring or the staging area lands in the module's memory byte by
byte and nowhere else, one to any other part of BAR2 is ignored, and a read returns what is stored, or 0 elsewhere in
BAR2, or ends with Completer Abort where a word cannot be read; a poisoned write is discarded and reported, a write past
the aperture is discarded, and an unallocated ring set ignores writes and reads as zero. -/
def Obligations.ApertureServesTheHost : Prop :=
  (∀ (r : FnRef) (off : Nat) (s : State), s.live r → s.memWf = true →
     let g := s.ring (fnKey r)
     g.ready = true → g.staging = g.base + stagingOffset →
     (∀ (bytes : List Byte), off + bytes.length ≤ 256 * mib →
       (∀ i, i < bytes.length → g.writable (off + i) = true) →
       s.partialBad (g.base + off) bytes.length = none →
       (∀ p ∈ s.mem.retired, overlaps p 4096 (g.base + off) bytes.length = false) →
       ∃ t, exec (.bar2Write r off bytes false) s = .next t
         ∧ cellsGet t.mem.cells (g.base + off) bytes.length = bytes
         ∧ (∀ a, a < g.base + off ∨ g.base + off + bytes.length ≤ a → cellGet t.mem.cells a = cellGet s.mem.cells a)
         ∧ t.rings = s.rings ∧ t.pavs = s.pavs ∧ t.cmds = s.cmds)
     ∧ (∀ (bytes : List Byte), bytes ≠ [] → off + bytes.length ≤ 256 * mib →
       (∀ i, i < bytes.length → g.writable (off + i) = false) →
       exec (.bar2Write r off bytes false) s = .next (s.discardWrite r))
     ∧ ((s.discardWrite r).mem = s.mem ∧ (s.discardWrite r).rings = s.rings)
     ∧ (∀ x, g.writable x = true ↔ x < 256 * 2 ^ g.sqLog2 ∨ 0x200000 ≤ x)
     ∧ (∀ (len : Nat) (errs : MemErrors), 0 < len → len ≤ 4096 → off + len ≤ 256 * mib →
       let u := s.meetIn errs (g.base + off) len
       (errs = [] → u = s)
       ∧ (u.badRead (g.base + off) len = none →
         exec (.bar2Read r off ⟨len, errs⟩) s = .next (u.emit (.readData r.port.val r.fn.val ((List.range len).map fun i =>
           if g.readable (off + i) = true then cellGet u.mem.cells (g.base + off + i) else 0))))
       ∧ (∀ w, u.badRead (g.base + off) len = some w →
         exec (.bar2Read r off ⟨len, errs⟩) s = .next ((u.memError w 1).emit (.completerAbort r.port.val r.fn.val)))))
  ∧ ∀ (r : FnRef) (off : Nat) (bytes : List Byte) (s : State), s.live r →
    let q := r.port.val
    let fn := r.fn.val
    (off + bytes.length ≤ 256 * mib → exec (.bar2Write r off bytes true) s = .next (s.emit (.poisonedReceived q fn)))
    ∧ (∀ b, 256 * mib < off + bytes.length → exec (.bar2Write r off bytes b) s = .next (s.discardWrite r))
    ∧ ((s.ring (fnKey r)).ready = false → off + bytes.length ≤ 256 * mib → exec (.bar2Write r off bytes false) s = .next s)
    ∧ (∀ len errs, (s.ring (fnKey r)).ready = false → 0 < len → len ≤ 4096 → off + len ≤ 256 * mib →
      exec (.bar2Read r off ⟨len, errs⟩) s = .next (s.emit (.readData q fn (List.replicate len 0))))

/-- R6, R90, R441, R443, R465: the boot registers and the mailbox buffer take what is written, in full or by halves, the
buffer and MBOX_CTRL while security firmware serves BAR0; GO takes the request as it then stands; MSI-X table entries and masks
are written; and a vector that is unmasked sends its pending message with the entry's address and data. -/
def Obligations.RegistersTakeWrites : Prop :=
  ∀ (r : FnRef) (v : W64) (h : Half) (s : State), s.live r →
    let q := r.port.val
    let fn := r.fn.val
    let same := fun (t : State) => t.mem = s.mem ∧ t.rings = s.rings ∧ t.pavs = s.pavs
    (fn = 0 →
      (∃ t, exec (.registerWrite r 0x0020 v h) s = .next t
        ∧ (t.bootPort q).bundleAddr = BitVec.ofNat 64 (mergeHalf (s.bootPort q).bundleAddr.toNat v.toNat h) ∧ same t)
      ∧ (∃ t, exec (.registerWrite r 0x0028 v h) s = .next t
        ∧ (t.bootPort q).bundleBytes = BitVec.ofNat 32 (mergeHalf (s.bootPort q).bundleBytes.toNat v.toNat h) ∧ same t)
      ∧ (s.boot.fwRunning = true → s.roleUp 0 = true →
        (∀ o, o < 4096 → o % 8 = 0 → ∃ t, exec (.registerWrite r (0x1000 + o) v h) s = .next t
          ∧ field (t.mbox q).out o 8 = mergeHalf (field (s.mbox q).out o 8) v.toNat h ∧ same t)
        ∧ (h = .full → ∃ t, exec (.registerWrite r 0x3000 v h) s = .next t
          ∧ (t.mbox q).reqLen = BitVec.ofNat 16 (bits v.toNat 47 32)
          ∧ (t.mbox q).request = BitVec.ofNat 8 (bits v.toNat 23 16)
          ∧ (bitAt v.toNat 0 = false → (t.mbox q).busy = (s.mbox q).busy
              ∧ (t.mbox q).done = ((s.mbox q).done && !bitAt v.toNat 1))
          ∧ (bitAt v.toNat 0 = true → (s.mbox q).busy = true → (t.mbox q).result = 4)
          ∧ (bitAt v.toNat 0 = true → (s.mbox q).busy = false → bits v.toNat 23 16 ∈ [1, 2, 3] →
              (t.mbox q).busy = true ∧ (t.mbox q).curReq = bits v.toNat 23 16 ∧ (t.mbox q).curLen = bits v.toNat 47 32
              ∧ (t.mbox q).curOut = slice (s.mbox q).out 0 36)
          ∧ same t)))
    ∧ (∀ vec, vec < 64 → bitAt v.toNat 32 = true → h = .full →
      ∃ t, exec (.registerWrite r (0x18008 + 16 * vec) v h) s = .next t
        ∧ (t.port q).vecOpen = (s.port q).vecOpen.filter (· != (fn, vec)) ∧ t.out = s.out)
    ∧ (∀ vec, vec < 64 → h ≠ .high →
      (∃ t, exec (.registerWrite r (0x18000 + 16 * vec) v h) s = .next t ∧ t.out = s.out
        ∧ (t.port q).message q fn vec = .msix q fn vec (mergeHalf (tget (s.port q).msixTable (vecKey fn vec) 0) v.toNat h)
            (tget (s.port q).msixTable (vecKey fn vec + 1) 0))
      ∧ ∃ t, exec (.registerWrite r (0x18008 + 16 * vec) v h) s = .next t
        ∧ (t.port q).message q fn vec = .msix q fn vec (tget (s.port q).msixTable (vecKey fn vec) 0) (v.toNat % 2 ^ 32))
    ∧ (∀ vec : Fin 64, (s.port q).vecPending.contains (fn, vec.val) = true → (s.port q).msixOn.contains fn = true →
      (s.port q).fnMasked.contains fn = false → s.canSend q fn = true →
      ∃ t, exec (.msixUnmask r vec) s = .next t ∧ t.out = s.out ++ [(s.port q).message q fn vec.val]
        ∧ (t.port q).vecPending = (s.port q).vecPending.filter (· != (fn, vec.val))
        ∧ (t.port q).vecOpen.contains (fn, vec.val) = true)

/-- R459, R468, R457: VF_ENABLE sets NumVFs, limited to 8, and to 7 without ARI; VF_DISABLE removes the virtual functions
above a smaller number: their registers no longer answer, the ring set of each is disabled, and freed where no command of
it is outstanding, and no pavilion is reset. D3HOT_ENTRY silences a function, whose registers no longer answer; D0_RETURN
brings it back with its ring set and session kept and a mirror due. PORT_CONFIG_READY: a powered port answers from stage 2
on. -/
def Obligations.FunctionsComeAndGo : Prop :=
  ∀ (q : Fin 2) (s : State),
    (∀ n, exec (.vfEnable q n) s = .next (s.modPort q.val fun p => { p with
      vfEnable := true, numVfs := min n (if p.ari = true then 8 else 7) }))
    ∧ (∀ n, let keep := min n (s.port q.val).numVfs
      ∃ t, exec (.vfDisable q n) s = .next t
        ∧ (t.port q.val).numVfs = keep ∧ (t.port q.val).vfEnable = ((s.port q.val).vfEnable && keep != 0)
        ∧ (∀ m, keep < m → m < 9 → t.present q.val m = false ∧ (t.ring (ringKey q.val m)).enable = false
          ∧ ((∀ c ∈ s.cmds, c.key = ringKey q.val m → c.orphan = true) →
              (t.ring (ringKey q.val m)).ready = false ∧ (t.ring (ringKey q.val m)).isOpen = false))
        ∧ (∀ p, (t.pav p).map (fun v => (v.run, v.handles, v.data, v.stopped))
            = (s.pav p).map fun v => (v.run, v.handles, v.data, v.stopped)))
    ∧ (∀ (r : FnRef),
      (∃ t, exec (.d3hotEntry r) s = .next t ∧ t = s.modPort r.port.val (fun p => { p with d3 := (t.port r.port.val).d3 })
        ∧ (t.port r.port.val).d3.contains r.fn.val = true ∧ ¬ t.live r ∧ t.canSend r.port.val r.fn.val = false
        ∧ ∀ m, m ≠ r.fn.val → (t.port r.port.val).d3.contains m = (s.port r.port.val).d3.contains m)
      ∧ (∃ t, exec (.d0Return r) s = .next t ∧ (t.port r.port.val).d3.contains r.fn.val = false
        ∧ (∀ m, m ≠ r.fn.val → (t.port r.port.val).d3.contains m = (s.port r.port.val).d3.contains m)
        ∧ t.ring (fnKey r) = { s.ring (fnKey r) with dirty := (s.ring (fnKey r)).dirty || (s.ring (fnKey r)).isOpen }
        ∧ t.cmds = s.cmds ∧ t.mem = s.mem ∧ t.pavs = s.pavs))
    ∧ (s.power.pwrGood = true → 2 ≤ s.boot.stage →
      exec (.portConfigReady q) s = .next (s.modPort q.val fun p => { p with cfgReady := true }))

/-- R90, R91, R413: FRESET reports its TARGET with status 0, with 0xFFFF while a firmware core restarts, or with the
status that turns it away; an engine named by it loses its registers. ESTOP stops every pavilion of its scope. -/
def Obligations.FresetAndEstopAct : Prop :=
  ∀ (r : FnRef) (s : State), s.live r → s.boot.fwRunning = true → s.boot.lostRoles.contains 0 = false →
    s.roleUp 0 = true →
    (∀ (x : BitVec 16), (∀ e, s.fresetRej r.fn.val x.toNat = some e →
        exec (.freset r x) s = .next (s.modRing (fnKey r) fun g => { g with frTarget := x.toNat, frStatus := e }))
      ∧ (s.fresetRej r.fn.val x.toNat = none →
        ∃ t, exec (.freset r x) s = .next t ∧ (t.ring (fnKey r)).frTarget = x.toNat
          ∧ ((t.ring (fnKey r)).frStatus = 0 ∨ (t.ring (fnKey r)).frStatus = 0xFFFF ∧ x.toNat / 4096 = 0xB)
          ∧ (x.toNat / 4096 = 4 → x.toNat % 4096 < 384 → t.engine (x.toNat % 4096) = {})))
    ∧ (∃ t, exec (.estop r 0xE5E5) s = .next t ∧ ∀ p ∈ stopScope r.fn.val, ∀ v, t.pav p = some v → v.stopped = true)
    ∧ (∀ a : BitVec 16, a ≠ 0xE5E5 → exec (.estop r a) s = .next s)

/-- R467, R414: a reset of a port frees its nine ring sets; a function-level reset of a physical function frees its own
ring set and removes the virtual functions; that of a virtual function resets its pavilion and frees its ring set. -/
def Obligations.PortResetsFreeRingSets : Prop :=
  ∀ (q : Fin 2) (s : State),
    (∃ t, exec (.perst q) s = .next t ∧ (∀ n, n < 9 → (t.ring (ringKey q.val n)).ready = false)
      ∧ (t.port q.val).vfEnable = false ∧ (t.port q.val).numVfs = 0)
    ∧ (∃ t, exec (.hotReset q) s = .next t ∧ (∀ n, n < 9 → (t.ring (ringKey q.val n)).ready = false)
      ∧ (t.port q.val).vfEnable = false ∧ (t.port q.val).numVfs = 0)
    ∧ (∃ t, exec (.pfFlr q) s = .next t ∧ (t.ring (ringKey q.val 0)).ready = false
      ∧ (t.port q.val).vfEnable = false ∧ (t.port q.val).numVfs = 0)
    ∧ (∀ n : Fin 8, s.present q.val (n.val + 1) = true →
      ∃ t, exec (.vfFlr q n) s = .next t ∧ (t.ring (ringKey q.val (n.val + 1))).ready = false
        ∧ ∀ v, t.pav n.val = some v → v.stopped = false ∧ v.data = [])

/-! ### Power, start and identity (chapters 17 and 19) -/

/-- R472 to R475, R489: RESET_N, an input below the stop threshold and an over-voltage each reset the module; PWR_GOOD
starts it at stage 1 with everything but the flash as after reset; EV_INPUT reports an excursion of 100 ms. -/
def Obligations.PowerStartsAndStopsTheModule : Prop :=
  ∀ (mv : Nat) (s : State),
    (s.power.pwrGood = false → 39000 < mv → mv < 61000 →
      ∃ t, exec (.powerUp mv) s = .next t ∧ t.boot.stage = 1 ∧ t.power.pwrGood = true ∧ t.power.inputMv = mv
        ∧ t.mem = {} ∧ t.pavs = [] ∧ t.rings = [] ∧ t.cmds = [] ∧ t.ledger = {} ∧ t.route = {} ∧ t.links = [] ∧ t.axes = []
        ∧ t.boot.loaded = false ∧ t.boot.bundle = none ∧ t.boot.hasIdentity = false ∧ t.flash.retire = s.flash.retire
        ∧ t.flash.starts = s.flash.starts ∧ t.time = {})
    ∧ (∃ t, exec .resetNAssert s = .next t ∧ t.isResetOf s ∧ t.power.resetN = false)
    ∧ (mv < 37000 → ∃ t, exec (.inputBelowStop mv) s = .next t ∧ t.isResetOf s ∧ t.power.inputMv = mv)
    ∧ (37000 ≤ mv → exec (.inputBelowStop mv) s = .next s)
    ∧ (62000 < mv → ∃ t, exec (.inputOvervoltage mv) s = .next t ∧ t.isResetOf s ∧ t.power.overVolt = true)
    ∧ (s.power.pwrGood = true →
      let u := s.modPower fun p => { p with inputMv := mv }
      (40000 ≤ mv → mv ≤ 60000 →
        exec (.evInput mv) s = .next (u.modPower fun p => { p with inputBadSince := none, evInputPosted := false }))
      ∧ (mv < 40000 ∨ 60000 < mv → s.power.inputBadSince = none →
        exec (.evInput mv) s = .next (u.modPower fun p => { p with inputBadSince := some s.clock }))
      ∧ (∀ b, mv < 40000 ∨ 60000 < mv → s.power.inputBadSince = some b → s.power.evInputPosted = false →
        b + 100000000 ≤ s.clock →
        exec (.evInput mv) s = .next ((u.modPower fun p => { p with evInputPosted := true }).postModule 0x0A05 1 0xFFFF
          (pack [(1, if mv < 40000 then 1 else 2), (1, 0), (2, mv)]))))

/-- R28, R430, R431, R439, R444: the lead hub is chosen once both self-tests have an outcome, Hub W when it passes within
200 ms; the identity ends stage 3 with a new start record, and a failed derivation reports 0x000B on both ports. -/
def Obligations.LeadHubAndIdentity : Prop :=
  ∀ (s : State),
    (∀ (h : Fin 2) (pass o : Bool), s.boot.stage = 1 → lookupHub s.boot.hubTested h.val = none →
      lookupHub s.boot.hubTested (1 - h.val) = some o →
      let ok := pass && (h.val == 1 || decide (s.clock ≤ s.boot.hubResetAt + 200000000))
      let west := if h.val = 0 then ok else o
      (ok || o) = true →
      ∃ t, exec (.hubSelftest h pass) s = .next t ∧ t.boot.stage = 2 ∧ t.boot.leadHub = (if west = true then 0 else 1)
        ∧ t.boot.roleHub = [t.boot.leadHub, t.boot.leadHub, t.boot.leadHub])
    ∧ (s.boot.stage = 1 → lookupHub s.boot.hubTested 0 = none → lookupHub s.boot.hubTested 1 = some true →
      s.boot.hubResetAt + 200000000 ≤ s.clock →
      ∃ t, exec .leadHubTimeout s = .next t ∧ t.boot.stage = 2 ∧ t.boot.leadHub = 1)
    ∧ (∀ (h : Fin 2), h.val = s.boot.leadHub → s.boot.stage = 2 →
      (∃ t, exec (.identityDerive h .ok) s = .next t ∧ t.boot.stage = 3 ∧ t.boot.hasIdentity = true
        ∧ t.flash.starts.count = s.flash.starts.count + 1 ∧ t.flash.starts.error = s.flash.prev.error
        ∧ t.flash.starts.stage = s.flash.prev.stage ∧ t.flash.retire = s.flash.retire)
      ∧ (∀ o, o ≠ .ok → ∃ t, exec (.identityDerive h o) s = .next t ∧ t.boot.stage = 2
        ∧ (t.bootPort 0).error = 0x000B ∧ (t.bootPort 1).error = 0x000B ∧ t.boot.hasIdentity = s.boot.hasIdentity))

/-- R439 to R442: a LOAD in stage 3 with a good address and length starts the pull; a complete pull ends stage 4; a
bundle that passes R435 ends stage 5, one that fails returns its error; ABANDON leaves stage 3 with error 0x000E. -/
def Obligations.BundleIsPulledAndVerified : Prop :=
  ∀ (q : Fin 2) (s : State),
    (s.boot.stage = 3 → s.boot.hasIdentity = true → s.boot.loaded = false → s.boot.loadPort = none →
      (s.bootPort q.val).bundleAddr.toNat % 4096 = 0 → 256 ≤ (s.bootPort q.val).bundleBytes.toNat →
      (s.bootPort q.val).bundleBytes.toNat ≤ 33554432 →
      ∃ t, exec (.load q) s = .next t ∧ t.boot.loadPort = some q.val ∧ (t.bootPort q.val).busy = true
        ∧ (t.bootPort q.val).error = 0
        ∧ t.out = s.out ++ [.hostRead q.val (s.port q.val).nextTag (s.bootPort q.val).bundleAddr.toNat
            (min (s.bootPort q.val).bundleBytes.toNat 4096)])
    ∧ (s.boot.loadPort = some q.val → s.boot.stage ≤ 4 →
      ∃ t, exec (.abandon q) s = .next t ∧ t.boot.stage = 3 ∧ t.boot.loadPort = none
        ∧ (t.bootPort q.val).error = 0x000E ∧ (t.bootPort q.val).failed = true
        ∧ ∀ a, dieStoreAddr s.boot.stagingDie ≤ a → a < dieStoreAddr s.boot.stagingDie + 0x2000000 → cellGet t.mem.cells a = 0)
    ∧ (s.boot.loadPort = some q.val → s.boot.stage = 3 →
      (s.bootPort q.val).bytesDone = (s.bootPort q.val).bundleBytes.toNat →
      exec .bundlePullDone s = .next (s.setStage 4))
    ∧ (s.boot.loadPort = some q.val → s.boot.stage = 4 →
      let l := s.readMem (dieStoreAddr s.boot.stagingDie) (s.bootPort q.val).bundleBytes.toNat
      match verifyBundle l with
      | .ok b => ∃ t, exec .bundleVerify s = .next t ∧ t.boot.stage = 5 ∧ t.boot.bundle = some b ∧ t.boot.fwRunning = true
        ∧ (t.bootPort q.val).busy = false ∧ t.mem = s.mem
      | .error e => ∃ t, exec .bundleVerify s = .next t ∧ t.boot.stage = 3 ∧ (t.bootPort q.val).error = e
        ∧ t.boot.fwRunning = s.boot.fwRunning ∧ t.boot.bundle = none)

/-- R439, R437, R421, R442: the stages 6 to 9: nominal island targets, trained memory with the staging area zeroed or a
start that ends where every stack of the staging die failed, the configuration and the retirement list applied, the module
ready; a late start returns to stage 3 with error 0x000D. -/
def Obligations.StagesSixToNine : Prop :=
  ∀ (s : State),
    (s.boot.stage = 5 → ∃ t, exec .powerFirmwareStart s = .next t ∧ t.boot.stage = 6
      ∧ (∀ i, t.isle i = { s.isle i with targetMhz := nominalMhz i }) ∧ t.mem = s.mem)
    ∧ (∀ f : BitVec 32, s.boot.stage = 6 →
      ((List.range 4).all (fun i => (maskBits 32 f.toNat).contains (4 * s.boot.stagingDie + i)) = false →
        ∃ t, exec (.memoryTrained f) s = .next t ∧ t.boot.stage = 7 ∧ t.route.lostStacks = maskBits 32 f.toNat
          ∧ ∀ a, dieStoreAddr s.boot.stagingDie ≤ a → a < dieStoreAddr s.boot.stagingDie + 0x2000000 → cellGet t.mem.cells a = 0)
      ∧ ((List.range 4).all (fun i => (maskBits 32 f.toNat).contains (4 * s.boot.stagingDie + i)) = true →
        ∃ t, exec (.memoryTrained f) s = .next t ∧ t.boot.stage = 3 ∧ t.boot.fwRunning = false
          ∧ (t.bootPort (s.boot.loadPort.getD 0)).error = 0x000C))
    ∧ (∀ (b : Bundle) (bad : List (Fin 192)), s.boot.bundle = some b → s.boot.stage = 7 →
      ∃ t, exec (.configApply bad) s = .next t ∧ t.boot.stage = 8 ∧ t.power.capW = b.capW ∧ t.power.windowMs = 1000
        ∧ t.mem.retired = startRetired s.flash.retire
        ∧ ∀ c, c < 32 → (t.cluster c).inService = !b.clusterDisable.testBit c ∧ (t.cluster c).rateLog2 = b.rateLog2)
    ∧ (s.boot.stage = 8 → (∀ a, a < 3 → (s.axis a).loopAt.isSome = true) →
      ∃ t, exec .moduleReady s = .next t ∧ t.boot.stage = 9 ∧ t.boot.stage9Local = s.clock ∧ t.mem = s.mem)
    ∧ (5 ≤ s.boot.stage → s.boot.stage < 9 → s.boot.loadAt + 90000000000 ≤ s.clock →
      ∃ t, exec .startTimeout s = .next t ∧ t.boot.stage = 3 ∧ t.boot.fwRunning = false ∧ t.pavs = []
        ∧ (t.bootPort (s.boot.loadPort.getD 0)).error = 0x000D)

/-- R443, R444: the mailbox answers IDENTITY, ATTEST and START_LOG with the piece of the object from OFFSET on. A new
NONCE makes one new signed report; with the same NONCE the report made for it is served on. -/
def Obligations.MailboxServesObjects : Prop :=
  ∀ (q : Fin 2) (s : State),
    let m := s.mbox q.val
    let off := field m.curOut 0 4
    let nonce := slice m.curOut 4 32
    let fresh := s.signedReport (s.reportBody nonce none false)
    let served := fun (t : State) (l : List Byte) =>
      (t.mbox q.val).result = 0 ∧ (t.mbox q.val).done = true ∧ (t.mbox q.val).busy = false
        ∧ (t.mbox q.val).inp = (l.drop off).take 4096 ∧ (t.mbox q.val).respLen = ((l.drop off).take 4096).length
    (s.mboxReady q.val 1 = true → 4 ≤ m.curLen → off < identityObject.length →
      ∃ t, exec (.mboxIdentity q) s = .next t ∧ served t identityObject)
    ∧ (s.mboxReady q.val 2 = true → s.boot.attestBlocked = false → s.boot.signingStopped = false → 36 ≤ m.curLen →
      (m.nonce ≠ some nonce → off < fresh.length →
        ∃ t, exec (.mboxAttest q) s = .next t ∧ served t fresh ∧ (t.mbox q.val).nonce = some nonce
          ∧ t.boot.signCount = s.boot.signCount + 1)
      ∧ (m.nonce = some nonce → off < m.report.length →
        ∃ t, exec (.mboxAttest q) s = .next t ∧ served t m.report ∧ t.boot.signCount = s.boot.signCount))
    ∧ (s.mboxReady q.val 3 = true → 4 ≤ m.curLen → off < 7 →
      ∃ t, exec (.mboxStartLog q) s = .next t
        ∧ served t (pack [(4, s.flash.starts.count.toNat), (2, s.flash.starts.error), (1, s.flash.starts.stage)]))

/-- R447, R446, R451, R452: ATTEST writes a signed report into its buffer, IDENTITY_GET the identity object; FW_STATUS
reports the firmware; CORE_RESTART restarts a cluster control core at once and a lead core through its standby. -/
def Obligations.SecurityCommandsAnswer : Prop :=
  ∀ (id : Nat) (c : Cmd) (s : State),
    (s.due id 0x0B01 c → s.boot.attestBlocked = false → s.boot.signingStopped = false →
      let nonce := pack [(8, c.word 0), (8, c.word 1), (8, c.word 2), (8, c.word 3)]
      let l := s.signedReport (s.reportBody nonce c.own (c.expert && bitAt (c.word 5) 0))
      c.word 4 % 64 = 0 → s.takes c (c.word 4) l.length →
      exec (.attest id) s = .next ((s.writeMem (c.word 4) l).bumpSign.finish c
        (pack [(4, l.length), (4, 0), (16, identityDigest)])))
    ∧ (s.due id 0x0B02 c → s.boot.attestBlocked = false → c.word 0 % 64 = 0 → s.takes c (c.word 0) identityObject.length →
      exec (.identityGet id) s = .next ((s.writeMem (c.word 0) identityObject).finish c
        (pack [(16, identityDigest), (16, Config.serial.toNat)])))
    ∧ (s.due id 0x0C01 c →
      (c.expert = false → ∃ l, exec (.fwStatus id) s = .next (s.finish c l) ∧ l.take 5
        = pack [(1, s.boot.stage), (1, s.boot.leadHub), (1, s.roleHub 0), (1, s.roleHub 1), (1, s.roleHub 2)])
      ∧ (c.expert = true → s.takes c (c.word 0) 256 →
        exec (.fwStatus id) s = .next ((s.writeMem (c.word 0) ((List.range 32).flatMap fun k =>
          if c.fn = 0 ∨ s.ownerOfCluster k = some (c.fn - 1) then s.clusterRecord k else leBytes 8 0)).finish c [])))
    ∧ (s.due id 0x0C02 c → ∀ i, c.target = 0xB000 + i → i < 48 →
      let handover := c.expert && bitAt (c.word 0) 0
      (16 ≤ i → handover = false → exec (.coreRestart id) s = .next ((s.ccRestart (i - 16) 2).finish c (pack [(1, 0xFF)])))
      ∧ (i < 6 → handover = true → s.roleHub (i % 3) = i / 3 → s.standbyUp (i % 3) = true → s.boot.coreDown.contains i = false →
        ∃ t, exec (.coreRestart id) s = .next t ∧ t.boot.coreDown.contains i = true
          ∧ t.boot.roleHub = s.boot.roleHub.set (i % 3) (1 - s.roleHub (i % 3)))
      ∧ (i < 6 → handover = false → s.standbyUp (i % 3) = true → s.boot.coreDown.contains i = false →
        ∃ t, exec (.coreRestart id) s = .next t ∧ t.boot.coreDown.contains i = true
          ∧ t.boot.resetCores.contains i = true))

/-- R30, R86, R417, R418: a lead core's standby takes its role; a standby that fails leaves no standby; a cluster
control core restarts; a hub core that has restarted is the standby again. -/
def Obligations.StandbysTakeRoles : Prop :=
  ∀ (s : State),
    (s.mayFail 2 = true → s.standbyUp 2 = true →
      ∃ t, exec .schedulerTakeover s = .next t ∧ t.boot.roleHub = s.boot.roleHub.set 2 (1 - s.roleHub 2))
    ∧ (s.mayFail 1 = true → s.standbyUp 1 = true → s.boot.coreDown.contains (3 * s.roleHub 1 + 1) = false →
      ∃ t, exec .powerManagementTakeover s = .next t ∧ t.boot.roleHub = s.boot.roleHub.set 1 (1 - s.roleHub 1)
        ∧ t.power.pendingCaps = [])
    ∧ (s.mayFail 0 = true → s.standbyUp 0 = true →
      ∃ t, exec .securityTakeover s = .next t ∧ t.boot.roleHub = s.boot.roleHub.set 0 (1 - s.roleHub 0)
        ∧ t.boot.latchedFreset = [] ∧ t.boot.latchedEstop = [])
    ∧ (∀ r : Fin 3, s.mayFail r.val = true → s.standbyUp r.val = true →
      ∃ t, exec (.standbyCoreFailure r) s = .next t ∧ t.standbyUp r.val = false ∧ t.boot.roleHub = s.boot.roleHub)
    ∧ (∀ c : Fin 32, 8 ≤ s.boot.stage → s.boot.ccRunning.contains c.val = true →
      ∃ t, exec (.clusterControlRestart c) s = .next t ∧ t.boot.restarts = s.boot.restarts + 1
        ∧ t.boot.ccRunning.contains c.val = true)
    ∧ (∀ r : Fin 3, s.boot.coreDown.contains (3 * (1 - s.roleHub r.val) + r.val) = true →
      s.boot.lostRoles.contains r.val = false → s.hubLost (1 - s.roleHub r.val) = false →
      ∃ t, exec (.firmwareCoreRestarted r) s = .next t ∧ t.boot.restarts = s.boot.restarts + 1
        ∧ t.boot.coreDown = s.boot.coreDown.filter (· != 3 * (1 - s.roleHub r.val) + r.val)
        ∧ t.boot.roleHub = s.boot.roleHub ∧ (s.boot.standbyReady = true → t.standbyUp r.val = true))

/-! ### Clocks, power and cooling (chapters 02 and 19) -/

/-- R39 to R41, R43: a target within the operating range is taken, and one outside it is not; a frequency change puts an
island at the lowest of its target and its ceilings; a run of lengthened periods counts one droop event and every lengthened
cycle, and sixteen good cycles end it; the thermal ceiling falls and rises by a sixteenth of nominal where a step is due,
and else stays. From when the gaps between steps count is the model's choice (log 40). -/
def Obligations.IslandsFollowTheirCeilings : Prop :=
  ∀ (i : Fin 332) (s : State),
    let x := s.isle i.val
    (∀ mhz, s.roleUp 1 = true →
      ((rangeMhz i.val).1 ≤ mhz → mhz ≤ (rangeMhz i.val).2 →
        exec (.islandTargetSet i mhz) s = .next (s.modIsle i.val fun x => { x with targetMhz := mhz }))
      ∧ (mhz < (rangeMhz i.val).1 ∨ (rangeMhz i.val).2 < mhz → exec (.islandTargetSet i mhz) s = .next s))
    ∧ (∃ t, exec (.frequencyChange i) s = .next t
      ∧ t.isle i.val = { x with run16 := min (16 * x.targetMhz) (min x.therm16 x.cap16) }
      ∧ ∀ j, j ≠ i.val → t.isle j = s.isle j)
    ∧ (∀ n, ∃ t, exec (.droopDetect i n) s = .next t ∧ t.isle i.val = { x with drooping := true, lastDroop := some s.clock }
      ∧ (tget t.ctrs (ctrId i.val 3 0) {}).raw
          = (tget s.ctrs (ctrId i.val 3 0) {}).raw + (if x.drooping = true then 0 else 1)
      ∧ (tget t.ctrs (ctrId i.val 3 1) {}).raw = (tget s.ctrs (ctrId i.val 3 1) {}).raw + BitVec.ofNat 48 n)
    ∧ (∀ n, (16 ≤ n → exec (.droopEnd i n) s = .next (s.modIsle i.val fun x => { x with drooping := false }))
      ∧ (n < 16 → exec (.droopEnd i n) s = .next s))
    ∧ (∀ c,
      (∃ t, exec (.thermalCeilingLower i c) s = .next t ∧ (t.isle i.val).tempC = c
        ∧ (t.isle i.val).therm16 = (if 100 ≤ c ∧ x.stepDue s.clock 50000 = true
            then max (16 * floorMhz i.val) (x.therm16 - nominalMhz i.val) else x.therm16)
        ∧ ∀ j, j ≠ i.val → t.isle j = s.isle j)
      ∧ (∃ t, exec (.thermalCeilingRaise i c) s = .next t ∧ (t.isle i.val).tempC = c
        ∧ (t.isle i.val).therm16 = (if c < 97 ∧ x.therm16 < 16 * x.targetMhz ∧ x.stepDue s.clock 200000 = true
            then x.therm16 + nominalMhz i.val else x.therm16)
        ∧ ∀ j, j ≠ i.val → t.isle j = s.isle j))

/-- R476, R477: POWER_CAP sets the cap now or arms it for its AT_TIME, when it takes effect; the budgets divide what the
cap leaves; a monitor lowers the ceilings of its islands over budget and raises them after 1 ms at least 5% below. -/
def Obligations.PowerStaysUnderTheCap : Prop :=
  ∀ (s : State),
    (∀ (id : Nat) (c : Cmd), s.due id 0x0A01 c → s.roleUp 1 = true →
      let w := bits (c.word 0) 15 0
      let win := if c.expert = true then bits (c.word 0) 31 16 else 0
      let at_ := if c.expert = true then c.word 1 else 0
      (w = 0 ∨ 3000 ≤ w ∧ w ≤ 7200) → (win = 0 ∨ 100 ≤ win ∧ win ≤ 10000) → (at_ = 0 ∨ s.timeOn = true) →
      (at_ ≤ s.now → ∃ t, exec (.powerCap id) s = .next t ∧ t.cmd id = none
        ∧ t.power.capW = (if w = 0 then s.power.cfgCapW else w) ∧ t.power.windowMs = (if win = 0 then 1000 else win))
      ∧ (s.now < at_ → ∃ t, exec (.powerCap id) s = .next t ∧ t.power.capW = s.power.capW
        ∧ t.power.pendingCaps = s.power.pendingCaps ++ [{
            cmd := c.serial, capW := if w = 0 then s.power.cfgCapW else w, windowMs := if win = 0 then 1000 else win
            atTime := at_ }]))
    ∧ (∀ p c, (s.power.pendingCaps.find? fun p => decide (p.atTime ≤ s.now)) = some p → s.cmd p.cmd = some c →
      ∃ t, exec .capTakeEffect s = .next t ∧ t.power.capW = p.capW ∧ t.power.windowMs = p.windowMs
        ∧ t.power.pendingCaps = s.power.pendingCaps.filter fun x => x.cmd != p.cmd)
    ∧ (∀ d, s.roleUp 1 = true → ∃ t, exec (.powerBudgetDivision d) s = .next t ∧ t.power.otherDraw = d
      ∧ t.power.dieBudget = max 150 ((s.power.capW - d) / 8) ∧ t.power.hubBudget = 230 ∧ t.power.capW = s.power.capW)
    ∧ (∀ (u : Fin 10) (draw : Nat),
      let budget := if u.val < 8 then s.power.dieBudget else s.power.hubBudget
      (budget < draw → ∃ t, exec (.powerMonitorSample u draw) s = .next t ∧ (t.unitTemp u.val).draw = draw
        ∧ ∀ i ∈ monitorIsles u.val,
            (t.isle i).cap16 = max (16 * floorMhz i) ((s.isle i).cap16 - nominalMhz i))
      ∧ (∀ b, draw ≤ budget → 100 * draw ≤ 95 * budget → (s.unitTemp u.val).belowSince = some b → b + 1000000 ≤ s.clock →
        ∃ t, exec (.powerMonitorSample u draw) s = .next t ∧ (t.unitTemp u.val).draw = draw
          ∧ ∀ i ∈ monitorIsles u.val, (t.isle i).cap16
              = if (s.isle i).cap16 < 16 * (rangeMhz i).2 then (s.isle i).cap16 + nominalMhz i else (s.isle i).cap16)
      ∧ (draw ≤ budget → 95 * budget < 100 * draw → ∃ t, exec (.powerMonitorSample u draw) s = .next t
        ∧ (t.unitTemp u.val).belowSince = none ∧ t.isles = s.isles))

/-- R480 to R483, R487, R489, R497: at 115 °C a die or hub turns off; hot stacks refresh faster and stop; coolant flow and
inlet temperature are watched; each hour is recorded; SMBus answers its read-word commands from stage 2 on; and
THERMAL_STATUS returns the readings, the 332 island state words or the ten records of dies and hubs. -/
def Obligations.CoolingIsWatchedAndReported : Prop :=
  (∀ (s : State),
     (∀ (u : Fin 10) (c : Nat), 115 ≤ c → s.power.shut.contains u.val = false → s.power.pwrGood = true →
       ∃ t, exec (.dieShutdown u c) s = .next t ∧ t.power.shut.contains u.val = true
         ∧ (u.val < 8 → ∀ k, k < 4 → (t.cluster (4 * u.val + k)).inService = false))
     ∧ (∀ (h : Fin 32) (c : Nat),
       (∃ t, exec (.hbmOvertemp h c) s = .next t ∧ (95 < c → t.power.hbmHot.contains h.val = true)
         ∧ (105 < c → t.power.hbmStopped.contains h.val = true) ∧ t = { s with power := t.power })
       ∧ (∃ t, exec (.hbmTemperatureFall h c) s = .next t ∧ (c < 95 → t.power.hbmHot.contains h.val = false)
         ∧ (c < 100 → t.power.hbmStopped.contains h.val = false) ∧ t = { s with power := t.power }))
     ∧ (∀ f, (700 ≤ f → ∃ t, exec (.coolantLowFlow f) s = .next t ∧ t.power.flow = f ∧ t.power.lowFlowSince = none)
       ∧ (f < 700 → s.power.lowFlowSince = none →
         ∃ t, exec (.coolantLowFlow f) s = .next t ∧ t.power.lowFlowSince = some s.clock)
       ∧ (∀ b, f < 700 → s.power.lowFlowSince = some b → s.power.lowFlowPosted = false → b + 10000000000 ≤ s.clock →
         ∃ t, exec (.coolantLowFlow f) s = .next t ∧ t.power.lowFlowPosted = true
           ∧ t.modLog.next = s.modLog.next + 1))
     ∧ (∀ d, ∃ t, exec (.coolantInletTemperature d) s = .next t ∧ t.power.inletDeciC = d
       ∧ t.power.inletHigh = (decide (400 < d) || (s.power.inletHigh && decide (395 ≤ d)))
       ∧ t.power.inletLow = decide (d < 200))
     ∧ (∀ m k, s.roleUp 1 = true → s.power.lastHour + 3600000000000 ≤ s.clock →
       ∃ t e, exec (.thermalHistoryWrite m k) s = .next t ∧ e.endTime = s.now ∧ e.meanW = m ∧ e.peakW = k
         ∧ t.power.history = (if 168 ≤ s.power.history.length then s.power.history.drop 1 else s.power.history) ++ [e]
         ∧ t.power.lastHour = s.clock)
     ∧ (∀ b : Byte, (2 ≤ s.boot.stage → exec (.smbusRead b) s = .next (s.emit (.smbus (s.smbusWord b.toNat))))
       ∧ (s.boot.stage < 2 → exec (.smbusRead b) s = .next (s.emit (.smbus none)))))
  ∧ ∀ (id : Nat) (c : Cmd) (s : State), s.due id 0x0A02 c →
    (c.expert = false → ∃ l, exec (.thermalStatus id) s = .next (s.finish c l)
      ∧ l.take 10 = pack [(2, s.power.inputMv), (2, s.power.inputDeciA), (2, s.power.meanW), (2, s.power.peakW), (2, s.power.capW)])
    ∧ (c.expert = true → c.word 0 % 64 = 0 → ∀ n, (bits (c.word 1) 1 0 = 0 ∧ n = 2656 ∨ bits (c.word 1) 1 0 = 1 ∧ n = 320) →
      s.takes c (c.word 0) n →
      ∃ l, l.length = n ∧ exec (.thermalStatus id) s = .next ((s.writeMem (c.word 0) l).finish c (pack [(4, n)]))
        ∧ (c.fn = 0 → bits (c.word 1) 1 0 = 0 → l = (List.range 332).flatMap fun i => leBytes 8 (s.isleWord i))
        ∧ (c.fn = 0 → bits (c.word 1) 1 0 = 1 → l = (List.range 10).flatMap s.unitRecord))

/-! ### Links, bridles, routes and time (chapters 13 and 14) -/

/-- R322, R323, R331, R332, R353: a flit with a bad CRC asks for a replay; a good one in sequence advances FSEQ, and the
stream is sent again from the FSEQ that the peer asks for; sixteen replays or 100 µs of silence take the link down; a packet
is delivered, forwarded with one hop less, or dropped and counted; one that has waited 2 ms for a link that is not up is
dropped and counted; and a port serves packets of control and time first. The shares
of the other classes are the model's choice (log 52). -/
def Obligations.LinksCarryFlitsAndPackets : Prop :=
  (∀ (l : Fin 6) (s : State),
    let k := s.link l.val
    let drop := fun (i : Nat) => s.count (ctrId (placeLink l.val) 7 i) 1
    (k.state = 2 →
      (∀ f : Flit,
        (f.crcOk = false → ∃ t, exec (.flitReceive l f) s = .next t ∧ t.links = s.links
          ∧ t.out = s.out ++ [.replayRequest l.val k.recvSeq])
        ∧ (f.crcOk = true → ∃ t, exec (.flitReceive l f) s = .next t ∧ (t.link l.val).lastValid = s.clock
          ∧ (t.link l.val).recvSeq = (if f.fseq = k.recvSeq then k.recvSeq + 1 else k.recvSeq)
          ∧ (∀ q, f.replayFrom = some q → f.fseq = k.recvSeq → f.ack = k.ackSeq → k.queue = [] →
              t.out = s.out ++ (k.replay.filter fun x => seqLe q x.1).map (·.2))))
      ∧ (16 ≤ k.replays → ∃ t, exec (.replayLimit l) s = .next t ∧ (t.link l.val).state = 0 ∧ (t.link l.val).inUse = 0)
      ∧ (k.lastValid + 100000 ≤ s.clock →
        ∃ t, exec (.linkIdleTimeout l) s = .next t ∧ (t.link l.val).state = 0 ∧ (t.link l.val).inUse = 0)
      ∧ (∀ x : Pkt, x.type ≠ 0x30 →
        (s.planeFor x.plane = none → exec (.packetArrive l x) s = .next (drop 10))
        ∧ (∀ (pl : Plane), s.planeFor x.plane = some pl →
          (s.route.fences.contains x.partition = true → exec (.packetArrive l x) s = .next (drop 5))
          ∧ (s.route.fences.contains x.partition = false → tfind pl.entries x.dest = none →
            exec (.packetArrive l x) s = .next (drop 8))
          ∧ (∀ (e : RouteEntry), tfind pl.entries x.dest = some e → s.route.fences.contains x.partition = false →
            let crosses := x.partition ≠ 0 ∧ e.partition ≠ 0xFFF ∧ e.partition ≠ x.partition
            (crosses → exec (.packetArrive l x) s = .next (drop 6))
            ∧ (¬ crosses →
              (e.port = 6 →
                let here := x.partition = 0 ∨ (s.pavs.any fun v => v.2.partition == x.partition) = true
                (here → exec (.packetArrive l x) s = .next (s.emit (.delivered x)))
                ∧ (¬ here → exec (.packetArrive l x) s = .next (drop 7)))
              ∧ (6 < e.port ∨ e.port < 6 ∧ s.physLink e.port = l.val → exec (.packetArrive l x) s = .next (drop 8))
              ∧ (e.port < 6 → s.physLink e.port ≠ l.val →
                ((x.hops + 63) % 64 = 0 → exec (.packetArrive l x) s = .next (drop 9))
                ∧ ((x.hops + 63) % 64 ≠ 0 → exec (.packetArrive l x) s = .next (s.queuePacket (s.physLink e.port)
                    { x with hops := (x.hops + 63) % 64, vc := e.dateline || x.vc }))))))))
    ∧ (k.state ≠ 2 → let old := k.queue.filter fun w => decide (w.since + 2000000 ≤ s.clock)
      old ≠ [] → ∃ t, exec (.packetQueueTimeout l) s = .next t
        ∧ (t.link l.val).queue = k.queue.filter (fun w => decide (s.clock < w.since + 2000000))
        ∧ (tget t.ctrs (ctrId (placeLink l.val) 7 4) {}).raw
            = (tget s.ctrs (ctrId (placeLink l.val) 7 4) {}).raw + BitVec.ofNat 48 old.length))
  ∧ ∀ (k : Link) (i : Nat), k.nextServed = some i → (k.queue.any fun w => w.cls == 1) = true →
    (k.queue[i]?).any (fun w => w.cls == 1) = true ∧ ∀ j, j < i → (k.queue[j]?).all (fun w => w.cls != 1) = true

/-- R324, R325: a lane that loses its signal or passes 64 error events in a second retires; it is recalibrated after 30 s
and comes back when its test passes; both ends' masks name the lanes in use from the switch on. -/
def Obligations.LanesRetireAndReturn : Prop :=
  ∀ (l : Fin 6) (i : Fin 32) (s : State),
    let k := s.link l.val
    let gone := fun (t : State) => ((t.link l.val).lane i.val).retired = true
      ∧ ((t.link l.val).lane i.val).retiredAt = s.clock ∧ ((t.link l.val).lane i.val).testing = false
    (s.laneLive l.val i.val = true → ∃ t, exec (.laneLossOfSignal l i) s = .next t ∧ gone t)
    ∧ (∀ n, (64 < n → s.laneLive l.val i.val = true → ∃ t, exec (.laneErrorRate l i n) s = .next t ∧ gone t)
      ∧ (n ≤ 64 → ∃ t, exec (.laneErrorRate l i n) s = .next t ∧ t.links = s.links))
    ∧ ((k.lane i.val).retired = true → (k.lane i.val).parked = false → (k.lane i.val).testing = false →
      (k.lane i.val).retiredAt + 30000000000 ≤ s.clock → (k.lanes.any fun y => y.2.testing) = false →
      exec (.laneRecalibrate l i) s = .next (s.modLane l.val i.val fun x => { x with testing := true }))
    ∧ (∀ u n, (k.lane i.val).testing = true →
      (u = 0 → n ≤ 4 → ∃ t, exec (.laneTestDone l i u n) s = .next t
        ∧ ((t.link l.val).lane i.val).retired = false ∧ ((t.link l.val).lane i.val).testing = false)
      ∧ (0 < u ∨ 4 < n → ∃ t, exec (.laneTestDone l i u n) s = .next t ∧ gone t))
    ∧ (∀ m : BitVec 32, k.state = 2 → ∃ t, exec (.laneMask l m) s = .next t ∧ (t.link l.val).peerMask = m.toNat
      ∧ (k.ownMask l.val &&& m.toNat = 0 → (t.link l.val).state = 0)
      ∧ (k.ownMask l.val &&& m.toNat ≠ 0 →
          (t.link l.val).pendingMask = some (k.ownMask l.val &&& m.toNat, k.recvSeq + 256)))
    ∧ (∀ m f, k.pendingMask = some (m, f) → ∃ t, exec (.laneSwitch l) s = .next t ∧ (t.link l.val).inUse = m
      ∧ (t.link l.val).pendingMask = none)

/-- R323, R326 to R329, R343: a down link of an open bridle trains; an end sends its training record; an acceptable
neighbour brings the link up at the lower level on the common lanes, another one is quarantined and retried after 1 s;
a grant ends with its window. -/
def Obligations.LinksTrainOrQuarantine : Prop :=
  ∀ (l : Fin 6) (s : State),
    let k := s.link l.val
    (k.enabled = true → (s.axis (l.val % 3)).isOpen = true → k.state = 0 →
      exec (.linkRetrain l) s = .next (s.modLink l.val fun k => { k with state := 1, triedAt := s.clock }))
    ∧ (k.state = 1 ∨ k.state = 3 →
      ∃ t r, exec (.trainingRecordSend l) s = .next t ∧ t.out = s.out ++ [.training l.val r] ∧ t.links = s.links
        ∧ r.laneMask = k.ownMask l.val ∧ r.axis = l.val % 3 ∧ r.level = 3 ∧ r.time = s.now
        ∧ r.deviceId = ((s.trainPlane l.val).map (·.selfId)).getD 0xFFFF
        ∧ r.joining = (s.axis (l.val % 3)).join.isSome)
    ∧ (∀ x : TrainRec, k.state = 1 →
      (s.trainFault l.val x = none → k.ownMask l.val &&& x.laneMask ≠ 0 →
        ∃ t, exec (.trainingRecord l x) s = .next t ∧ (t.link l.val).state = 2 ∧ (t.link l.val).nbId = x.deviceId
          ∧ (t.link l.val).level = min 3 x.level ∧ (t.link l.val).inUse = k.ownMask l.val &&& x.laneMask)
      ∧ (∀ r, s.trainFault l.val x = some r →
        ∃ t, exec (.trainingRecord l x) s = .next t ∧ (t.link l.val).state = 3 ∧ (t.link l.val).quarDevice = x.deviceId
          ∧ ((t.link l.val).reason = r ∨ r = 2 ∧ (t.link l.val).reason = 7)))
    ∧ (k.state = 3 → k.triedAt + 1000000000 ≤ s.clock →
      exec (.quarantineRetry l) s = .next (s.modLink l.val fun k => { k with state := 1, triedAt := s.clock }))
    ∧ (∀ g, k.grant = some g → g.until_ ≤ s.clock → (g.inTraining = false ∨ k.state ≠ 1) →
      exec (.grantExpire l) s = .next (s.modLink l.val fun k => { k with grant := none }))

/-- R26, R338, R342, R343: a bridle opens for a join with a fresh loopback self-test and trains both its ports; it closes
on every cause of R338, its links closed with it; a failed join ends and leaves its bridle closed; BRIDLE_STEP_ASIDE closes
the bridles of its mask at once or at its AT_TIME. -/
def Obligations.BridlesOpenCloseAndStepAside : Prop :=
  (∀ (x : Fin 3) (s : State),
     let a := x.val
     let closed := fun (t : State) => (t.axis a).isOpen = false ∧ (t.link a).state = 4 ∧ (t.link (a + 3)).state = 4
     (∀ j, (s.axis a).join = some j → (s.axis a).isOpen = false → (s.axis a).loopTest = none → s.loopFresh a = true →
       s.route.noForward = [] →
       ∃ t, exec (.bridleOpen x) s = .next t ∧ (t.axis a).isOpen = true ∧ (t.link a).state = 1 ∧ (t.link (a + 3)).state = 1)
     ∧ ((s.axis a).isOpen = true →
       (s.power.pwrGood = false → ∃ t, exec (.bridleClose x .powerLoss) s = .next t ∧ closed t)
       ∧ (s.power.resetN = false → ∃ t, exec (.bridleClose x .reset) s = .next t ∧ closed t)
       ∧ (s.route.noForward ≠ [] → ∃ t, exec (.bridleClose x .forwarding) s = .next t ∧ closed t)
       ∧ (∀ id m at_, s.route.stepAside = some (id, m, at_) → m.testBit a = true → at_ ≤ s.now →
         ∃ t, exec (.bridleClose x .stepAside) s = .next t ∧ closed t))
     ∧ (∀ j, (s.axis a).join = some j → ((s.link a).state = 3 ∨ (s.link (a + 3)).state = 3) →
       ∃ t, exec (.bridleClose x .joinFailed) s = .next t ∧ (t.axis a).join = none ∧ (t.axis a).isOpen = false
         ∧ t.cmd j.cmd = none)
     ∧ (∀ j, (s.axis a).join = some j → (s.axis a).loopTest = none → j.limit ≤ s.clock →
       ∃ t, exec (.joinTimeout x) s = .next t ∧ (t.axis a).join = none ∧ (t.axis a).isOpen = false ∧ t.cmd j.cmd = none)
     ∧ ((s.axis a).isOpen = false → ((s.axis a).loopTest.isSome = true ∨ s.boot.stage = 8) →
       (∃ t, exec (.loopbackDone x true) s = .next t ∧ (t.axis a).loopAt = some s.clock ∧ (t.axis a).loopTest = none)
       ∧ (∃ t, exec (.loopbackDone x false) s = .next t ∧ (t.axis a).loopAt = none ∧ (t.axis a).join = none))
     ∧ (∀ u : Fin 3, ∃ t, exec (.hubForwardFail u) s = .next t ∧ t.route.noForward.contains u.val = true
       ∧ ∀ b, b < 3 → (t.axis b).isOpen = false ∧ (t.axis b).join = none))
  ∧ ∀ (id : Nat) (c : Cmd) (s : State),
    (s.due id 0x0710 c →
      let mask := if c.expert = true then bits (c.word 0) 2 0 else 7
      let at_ := if c.expert = true then c.word 1 else 0
      (at_ = 0 ∨ s.timeOn = true) →
      (at_ ≤ s.now → ∃ t, exec (.bridleStepAside id) s = .next t ∧ t.cmd id = none
        ∧ ∀ a, a < 3 → (t.axis a).isOpen = ((s.axis a).isOpen && !mask.testBit a))
      ∧ (s.now < at_ → s.route.stepAside = none → ∃ t, exec (.bridleStepAside id) s = .next t
        ∧ t.route.stepAside = some (id, mask, at_) ∧ t.axes = s.axes))
    ∧ (∀ mask at_, s.route.stepAside = some (id, mask, at_) → s.timeOn = true → at_ ≤ s.now →
      ∃ t, exec .bridleStepAsideAt s = .next t ∧ t.route.stepAside = none ∧ t.cmd id = none
        ∧ ∀ a, a < 3 → (t.axis a).isOpen = ((s.axis a).isOpen && !mask.testBit a))

/-- R330, R341, R343, R348: LINK_JOIN arms a join, opens or withdraws a grant; ACCEPT_WIRING records the direction of an
axis; LINK_STATUS reports a link, or in its expert form every link and lane. -/
def Obligations.JoinsGrantsAndWiring : Prop :=
  ∀ (id : Nat) (c : Cmd) (s : State),
    (s.due id 0x0702 c → s.route.noForward = [] →
      let role := bits (c.word 0) 15 12
      let l := s.physLink (bits (c.word 0) 10 8)
      let a := bits (c.word 0) 1 0
      let window := if c.expert = true ∧ bits (c.word 6) 63 32 ≠ 0 then bits (c.word 6) 63 32 else 60000
      let train := if c.expert = true ∧ bits (c.word 6) 31 0 ≠ 0 then bits (c.word 6) 31 0 else 1000
      (role = 2 → bits (c.word 0) 10 8 < 6 → 1000 ≤ window → window ≤ 600000 → (s.link l).grant = none →
        ∃ t g, exec (.linkJoin id) s = .next t ∧ t.cmd id = none ∧ (t.link l).grant = some g
          ∧ g.joiner = bits (c.word 1) 15 0 ∧ g.until_ = s.clock + window * 1000000)
      ∧ (role = 4 → bits (c.word 0) 10 8 < 6 →
        exec (.linkJoin id) s = .next ((s.modLink l fun k => { k with grant := none }).finish c []))
      ∧ ((role = 1 ∨ role = 3) → a < 3 → 100 ≤ train → train ≤ 10000 → (s.axis a).isOpen = false → (s.axis a).join = none →
        (role = 3 → s.pavs = []) → (role = 1 → c.word 1 ≠ 0 ∧ c.word 2 ≠ 0) →
        ((s.planeOf (bits (c.word 3) 63 32)).any fun p =>
          ((p.slots a).any fun x => x != 0xFFFF) && (p.slots (a + 3)).any fun x => x != 0xFFFF) = true →
        ∃ t j, exec (.linkJoin id) s = .next t ∧ (t.axis a).join = some j ∧ j.cmd = c.serial ∧ j.form = (role == 3)
          ∧ j.epoch = bits (c.word 3) 63 32 ∧ j.trainNs = train * 1000000
          ∧ (s.loopFresh a = false → (t.axis a).loopTest = some s.clock)))
    ∧ (s.due id 0x0703 c →
      let a := bits (c.word 0) 1 0
      a < 3 → (s.axis a).isOpen = false →
      (bitAt (c.word 0) 8 = false ∨ (c.expert && bitAt (c.word 0) 9) = true ∨ (s.axis a).lastReason7 = true) →
      exec (.acceptWiring id) s
        = .next ((s.modAxis a fun x => { x with reversed := bitAt (c.word 0) 8 }).finish c []))
    ∧ (s.due id 0x0701 c →
      (c.expert = false → c.target / 4096 = 5 →
        exec (.linkStatus id) s = .next (s.finish c (s.linkStatus (c.target % 4096) (c.fn != 0))))
      ∧ (c.expert = true → s.takes c (c.word 0) 384 →
        exec (.linkStatus id) s = .next ((s.writeMem (c.word 0) ((List.range 6).flatMap fun l =>
          s.linkStatus l (c.fn != 0) ++ pack ((List.range 32).map fun i => (1, s.laneByte l i)))).finish c [])))

/-- R333 to R335: ROUTE_LOAD reads a plane from memory, checks it and puts it in the shadow; ROUTE_SWAP exchanges the planes
at once or at its AT_TIME, and the old plane, now the shadow, serves for 1 ms more; CANCEL withdraws an armed swap. -/
def Obligations.PlanesAreLoadedAndSwapped : Prop :=
  (∀ (id : Nat) (c : Cmd) (s : State),
     let swapped := fun (t : State) (p : Plane) => t.route.active = some p ∧ t.route.shadow = s.route.active
       ∧ t.route.old = s.route.active.isSome ∧ t.route.swapAt = s.clock ∧ t.route.pendingSwap = none ∧ t.cmd id = none
     (∀ p, s.due id 0x0502 c → s.route.shadow = some p → p.epoch = bits (c.word 0) 63 32 →
       (∀ q, s.route.active = some q → q.epoch < p.epoch) →
       let at_ := if c.expert = true then c.word 1 else 0
       let cancel := c.expert && bitAt (c.word 0) 0
       (cancel = false → at_ = 0 → s.route.pendingSwap = none → ∃ t, exec (.routeSwap id) s = .next t ∧ swapped t p)
       ∧ (cancel = false → at_ ≠ 0 → s.timeOn = true → s.now ≤ at_ → s.route.pendingSwap = none →
         ∃ t, exec (.routeSwap id) s = .next t ∧ t.route = { s.route with pendingSwap := some (id, at_) })
       ∧ (∀ j at', cancel = true → s.route.pendingSwap = some (j, at') → j ≠ id →
         ∃ t, exec (.routeSwap id) s = .next t ∧ t.route = { s.route with pendingSwap := none } ∧ t.cmd j = none ∧ t.cmd id = none))
     ∧ (∀ p at_, s.route.pendingSwap = some (id, at_) → s.timeOn = true → at_ ≤ s.now → s.cmd id = some c →
       s.route.shadow = some p → ∃ t, exec .routeSwapTakeEffect s = .next t ∧ swapped t p)
     ∧ (s.route.old = true → s.route.swapAt + 1000000 ≤ s.clock →
       exec .oldPlaneExpire s = .next (s.modRoute fun r => { r with old := false })))
  ∧ ∀ (id : Nat) (c : Cmd) (s : State), s.due id 0x0501 c → s.route.old = false → s.route.pendingSwap = none →
    let a := c.word 0
    let n := bits (c.word 1) 31 0
    let merge := c.expert && bitAt (c.word 2) 32
    let first := if merge = true then bits (c.word 2) 31 16 else 0
    let data := s.readMem a n
    let count := field data 4 2
    let given := (List.range count).map fun i => (first + i, parseEntry (field data (128 + 4 * i) 4))
    let base := if merge = true then (s.route.active.map (·.entries)).getD [] else []
    let p : Plane := {
      epoch := field data 12 4, selfId := field data 6 2, accept := (List.range 48).map fun i => field data (16 + 2 * i) 2
      entries := if merge = true then given.foldl (fun t e => tset t e.1 e.2) base else given }
    a % 64 = 0 → s.badRange c.port c.fn a n = none → s.badRead a n = none →
    128 ≤ n → field data 0 4 = 0x45545552 → field data 8 4 = n → n = 128 + 4 * count →
    (merge = true ∨ count = routeDevices) →
    field data 112 16 = digest128 (data.take 112 ++ List.replicate 16 0 ++ data.drop 128) →
    p.ok = true → (∀ q, s.route.active = some q → q.epoch < p.epoch) →
    ∃ t, exec (.routeLoad id) s = .next t ∧ t.route = { s.route with shadow := some p } ∧ t.cmd id = none

/-- R337: FENCE_SET fences a partition or lifts its fence, at once or at its AT_TIME: packets of the partition that wait
or arrive are discarded, the messages for its pavilions too, and its pavilions are FENCED, unless NO_STOP spares them; other partitions' fences stay. -/
def Obligations.FencesHoldPartitions : Prop :=
  ∀ (s : State),
    let fenced := fun (t : State) (part : Nat) (lift noStop : Bool) =>
      t.route.fences.contains part = !lift
      ∧ (∀ other, other ≠ part → t.route.fences.contains other = s.route.fences.contains other)
      ∧ ((lift = true ∨ noStop = false) → ∀ p v, t.pav p = some v → v.partition = part → v.fenced = !lift)
      ∧ (lift = false → noStop = true → ∀ p, (t.pav p).map (·.fenced) = (s.pav p).map (·.fenced))
      ∧ (lift = false → ∀ l, l < 6 → ∀ w ∈ (t.link l).queue, w.partition ≠ part)
    (∀ (id : Nat) (c : Cmd), s.due id 0x0510 c →
      let w := c.word 0
      let part := bits w 11 0
      let at_ := if c.expert = true then c.word 1 else 0
      part ≠ 0 → part ≠ 0xFFF → (at_ = 0 ∨ s.timeOn = true) →
      (at_ ≤ s.now → ∃ t, exec (.fenceSet id) s = .next t ∧ t.cmd id = none
        ∧ fenced t part (bitAt w 16) (c.expert && bitAt w 18))
      ∧ (s.now < at_ → ∃ t, exec (.fenceSet id) s = .next t ∧ (t.cmd id).any (fun x => x.phase == .started) = true
        ∧ t.route = { s.route with
          pendingFences := s.route.pendingFences ++ [{
            cmd := c.serial, partition := part, lift := bitAt w 16, noStop := c.expert && bitAt w 18, atTime := at_ }] }))
    ∧ (∀ x, s.timeOn = true → s.route.pendingFences = [x] → x.atTime ≤ s.now →
      ∃ t, exec .fenceTakeEffect s = .next t ∧ t.route.pendingFences = [] ∧ t.cmd x.cmd = none
        ∧ fenced t x.partition x.lift x.noStop)
    ∧ (∀ (l : Fin 6) (k : Pkt), (s.link l.val).state = 2 → k.type ≠ 0x30 → (s.planeFor k.plane).isSome = true →
      s.route.fences.contains k.partition = true →
      exec (.packetArrive l k) s = .next (s.count (ctrId (placeLink l.val) 7 5) 1))
    ∧ (∀ (p : Fin 8), s.shut p.val = true →
      (∀ m, exec (.chainSum p m) s = .next s ∧ exec (.chainResult p m) s = .next s ∧ exec (.gatherPiece p m) s = .next s
        ∧ exec (.collAck p m) s = .next s ∧ exec (.collAbort p m) s = .next s)
      ∧ (∀ m, exec (.mirrorData p m) s = .next s ∧ exec (.shardArrival p m) s = .next s)
      ∧ (∀ n ver, exec (.mirrorAck p n ver) s = .next s) ∧ (∀ n ok, exec (.reshapeShardAck p n ok) s = .next s)
      ∧ (∀ m, exec (.twinDigest p m) s = .next s) ∧ ∀ m, exec (.twinControl p m) s = .next s)

/-- R363 to R366: TIME_SYNC is sent, 9 µs or more after the one before, and heard on links that are up; a module without building time takes that of its
first link; a lost root makes the module choose again; the time locks and falls into holdover. -/
def Obligations.BuildingTimeIsSteered : Prop :=
  ∀ (s : State),
    (∀ l : Fin 6, (s.link l.val).state = 2 →
      ((∀ x, (s.sync l.val).sentAt = some x → x + 9000 ≤ s.clock) → (s.link l.val).roomFor 1 = true →
        (s.link l.val).queue = [] → ∃ t m, exec (.timeSyncSend l) s = .next t ∧ t.out = s.out ++ [.timeSync l.val m]
        ∧ m.tSend = s.now ∧ m.state = s.time.state ∧ m.hops = s.time.hops ∧ m.rootId = s.time.rootId
        ∧ m.rootPrio = s.time.rootPrio ∧ m.tEcho = (s.sync l.val).tSend
        ∧ t.time.ownSeq = s.time.ownSeq + (if s.time.candidate.isSome = true then 1 else 0))
      ∧ (∀ m : TimeSyncMsg, ∃ t, exec (.timeSync l m) s = .next t ∧ (t.sync l.val).heard = true
        ∧ (t.sync l.val).rootId = m.rootId ∧ (t.sync l.val).rootPrio = m.rootPrio ∧ (t.sync l.val).nbHops = m.hops
        ∧ (t.sync l.val).nbState = m.state ∧ (t.sync l.val).tSend = m.tSend
        ∧ (m.state ≠ 0 → t.time.state ≠ 0)))
    ∧ (s.time.parent.isSome = true →
      ((List.range 6).any fun l => s.offers l && (s.sync l).rootId == s.time.rootId) = false →
      s.time.state ≠ 0 → s.time.candidate = none →
      (s.bestOffer = none → ∃ t, exec .rootLost s = .next t ∧ t.time.state = 3 ∧ t.time.rootId = 0xFFFF ∧ t.time.parent = none)
      ∧ (∀ l, s.bestOffer = some l → ∃ t, exec .rootLost s = .next t ∧ t.time.rootId = (s.sync l).rootId
        ∧ t.time.parent = some l ∧ t.time.hops = (s.sync l).nbHops + 1))
    ∧ (s.time.state = 1 → s.upstream ≠ [] → s.time.offset16.natAbs ≤ 32 → s.time.goodSince + 1000000000 ≤ s.clock →
      ∃ t, exec .timeLock s = .next t ∧ t.time.state = 2 ∧ t.time.btime = s.time.btime)
    ∧ ((s.time.state = 1 ∨ s.time.state = 2) → s.upstream = [] →
      ∃ t, exec .timeHoldover s = .next t ∧ t.time.state = 3 ∧ t.time.btime = s.time.btime
        ∧ t.time.ratePpb = s.time.ratePpb)

/-- R368 to R370: TIME_ROOT makes the module a candidate, and the root where it hears no time; TIME_STATUS reports the
time and its links; BARRIER_AT arms a barrier for its pavilion or cancels it. -/
def Obligations.TimeCommandsAnswer : Prop :=
  ∀ (id : Nat) (c : Cmd) (s : State),
    (s.due id 0x0803 c →
      let p := bits (c.word 0) 7 0
      p ≠ 0 → ∃ t, exec (.timeRoot id) s = .next t ∧ t.cmd id = none
        ∧ t.time.candidate = (if p = 255 then none else some p)
        ∧ (p ≠ 255 → s.time.state = 0 →
            ((List.range 6).any fun l => (s.link l).state == 2 && (s.sync l).heard && (s.sync l).nbState != 0) = false →
            t.time.state = 4 ∧ t.time.rootId = s.ownId ∧ t.time.btime = (if c.expert = true then c.word 1 else 0)))
    ∧ (s.due id 0x0801 c →
      let l := pack [(8, s.now), (1, s.time.state), (1, s.time.hops), (1, s.time.rootPrio), (1, s.time.parent.getD 0xFF),
        (2, s.time.rootId), (2, 0), (4, signed 32 s.time.offset16), (4, signed 32 s.time.ratePpb), (8, s.time.enteredAt)]
      (c.expert = false → exec (.timeStatus id) s = .next (s.finish c l))
      ∧ (c.expert = true → s.takes c (c.word 0) 192 →
        exec (.timeStatus id) s = .next ((s.writeMem (c.word 0) ((List.range 6).flatMap s.syncRecord)).finish c l)))
    ∧ (∀ v, s.due id 0x0802 c → s.pav c.pavilion = some v →
      let n := if c.expert = true then bits (c.word 2) 63 32 else 1
      let cancel := c.expert && bitAt (c.word 2) 0
      (cancel = false → s.timeOn = true → (n ≤ 1 ∨ c.expert = true ∧ c.word 1 ≠ 0) → v.barrier = none →
        ∃ t b w, exec (.barrierAt id) s = .next t ∧ t.pav c.pavilion = some w ∧ w.barrier = some b
          ∧ b.cmd = c.serial ∧ b.at_ = c.word 0 ∧ b.count = max n 1)
      ∧ (cancel = true → ∃ t, exec (.barrierAt id) s = .next t ∧ ∀ w, t.pav c.pavilion = some w → w.barrier = none))

/-! ### Movers and memory (chapter 09) -/

/-- R235, R238 to R240: MOVE, OFFLOAD and RESTORE whose descriptors are good start a job on a mover of their clusters;
OFFLOAD without a destination allocates one in LPDDR5X. -/
def Obligations.MoverCommandsStartJobs : Prop :=
  ∀ (id : Nat) (c : Cmd) (s : State),
    let starts := fun (o : Host.Outcome State Fault Refusal) (ds : List Desc) (cs : List Nat) (m : Nat) =>
      ∃ t j, o = .next t ∧ t.moves = s.moves ++ [j] ∧ j.cmd = id ∧ j.descs = ds ∧ j.finished = [] ∧ j.mover = m
        ∧ j.clusters = cs ∧ t.mem = s.mem ∧ (t.cmd id).any (fun x => x.phase == .started) = true
    let tier := fun (i a n : Nat) (lp : Bool) => s.checkTier c i a n lp = .ok ()
    ∀ m, s.job id = none →
    (s.due id 0x0201 c → c.expert = false → s.moverFor (s.moverClusters c 0) = some m →
      let d := parseDesc (leNat ((List.range 8).flatMap fun i => leBytes 8 (c.word i)))
      s.checkDescs c [d] = .ok () → starts (exec (.move id) s) [d] (s.moverClusters c 0) m)
    ∧ (s.due id 0x0201 c → c.expert = true →
      let n := bits (c.word 1) 15 0
      let mask := bits (c.word 2) 63 32
      let ds := (List.range n).map fun i => parseDesc (s.readNat (c.word 0 + 64 * i) 64)
      s.moverFor (s.moverClusters c mask) = some m → n ≠ 0 → bits (c.word 2) 1 0 ≠ 3 →
      (mask = 0 ∨ c.pavilion = 0xF
        ∨ (((s.pav c.pavilion).any fun v => !v.clusters.isEmpty) && !(s.moverClusters c mask).isEmpty) = true) →
      c.word 0 % 64 = 0 → s.badRange c.port c.fn (c.word 0) (64 * n) = none → s.badRead (c.word 0) (64 * n) = none →
      s.checkDescs c ds = .ok () → starts (exec (.move id) s) ds (s.moverClusters c mask) m)
    ∧ (s.due id 0x0202 c → s.moverFor (s.moverClusters c 0) = some m → c.word 1 % 4096 = 0 → c.word 1 ≠ 0 →
      (c.expert = true → bits (c.word 3) 1 0 ≠ 3) → tier 0 (c.word 0) (c.word 1) false →
      let digest := !(c.expert && bitAt (c.word 3) 2)
      (∀ a u, (c.expert = false ∨ c.word 2 = 0) → s.allocMem c.pavilion 1 (c.word 1) 4096 4 = some (a, u) →
        starts (exec (.offload id) s) [pageDesc 4 (c.word 0) a (c.word 1) digest] (s.moverClusters c 0) m)
      ∧ (c.expert = true → c.word 2 ≠ 0 → tier 2 (c.word 2) (c.word 1) true →
        starts (exec (.offload id) s) [pageDesc 4 (c.word 0) (c.word 2) (c.word 1) digest] (s.moverClusters c 0) m))
    ∧ (s.due id 0x0203 c → s.moverFor (s.moverClusters c 0) = some m → c.word 2 % 4096 = 0 → c.word 2 ≠ 0 →
      (c.expert = true → bits (c.word 5) 3 2 ≠ 3) → tier 0 (c.word 0) (c.word 2) true → tier 1 (c.word 1) (c.word 2) false →
      starts (exec (.restore id) s) [pageDesc 5 (c.word 0) (c.word 1) (c.word 2) (c.expert && bitAt (c.word 5) 0)]
        (s.moverClusters c 0) m)
    ∧ (s.due id 0x0203 c → s.moverFor (s.moverClusters c 0) = some m → c.word 2 = 0 → c.expert = false →
      tier 0 (c.word 0) 0 true → tier 1 (c.word 1) 0 false →
      ∃ t, exec (.restore id) s = .next t ∧ t.cmd id = none ∧ t.moves = s.moves.filter (fun j => j.cmd != id))

/-- R224, R225, R234, R236, R237, R462: a descriptor of one row in device memory moves its bytes and nothing else while
others of its command are left; the last one ends its command; a host-side source is requested; a word that cannot be read
ends the command; and so do 50 ms in which a descriptor moves no byte. -/
def Obligations.DescriptorsMoveBytes : Prop :=
  ∀ (id i : Nat) (j : MoveJob) (c : Cmd) (s : State), s.job id = some j → s.cmd id = some c →
    (∀ d, j.descs[i]? = some d → i = 0 → j.finished.contains i = false → j.started.contains i = false →
      (j.waiting.any fun x => x.1 == i) = false → j.source i = none → s.descStalled d = false → s.descCut j d = false →
      d.type ≠ 2 →
      (∀ a n, d.hostSrc = false → d.hostDst = false → d.dstRows = [(a, n)] → s.memWf = true → s.descBad d = none →
        (∀ p ∈ s.mem.retired, overlaps p 4096 a n = false) →
        ∃ t, exec (.descriptorStart id ⟨i, []⟩) s = .next t
          ∧ (j.finished.length + 1 < j.descs.length →
              cellsGet t.mem.cells a n = slice (s.descBytes d) 0 n
              ∧ (∀ x, x < a ∨ a + n ≤ x → cellGet t.mem.cells x = cellGet s.mem.cells x)
              ∧ (t.job id).any (fun k => k.finished.contains i) = true)
          ∧ (j.descs.length ≤ j.finished.length + 1 → t.job id = none ∧ t.cmd id = none))
      ∧ (d.hostSrc = true → (s.port c.port).lost = false → s.canSend c.port c.fn = true → s.descBad d = none →
        ∃ t, exec (.descriptorStart id ⟨i, []⟩) s = .next t
          ∧ t.out = s.out ++ [.hostRead c.port (s.port c.port).nextTag (s.srcRowAddr d 0) (readChunk (s.srcRowAddr d 0) d.rowBytes)]
          ∧ (t.job id).any (fun k => k.waiting.contains (i, 0, (s.port c.port).nextTag)) = true ∧ t.mem = s.mem)
      ∧ (∀ errs w, d.hostSrc = false → d.hostDst = false → (s.meetDesc d errs).descBad d = some w →
        ∃ t, exec (.descriptorStart id ⟨i, errs⟩) s = .next t ∧ t.job id = none ∧ t.cmd id = none))
    ∧ ((j.started.any fun i => !j.finished.contains i && !(j.waiting.any fun x => x.1 == i)
        && decide (tget j.moved i 0 + 50000000 ≤ s.clock)) = true →
      ∃ t, exec (.descriptorTimeout id) s = .next t ∧ t.job id = none ∧ t.cmd id = none)

/-- R441, R462, R463: what a host completion brings is placed: a piece of the bundle into the staging area, a piece of a
descriptor at its destination; an error or 50 ms of silence ends the load or the command; an unknown tag is reported. -/
def Obligations.HostCompletionsArePlaced : Prop :=
  ∀ (q : Fin 2) (tag : Nat) (s : State),
    ((s.port q.val).requests.find? (fun r => r.1 == tag) = none →
      ∀ x, exec (.hostCompletion q tag x) s = .next (s.emit (.unexpectedCompletion q.val)))
    ∧ (∀ a len sent, (s.port q.val).requests.find? (fun r => r.1 == tag) = some (tag, none, a, len, sent) →
      s.boot.loadPort = some q.val →
      let b := s.bootPort q.val
      let at_ := dieStoreAddr s.boot.stagingDie + b.bytesDone
      (∀ l, s.memWf = true → (∀ p ∈ s.mem.retired, overlaps p 4096 at_ len = false) →
        ∃ t, exec (.hostCompletion q tag (.ok l)) s = .next t ∧ (t.bootPort q.val).bytesDone = b.bytesDone + len
          ∧ cellsGet t.mem.cells at_ len = fit len l
          ∧ ∀ x, x < at_ ∨ at_ + len ≤ x → cellGet t.mem.cells x = cellGet s.mem.cells x)
      ∧ (∃ t, exec (.hostCompletion q tag .poisoned) s = .next t ∧ t.boot.stage = 3 ∧ (t.bootPort q.val).error = 0x0002)
      ∧ (sent + 50000000 ≤ s.clock →
        ∃ t, exec (.completionTimeout q tag) s = .next t ∧ t.boot.stage = 3 ∧ (t.bootPort q.val).error = 0x0002))
    ∧ (∀ id c j a len sent, (s.port q.val).requests.find? (fun r => r.1 == tag) = some (tag, some id, a, len, sent) →
      s.cmd id = some c → s.job id = some j →
      (∀ i k d l, j.waiting.find? (fun x => x.2.2 == tag) = some (i, k, tag) → j.descs[i]? = some d → d.hostDst = false →
        let at_ := d.dstRowAddr (k / d.rowBytes) + k % d.rowBytes
        s.partialBad at_ len = none → k + len < d.total → s.memWf = true →
        (∀ p ∈ s.mem.retired, overlaps p 4096 at_ len = false) →
        ∃ t, exec (.hostCompletion q tag (.ok l)) s = .next t ∧ cellsGet t.mem.cells at_ len = fit len l
          ∧ ∀ x, x < at_ ∨ at_ + len ≤ x → cellGet t.mem.cells x = cellGet s.mem.cells x)
      ∧ (sent + 50000000 ≤ s.clock →
        ∃ t, exec (.completionTimeout q tag) s = .next t ∧ t.cmd id = none ∧ t.job id = none))

/-- R222, R223, R226, R228, R229, R288: a patrol counts a corrected error, retires the page of an uncorrectable one and
marks an unreadable ledger record; a row at its threshold is repaired or retired; records go to the flash; MEM_REPAIR
repairs what has a spare row, and MEM_RETIRE_LIST reports the list. -/
def Obligations.MemoryErrorsAreHandled : Prop :=
  ∀ (s : State),
    (∀ place a, s.placeOfAddr a = place → s.mapped a 1 = true →
      let w := a - a % codeWord a
      (s.mem.bad.contains w = false → s.mem.retired.contains (pageOf w) = false →
        ∃ t, exec (.patrolScrub place [(a, 1)]) s = .next t
          ∧ (tget t.mem.corrections (pageOf w) {}).count = (tget s.mem.corrections (pageOf w) {}).count + 1)
      ∧ (∀ n, 2 ≤ n →
        (inLedgerSlice w = false →
          ∃ t, exec (.patrolScrub place [(a, n)]) s = .next t ∧ t.mem.retired.contains (pageOf w) = true)
        ∧ (inLedgerSlice w = true →
          ∃ t, exec (.patrolScrub place [(a, n)]) s = .next t ∧ t.ledger.unreadable.contains (ledgerShard w) = true)))
    ∧ (∀ page, addrWin page = 0 → page % 4096 = 0 →
      8 ≤ ((tget s.mem.corrections page {}).times.filter fun t => decide (s.now < t + 86400000000000)).length →
      ∃ t, exec (.softRowRepair page) s = .next t
        ∧ (if Config.spareRow page (s.mem.softRepairs + s.mem.hardRepairs) = true
          then t.mem.softRepairs = s.mem.softRepairs + 1 else t.mem.retired.contains page = true))
    ∧ (∀ r rest, s.mem.toFlash = r :: rest → ∃ t, exec .retirementRecordWrite s = .next t
      ∧ t.flash.retire = (s.flash.retire.filter fun x => x.address != r.address) ++ [r] ∧ t.mem.toFlash = rest)
    ∧ (∀ id c, s.due id 0x0210 c →
      let mask := if c.expert = true then bits (c.word 0) 31 0 else 0
      let rows := s.retireList.filter fun r =>
        addrWin r.address == 0 && (r.state == 1 || r.state == 3) && (mask == 0 || mask.testBit (stackOf r.address))
      (s.pavs.all fun v => v.2.role == 0 ||
        !(v.2.clusters.any fun k => (rows.map fun r => stackOf r.address / 4).contains (k / 4))) = true →
      ∃ t, exec (.memRepair id) s = .next t ∧ t.cmd id = none
        ∧ ((s.ring c.key).closing = none → (s.ring c.key).draining = false →
            ∀ p, t.mem.retired.contains p = true → s.mem.retired.contains p = true)
        ∧ ∀ r ∈ rows, (∀ n, Config.spareRow r.address n = true) → (s.ring c.key).closing = none →
            (s.ring c.key).draining = false → t.mem.retired.contains r.address = false)
    ∧ (∀ id c, s.due id 0x0211 c →
      let n := bits (c.word 1) 63 32
      let all := s.retireList.filter fun r => match c.own with
        | none => true
        | some p => s.ownerOfAddr r.address == some p
      let out := (all.drop (bits (c.word 1) 31 0)).take n
      c.word 0 % 32 = 0 → s.badRange c.port c.fn (c.word 0) (32 * n) = none →
      s.partialBad (c.word 0) (32 * out.length) = none →
      exec (.memRetireList id) s = .next ((s.writeMem (c.word 0) (out.flatMap retBytes)).finish c
        (pack [(4, out.length), (4, all.length)])))

/-! ### Pavilions (chapter 15) -/

/-- R406 to R410, R413: PAVILION_CREATE makes a pavilion from free clusters and granules, or arms a stopped one again;
PAVILION_DESTROY ends in NONE; PAVILION_STATUS reports; FUNCTION_RESET of a pavilion clears its handles and tensor
contents and leaves its memory, layout and twin, and that of a link empties its queue. -/
def Obligations.PavilionsComeAndGo : Prop :=
  ∀ (id : Nat) (c : Cmd) (s : State),
    let p := c.pavilion
    (s.due id 0x0101 c → c.params.isEmpty = true → ∀ v, s.pav p = some v → v.stopped = true →
      ∃ t u, exec (.pavilionCreate id) s = .next t ∧ t.cmd id = none ∧ t.pav p = some u ∧ u.stopped = false
        ∧ u.traps = { seq := v.traps.seq } ∧ u.clusters = v.clusters ∧ u.handles = v.handles)
    ∧ (s.due id 0x0101 c → c.params.isEmpty = false → p < 8 → s.pav p = none →
      let cs := maskBits 32 (bits (c.word 0) 63 32)
      let dies := (cs.map (· / 4)).eraseDups
      let part := bits (c.word 0) 31 20
      let lp := bits (c.word 1) 63 32
      let west := if c.expert = true then bits (c.word 3) 63 32 else cdiv lp 2
      let home := if c.expert = true then b2n (bitAt (c.word 3) 8) else c.port
      let want := if c.expert = true then
          ((List.range 8).map fun d => (d, bits (c.word 2) (8 * d + 7) (8 * d))).filter fun x => x.2 != 0
        else spreadEvenly (bits (c.word 0) 15 0) dies
      bits (c.word 0) 19 18 ≠ 3 → cs ≠ [] →
      (∀ k ∈ cs, (s.cluster k).inService = true ∧ s.ownerOfCluster k = none) →
      1 ≤ part → part ≤ 4094 → (∀ e ∈ s.pavs, e.2.partition ≠ part) → (s.port home).lost = false →
      (∀ x ∈ want, x.1 ∈ dies) → west ≤ lp →
      ∀ hbm lpd dst, takeGranules want s.freeHbm = some hbm →
        takeGranules [(0, west), (1, lp - west)] s.freeLpddr = some lpd →
        takeGranules (spreadEvenly (bits (c.word 1) 31 16) dies) s.freeDstore = some dst →
      ∃ t v, exec (.pavilionCreate id) s = .next t ∧ t.cmd id = none ∧ t.pav p = some v
        ∧ v.role = bits (c.word 0) 19 18 ∧ v.clusters = cs ∧ v.partition = part ∧ v.homePort = home
        ∧ v.hbm = hbm ∧ v.lpddr = lpd ∧ v.dstore = dst ∧ v.handles = [] ∧ v.run = none ∧ pavState (some v) = 1)
    ∧ (s.due id 0x0102 c → (c.expert && bitAt (c.word 0) 0) = false → ∀ v, s.pav p = some v → v.run = none → s.destroyWaits c = false →
      ∃ t, exec (.pavilionDestroy id) s = .next t ∧ t.cmd id = none ∧ t.pav p = none)
    ∧ (s.due id 0x0103 c → ∀ v, s.pav p = some v →
      exec (.pavilionStatus id) s = .next (s.finish c (pack [(1, pavState (some v)), (1, v.role), (1, v.homePort),
        (1, bitsMask (v.handles.map (·.1))), (4, bitsMask v.clusters), (2, v.partition), (2, 0), (4, v.hbm.length),
        (4, v.lpddr.length), (4, s.freeGib 0), (4, s.freeGib 1), (4, v.dstore.length)])))
    ∧ (s.due id 0x0110 c → c.fn = 0 → (c.expert = true → bits (c.word 0) 2 0 = 0) →
      (∀ v, p < 8 → c.target = pavTarget p ∨ c.target = 0 → s.pav p = some v → v.run = none → v.sealing = none →
        v.abortReason ≠ none → (∀ x ∈ s.cmds, x.pavilion = p → x.serial ≠ id → x.opcode / 256 = 0) →
        ∃ t u, exec (.functionReset id) s = .next t ∧ t.cmd id = none ∧ t.pav p = some u ∧ u.stopped = false
          ∧ u.handles = [] ∧ u.data = [] ∧ u.traps = { seq := v.traps.seq } ∧ u.clusters = v.clusters ∧ u.hbm = v.hbm ∧ u.lpddr = v.lpddr
          ∧ u.reshape = v.reshape ∧ u.twin = v.twin)
      ∧ (∀ l, l < 6 → c.target = 0x5000 + l →
        (∀ x ∈ s.cmds, x.serial ≠ id → x.target = c.target → x.phase = .started) →
        ∃ t, exec (.functionReset id) s = .next t ∧ t.cmd id = none ∧ (t.link l).queue = []
          ∧ ((s.axis (l % 3)).isOpen = true → (t.link l).state = 0) ∧ t.axes = s.axes))

/-- R411, R420: PAVILION_LEND moves clusters to another pavilion or to the pool; PAVILION_ADOPT gives a parked pavilion
a new home host. -/
def Obligations.PavilionsAreLentAndAdopted : Prop :=
  ∀ (id : Nat) (c : Cmd) (s : State) (v : Pav),
    let p := c.pavilion
    s.pav p = some v →
    (s.due id 0x0120 c → (c.expert = true → bits (c.word 3) 7 4 = 0xF ∧ bits (c.word 3) 3 0 = 0xF) →
      let cs := maskBits 32 (bits (c.word 0) 31 0)
      let dst := bits (c.word 1) 3 0
      let destCs := ((s.pav dst).map (·.clusters)).getD []
      let left := v.clusters.filter fun k => !cs.contains k
      (∀ k ∈ cs, v.clusters.contains k = true) → left ≠ [] → v.sealing = none → v.atBoundary = true →
      v.reshape.state ≠ 1 → v.reshape.state ≠ 2 →
      (dst = 0xF ∨ dst ≠ p ∧ ∃ d, s.pav dst = some d ∧ (d.role = 0 ∨ destCs ++ cs ≠ [])) →
      ∀ x, lendGranules c v cs destCs (dst == 0xF) = .ok x → (v.hbm.filter fun g => !x.hbm.contains g) ≠ [] →
      (∀ a ∈ v.allocs, ∀ g ∈ x.hbm, overlaps (hbmAddr g) gib a.1 a.2.1 = false) →
      ∃ t u, exec (.pavilionLend id) s = .next t ∧ t.cmd id = none ∧ t.pav p = some u ∧ u.clusters = left
        ∧ u.hbm = v.hbm.filter (fun g => !x.hbm.contains g) ∧ u.capacityDue = true
        ∧ (dst ≠ 0xF → ∀ d, s.pav dst = some d → ∃ w, t.pav dst = some w
          ∧ w.clusters = maskBits 32 (bitsMask (d.clusters ++ cs)) ∧ w.hbm = d.hbm ++ x.hbmTo ∧ w.capacityDue = true))
    ∧ (s.due id 0x0121 c → (s.port v.homePort).lost = true → v.parked = true → (s.port c.port).lost = false →
      exec (.pavilionAdopt id) s = .next ((s.modPav p fun v => { v with
        homePort := c.port, parked := false, parking := false }).finish c (pack [(1, v.homePort), (1, c.port), (6, 0),
          (8, v.parkedAt)])))

/-! ### Programs (chapters 05 and 09) -/

/-- R116 to R118, R182: PROGRAM_LOAD copies a valid image and its constants into the pavilion under a free handle,
PROGRAM_UNLOAD frees it, and FORERUNNER_NUMERICS sets the numerics mode of a handle that does not run. -/
def Obligations.ProgramsAreLoadedAndUnloaded : Prop :=
  ∀ (id : Nat) (c : Cmd) (s : State) (v : Pav),
    let p := c.pavilion
    s.pav p = some v →
    (s.due id 0x0301 c →
      let mask := if c.expert = true then bits (c.word 2) 63 32 else 0
      let a := c.word 0
      let n := bits (c.word 1) 31 0
      a % 64 = 0 → (∀ k ∈ maskBits 32 mask, v.clusters.contains k = true) →
      s.badRange c.port c.fn a (max n 128) = none → s.badRead a (max n 128) = none →
      ∀ g, parseImage (s.readMem a n) n = .ok g → s.badBind c v g = none →
      let consts := (List.range g.tensors.length).filter fun i => (g.tensor i).kind == 5
      (∀ i ∈ consts, s.badRead (g.tensor i).bindAddr (g.boundBytes i 0) = none) →
      ∀ h, (if c.expert = true then h = bits (c.word 2) 2 0 ∧ (thas v.handles h = false ∨ bitAt (c.word 2) 8 = true)
          ∧ ∀ r, v.run = some r → r.handle ≠ h
        else ((List.range 8).find? fun h => !thas v.handles h) = some h) →
      ∀ copy s1, (s.freeHandle p h).allocAny p n 4096 0 = some (copy, s1) →
      ∀ l s2, (s1.writeMem copy (s.readMem a n)).loadConstants p g consts = some (l, s2) →
      exec (.programLoad id) s = .next ((s2.modPav p fun v => { v with handles := tset v.handles h {
          image := g, addr := copy, bytes := n, clusterMask := mask, constants := l
          mode := if g.level = 2 then 1 else 0 } }).finish c
        (pack [(8, g.programId), (1, h), (3, 0), (4, g.ops.length), (8, n + sumNat (l.map fun x => x.2.2))])))
    ∧ (s.due id 0x0304 c → ∀ h, tfind v.handles (bits (c.word 0) 2 0) = some h →
      (∀ r, v.run = some r → r.handle ≠ bits (c.word 0) 2 0) →
      exec (.programUnload id) s = .next ((s.freeHandle p (bits (c.word 0) 2 0)).finish c [])
        ∧ ∃ u, (s.freeHandle p (bits (c.word 0) 2 0)).pav p = some u ∧ tfind u.handles (bits (c.word 0) 2 0) = none)
    ∧ (s.due id 0xF001 c → ∀ h, tfind v.handles (bits (c.word 0) 2 0) = some h →
      (∀ r, v.run = some r → r.handle ≠ bits (c.word 0) 2 0) →
      let m := if bitAt (c.word 0) 8 = false then 0 else if (c.expert && bitAt (c.word 1) 0) = true then 2 else 1
      (bitAt (c.word 0) 8 = true ∨ h.image.level ≠ 2) →
      (bitAt (c.word 0) 8 = true → h.image.level = 3 → h.image.forerunnerFault = none) →
      exec (.forerunnerNumerics id) s = .next ((s.modPav p fun v => { v with
        handles := tset v.handles (bits (c.word 0) 2 0) { h with mode := m } }).finish c (pack [(1, h.mode), (1, m)])))

/-- R119, R257, R123, R285: PROGRAM_RUN and STEP_RUN start a run of a loaded image, which then holds the pavilion's
first or next step; PROGRAM_STOP ends a run at once, or marks it to stop at its step boundary. -/
def Obligations.ProgramsRunAndStop : Prop :=
  ∀ (id : Nat) (c : Cmd) (s : State) (v : Pav) (h : Handle),
    let p := c.pavilion
    let hd := bits (c.word 0) 2 0
    s.pav p = some v →
    (tfind v.handles hd = some h → v.role ≠ 0 → v.run = none → v.sealing = none → v.reshape.state ≠ 1 →
      v.reshape.state ≠ 2 → v.barrier = none →
      ((h.image.tensors.any (·.sharded)) = true → ∃ l, v.reshape.active = some l ∧ l.sliceCount = h.image.sliceCount
        ∧ h.image.mapFault l = none) →
      (s.due id 0x0302 c → (c.expert = true → let ms := bits (c.word 1) 63 32; ms = 0 ∨ 100 ≤ ms ∧ ms ≤ 600000) →
        s.fits p hd 0 1 = true →
        ∃ t u r, exec (.programRun id) s = .next t ∧ t.pav p = some u ∧ u.run = some r ∧ r.cmd = id ∧ r.handle = hd
          ∧ r.isStep = false ∧ r.iterations = max 1 (bits (c.word 0) 63 32) ∧ r.iteration = 0 ∧ r.first = 0 ∧ r.phase = 0
          ∧ r.done = [] ∧ r.finished = [] ∧ r.tokens = [] ∧ r.progressMs ≠ 0 ∧ (t.cmd id).any (·.phase == .started) = true)
      ∧ (s.due id 0x0401 c →
        let w := fun (hi lo d : Nat) => if c.expert = true then bits (c.word 1) hi lo else d
        let ms := w 63 32 0
        (ms = 0 ∨ 100 ≤ ms ∧ ms ≤ 600000) → w 19 16 0 ≤ 8 → (h.image.op (h.image.ops.length - 1)).code = 0x5F →
        max 1 (w 19 16 1) ≤ v.clusters.length → s.fits p hd (w 23 20 2) (max 1 (w 19 16 1)) = true →
        ∃ t u r, exec (.stepRun id) s = .next t ∧ t.pav p = some u ∧ u.run = some r ∧ r.cmd = id ∧ r.handle = hd
          ∧ r.isStep = true ∧ r.stepsAsked = max 1 (bits (c.word 0) 63 32) ∧ r.stepsDone = 0 ∧ r.first = h.stepPos
          ∧ r.phase = 0 ∧ r.stages = max 1 (w 19 16 1) ∧ r.gatherAhead = w 23 20 2 ∧ r.mbSlices = max 1 (w 31 24 1)
          ∧ r.progressMs = (if ms = 0 then 10000 else ms) ∧ r.done = []
          ∧ r.finished = [] ∧ (t.cmd id).any (·.phase == .started) = true))
    ∧ (s.due id 0x0303 c →
      (v.run = none → exec (.programStop id) s = .next (s.finish c []))
      ∧ (∀ r, v.run = some r → tfind v.handles r.handle = some h →
        let atStep := (c.expert && bitAt (c.word 0) 0) || v.sealing.isSome
        (atStep = true → r.phase = 0 → exec (.programStop id) s
          = .next ((s.started c).modRun p fun r => { r with stopAtStep := some (c.serial, 0) }))
        ∧ (atStep = false → ∃ t u, exec (.programStop id) s = .next t ∧ t.cmd id = none ∧ t.pav p = some u
          ∧ u.run = none)))

/-- R108 to R110, R121, R260, R370: a ready tile that precedes every other ready one goes in flight; WAIT_TOKEN and
SIGNAL_TOKEN finish and count their token; STEP_MARK counts its token and brings the
step boundary; a run that makes no progress ends, and one
that waits for its barrier instant begins its step at it. -/
def Obligations.TilesStartAndTokensMove : Prop :=
  ∀ (p : Fin 8) (s : State) (v : Pav) (r : Run) (h : Handle), s.runOf p.val = some (v, r, h) →
    let g := h.image
    (∀ x, s.tileReady v r h x = true → s.firstReady v r h x = true →
      exec (.tileStart p x) s = .next (s.modRun p.val fun r => { r with
        inflight := r.inflight ++ [{ tile := x, startedAt := s.now, rates := v.clusters.map fun c => (c, s.rateOf c)
                                     initial := if (g.op x.op).acc = true then s.tileCodes v r.handle h x else [] }]
        startedOps := addNew r.startedOps x.op, snaps := r.snaps ++ s.snapsFor v r h x
        lastProgress := if r.startedOps.contains x.op = true then r.lastProgress else s.clock }))
    ∧ (∀ i, r.phase = 0 → i ∈ g.stepOps r.first → (g.op (g.stepLast r.first)).code = 0x5F → i ∉ r.finished →
      r.tokensAllow g i = true →
      ((g.op i).code = 0x50 → ∃ t u q, exec (.waitToken p i) s = .next t ∧ t.pav p.val = some u ∧ u.run = some q
        ∧ q.finished = r.finished ++ [i] ∧ q.opsDone = r.opsDone + 1 ∧ t.mem = s.mem ∧ t.rings = s.rings)
      ∧ ((g.op i).code = 0x51 → r.earlierDone g i = true →
        ∃ t u q, exec (.signalToken p i) s = .next t ∧ t.pav p.val = some u ∧ u.run = some q
          ∧ q.finished = r.finished ++ [i] ∧ t.mem = s.mem ∧ t.rings = s.rings
          ∧ ((g.op i).signal ≠ 0 → tget q.tokens (g.op i).signal 0 = sat16 (tget r.tokens (g.op i).signal 0 + 1))))
    ∧ (∀ i, r.phase = 0 → (g.op i).code = 0x5F → i ∈ g.stepOps r.first → r.earlierDone g i = true →
      r.reached g (g.op i).wait = true → v.sealing = none →
      exec (.stepMark p i) s = .next (s.markStep p.val i)
      ∧ (r.notifySteps = false → r.stopAtStep = none → r.isStep = true → r.stepsDone + 1 < r.stepsAsked →
        (s.dueDeferred p.val).any (fun c => c.opcode != 0x0121) = true →
        ∃ t u q, exec (.stepMark p i) s = .next t ∧ t.pav p.val = some u ∧ u.run = some q ∧ q.phase = 1
          ∧ q.stepsDone = r.stepsDone + 1 ∧ q.boundary = s.now ∧ q.first = (if i + 1 = g.ops.length then 0 else i + 1)
          ∧ q.tokens = (r.signal (g.op i).signal).tokens.filter (fun e => (g.tokens.getD e.1 (false, 0)).1) ∧ t.mem = s.mem))
    ∧ (r.lastProgress + r.progressMs * 1000000 ≤ s.clock → (∀ x ∈ v.colls, x.done = true) →
      ∃ t u, exec (.progressTimeout p) s = .next t ∧ t.pav p.val = some u ∧ u.run = none ∧ t.cmd r.cmd = none)
    ∧ (∀ b, v.barrier = some b → r.phase = 2 → b.at_ + b.next * b.period ≤ s.now →
      ∃ t u q, exec (.barrierInstant p) s = .next t ∧ t.pav p.val = some u ∧ u.run = some q ∧ q.phase = 0
        ∧ q.stepStart = s.now ∧ q.finished = [])

/-! ### The engines and the program's tiles (chapters 05 to 08) -/

/-- R126 to R149, R188, R189, R197, R224: a pass that an engine may take stacks its tiles, and on an idle engine waits for
its shadow registers; one that follows another streams its first loading at once; each further loading streams, or stalls
while the shadow registers load, and SHADOW_LOAD_DONE lets it go on; a pass that a mask leaves without rows is skipped; an
operand that cannot be read ends the run. A raw drain hands its sums to the stitch buffer of the closing engine's cluster, the
final drain empties the bank and releases its sums; a stitch sum is added once it has arrived, and one that cannot be read
goes. An uncorrectable error drops the pass, and the second within 1 s fails the core. How
tiles stack and where a stitch sum lies are the model's choices (logs 46, 47). -/
def Obligations.MatrixEnginesRunPasses : Prop :=
  ∀ (s : State),
    (∀ (p : Fin 8) (q : PassRef) (cmd : MemErrors → Nat → Instr) (code : Nat) (x : Inst) (v : Pav) (r : Run) (h : Handle),
      cmd = (fun errs n => .matmul p ⟨q, errs, n⟩) ∧ code = 1 ∨ cmd = (fun errs n => .matmulWgrad p ⟨q, errs, n⟩) ∧ code = 2 →
      s.flying p.val code q.tile = some x → s.runOf p.val = some (v, r, h) →
      let e := q.eng.val
      let k := q.bank.val
      let tiles := s.stack v r x q
      let full := ∃ t ∈ tiles, ∃ y, s.flying p.val code t.1 = some y ∧ y.blockRows t.1 q.block ≠ []
      (∀ fixed, (∀ y ∈ r.inflight, y.tile = q.tile → (q.block, q.stitch) ∉ y.passes) →
        q.block < x.blocks q.tile → q.stitch < x.stitches →
        (s.activeCores (r.clustersFor v h x.o)).contains (e / 2) = true → (s.engine e).takes k (x.tall q.tile) = true →
        (∀ t ∈ tiles, s.tileReach p.val (e / 2) t.1 = true) →
        (q.stitch = 0 → ∀ y ∈ s.sumsOf p.val q.block (tiles.map (·.1)), y.cluster = e / 12) →
        ((∀ t ∈ tiles, s.badTile p.val t.1 = none) → full →
          ∃ t b, exec (cmd [] fixed) s = .next t ∧ tfind (t.engine e).banks k = some b ∧ b.pav = p.val ∧ b.pass = q
            ∧ b.tiles = tiles ∧ b.stitches = x.stitches ∧ b.added = 0
            ∧ (t.engine e).nextBank = (if x.tall q.tile = true then 0 else 1 - k)
            ∧ ((s.engine e).banks = [] → (t.engine e).stalled = true ∧ b.loads = 0 ∧ b.complete = false
                ∧ (t.engine e).shadow = x.weights x.o.wide q.tile q.block q.stitch 0)
            ∧ ((s.engine e).banks ≠ [] → (t.engine e).stalled = false ∧ b.loads = 1
                ∧ (t.engine e).current = x.weights x.o.wide q.tile q.block q.stitch 0)
            ∧ t.mem = s.mem ∧ t.rings = s.rings)
        ∧ ((∀ t ∈ tiles, s.badTile p.val t.1 = none) → ¬ full → q.stitch ≠ 0 →
          ∃ t, exec (cmd [] fixed) s = .next t ∧ t.engines = s.engines ∧ t.mem = s.mem)
        ∧ (∀ errs w, (tiles.findSome? fun t => (s.meetTiles p.val (tiles.map (·.1)) errs).badTile p.val t.1) = some w →
          ∃ t u, exec (cmd errs fixed) s = .next t ∧ t.pav p.val = some u ∧ u.run = none))
      ∧ (∀ k b fixed, ((s.engine e).banks.find? fun b => !b.2.complete) = some (k, b) → b.pav = p.val → b.pass = q →
        (s.engine e).stalled = false →
        ((s.engine e).shadowReady = false →
          exec (cmd [] fixed) s = .next (s.modEngine e fun g => { g with stalled := true }))
        ∧ ((s.engine e).shadowReady = true → (∀ t ∈ b.tiles, s.badTile p.val t.1 = none) →
          exec (cmd [] fixed) s = .next (s.streamLoad e k b fixed))))
    ∧ (∀ (e k fixed : Nat) (b : Bank) (x : Inst), s.bankInst b b.pass.tile = some x →
      let u := s.streamLoad e k b fixed
      (u.engine e).stalled = false ∧ (u.engine e).current = (s.engine e).shadow
        ∧ tfind (u.engine e).banks k = some { b with
            loads := b.loads + 1, complete := decide (x.loads x.o.wide b.pass.stitch ≤ b.loads + 1) }
        ∧ (∀ j, j ≠ e → u.engine j = s.engine j) ∧ u.mem = s.mem)
    ∧ (∀ (e : Fin 384) k b, ((s.engine e.val).banks.find? fun b => !b.2.complete) = some (k, b) →
      ((s.engine e.val).stalled = true → exec (.shadowLoadDone e) s = .next (s.streamLoad e.val k b 0))
      ∧ ((s.engine e.val).stalled = false →
        exec (.shadowLoadDone e) s = .next (s.modEngine e.val fun g => { g with shadowReady := true })))
    ∧ (∀ (e : Fin 384) (k : Fin 2) b, tfind (s.engine e.val).banks k.val = some b → b.complete = true →
      (b.pass.stitch ≠ 0 →
        let sums := b.tiles.filterMap fun t =>
          let rows := s.tileSums e.val b t
          if rows.isEmpty then none
          else some ({ pav := b.pav, tile := t.1, block := b.pass.block, stitch := b.pass.stitch, rows := rows } : StitchSum)
        let home := s.closingCluster b.pav b.pass.block b.pass.tile (e.val / 12)
        (s.putSums home sums = none → exec (.bankDrain e k) s = .next s)
        ∧ (∀ u, s.putSums home sums = some u → exec (.bankDrain e k) s = .next (u.dropBank e.val k.val)
          ∧ tfind ((u.dropBank e.val k.val).engine e.val).banks k.val = none
          ∧ ((b.tiles.map (·.1)).Nodup → ∀ y ∈ sums, ∃ z ∈ u.stitches, z.same y = true ∧ z.rows = y.rows ∧ z.cluster = home)))
      ∧ (b.pass.stitch = 0 → b.stitches ≤ b.added + 1 → ∃ t, exec (.bankDrain e k) s = .next t
        ∧ tfind (t.engine e.val).banks k.val = none
        ∧ (∀ y x, b.tiles = [y] → s.bankInst b y.1 = some x →
          ∀ z ∈ t.stitches, ¬ (z.pav = b.pav ∧ z.tile = y.1 ∧ z.block = b.pass.block))))
    ∧ (∀ (e : Fin 384) (k : Fin 2) b, tfind (s.engine e.val).banks k.val = some b → b.complete = true →
      b.pass.stitch = 0 → b.added + 1 < b.stitches →
      (s.nextSums e.val b = none → exec (.stitchAdd e k) s = .next s)
      ∧ (∀ sums, s.nextSums e.val b = some sums →
        ((∀ y ∈ sums, s.badRead y.2.2.addr y.2.2.bytes = none) →
          exec (.stitchAdd e k) s = .next (s.modEngine e.val fun g => { g with
            entries := (sums.flatMap fun y =>
              (addRows (s.tileSums e.val b (y.1, y.2.1)) y.2.2.rows).map fun r => (y.2.1 + r.1, r.2)).foldl
                (fun m y => tset m y.1 y.2) g.entries
            banks := tset g.banks k.val { b with added := b.added + 1 } }))
        ∧ (∀ y w, (sums.findSome? fun y => (s.badRead y.2.2.addr y.2.2.bytes).map fun w => (y.2.2, w)) = some (y, w) →
          (∀ t, (s.cluster y.cluster).stitchBad = some t → t + 1000000000 ≤ s.clock) →
          ∃ t, exec (.stitchAdd e k) s = .next t ∧ y ∉ t.stitches ∧ (t.cluster y.cluster).stitchBad = some s.clock
            ∧ t.mem = s.mem)))
    ∧ (∀ (e : Fin 384) (k : Fin 2) b, let j := (s.engine e.val).bankKey k.val
      tfind (s.engine e.val).banks j = some b →
      ((∀ t, (s.engine e.val).lastBad = some t → t + 1000000000 ≤ s.clock) →
        ∃ t, exec (.accUncorrectable e k) s = .next t ∧ tfind (t.engine e.val).banks j = none
          ∧ (t.engine e.val).lastBad = some s.clock ∧ t.cores = s.cores ∧ t.mem = s.mem)
      ∧ (∀ a, (s.engine e.val).lastBad = some a → s.clock < a + 1000000000 →
        ∃ t, exec (.accUncorrectable e k) s = .next t
          ∧ ((t.core (e.val / 2)).failed = true ∨ (t.core (e.val / 2)).retired = true)))

/-- R199 to R211, R224, R234, R243: a tile in flight whose operands can be reached and read, and whose results hold no NaN, is
computed, converted, stored and finished on its home core, the last tile of a NORM_BWD with its column sums; a gather of a
program copies on its mover; an offload puts a tile into LPDDR5X, and a restore brings it back with every bit. Where
an offloaded tile lies is the model's choice (log 48). -/
def Obligations.VectorAndMoverTilesFinish : Prop :=
  ∀ (p : Fin 8) (t : TileRef) (s : State) (x : Inst),
    let core := s.homeCore p.val t
    let place := placeCore core 2
    let lasts := (x.img.instTiles x.o t.op t.slice).all fun u => u == t || (s.runOf p.val).any fun y => y.2.1.done.contains u
    let counted := fun (n : Nat) => ((s.count (ctrId place 2 1) n).count (ctrId place 2 2) (x.workOf t).1).count
      (ctrId place 2 3) (x.workOf t).2
    s.tileReach p.val core t = true →
    (∀ (i : Instr) (code : Nat), (i, code) ∈ [(Instr.elementwise p t, 0x10), (.reduce p t, 0x11), (.normFwd p t, 0x18),
        (.normBwd p t, 0x19), (.softmaxFwd p t, 0x1A), (.softmaxBwd p t, 0x1B), (.tieSum p t, 0x32)] →
      s.flying p.val code t = some x → s.badTile p.val t = none →
      (code = 0x19 → lasts = false) →
      ∀ s1 ws, (counted (x.tile t).length).writeTile p.val x.hd x.h x.o.out t (x.tile t) = (s1, ws) →
      firstNan ws = none →
      exec i s = .next (s1.finishTile p.val t core place))
    ∧ (s.flying p.val 0x19 t = some x → s.badTile p.val t = none → lasts = true →
      let size := fun (i : Nat) (l : List Elem) => if i = 0 then 0 else l.length
      ∀ s1 ws s2 m2 s3 m3,
        (counted ((x.tile t).length + size x.o.out2 x.normSums.1 + size x.o.out3 x.normSums.2)).writeTile
          p.val x.hd x.h x.o.out t (x.tile t) = (s1, ws) → firstNan ws = none →
        s1.writeSums p.val place t x.o.out2 x.normSums.1 = (s2, m2) →
        s2.writeSums p.val place t x.o.out3 x.normSums.2 = (s3, m3) →
        exec (.normBwd p t) s = .next (s3.finishTile p.val t core place (m2 ++ m3)))
    ∧ (s.flying p.val 0x20 t = some x → s.badTile p.val t = none →
      exec (.windowGather p t) s = .next ((forEach (x.windowCodes t) (fun s e =>
        s.putCode p.val x.hd x.h x.o.out t.slice (x.img.tileCoord x.o.out t e.1 e.2.1) e.2.2) s).moverTile p.val 3 t
          (x.windowReads t * formatBits (x.img.tensor x.o.a).format / 8) (x.tileBytes x.o.out t)))
    ∧ (s.flying p.val 0x38 t = some x → s.badTile p.val t = none →
      let i := x.o.a
      let key := (x.img.tensor i).key t.slice
      let n := x.tileBytes i t
      let room := (s.modPav p.val fun v => v.dropOff fun y => y.is x.hd i key t).offRanges p.val n
      (room = none → exec (.offloadOp p t) s = .next s)
      ∧ (∀ s1 rs, room = some (s1, rs) →
        let off : OffTile := { handle := x.hd, tensor := i, slice := key, d3 := t.d3, d2 := t.d2, row := t.row, col := t.col
                               ranges := rs }
        let s2 := (forEach rs (fun (a : State × List Byte) r => (a.1.writeMem r.1 (a.2.take r.2), a.2.drop r.2))
          (s1, x.tileImage i t)).1.renew rs
        let last := s2.pavs.any fun e => e.1 == p.val && e.2.run.any fun r =>
          (x.img.opTiles t.op (s2.heldSlices e.2 x.img)).all fun u => u == t || r.done.contains u
        exec (.offloadOp p t) s = .next ((s2.modPav p.val fun v => { v with
          offTiles := v.offTiles ++ [off]
          data := if last = true then v.data.filter fun d => !(d.handle == x.hd && d.tensor == i) else v.data }).moverTile
            p.val 4 t n n)))
    ∧ (s.flying p.val 0x39 t = some x →
      let i := x.o.out
      let key := (x.img.tensor i).key t.slice
      let n := x.tileBytes i t
      ((x.v.offTiles.find? fun y => y.is x.hd i key t) = none →
        ∀ errs, exec (.restoreOp p ⟨t, errs⟩) s = .next (s.moverTile p.val 5 t n n))
      ∧ (∀ off, (x.v.offTiles.find? fun y => y.is x.hd i key t) = some off →
        ((∀ r ∈ off.ranges, s.badRead r.1 r.2 = none) →
          exec (.restoreOp p ⟨t, []⟩) s = .next (((forEach (List.range (x.img.tileSize i t).1) (fun u r =>
            forEach (List.range (x.img.tileSize i t).2) (fun u c => u.putCode p.val x.hd x.h i t.slice
              (x.img.tileCoord i t r c) (x.imageCode i (x.img.tileSize i t).2 r c
                (off.ranges.flatMap fun y => s.readMem y.1 y.2))) u) s).modPav p.val fun v =>
                  v.dropOff fun y => y.is x.hd i key t).moverTile p.val 5 t n n))
        ∧ (∀ errs w, (off.ranges.findSome? fun r =>
            (s.meet errs fun w => off.ranges.any fun r => overlaps w (codeWord w) r.1 r.2).badRead r.1 r.2) = some w →
          ∃ u z, exec (.restoreOp p ⟨t, errs⟩) s = .next u ∧ u.pav p.val = some z ∧ z.run = none)))

/-! ### The shard ledger (chapter 10) -/

/-- R272, R276, R281 to R283, R285: UPDATE stages a reduced shard, SEAL_WRITE seals the step, SHARD_COMMIT makes the
staged slot current and the last one writes DONE; ROLL_FORWARD ends an interrupted step whose shards can be read. -/
def Obligations.LedgerStepsCommit : Prop :=
  ∀ (p : Fin 8) (s : State) (v : Pav), s.pav p.val = some v →
    (∀ op n r h, s.opReady p.val op 0x40 = some (v, r, h) →
      let g := h.image
      let o := g.op op
      let x := s.shard n
      let hyper := (List.range 64).map fun j => BitVec.ofNat 8 (s.codeAt v r.handle h o.hyper 0 (j, 0, 0, 0))
      n ∈ s.updateShards p.val v g op → x.frozen = false → x.staged = false → x.migrating = false → x.state = 2 →
      x.damaged = false → s.ledger.unreadable.contains n = false → v.mayWrite n = true →
      s.shardReach n = true →
      s.hazardFree v r h op (g.accesses o (noTile op)) = true → v.sealing = none → s.dieLost (n / 131072) = false →
      s.badOperand v h 0 (g.wholeAcc o.hyper none false) = none →
      ∀ s1, s.stageShard n op hyper (v.stepSeq + 1) r.nanRunOn = (s1, .staged) →
      ∃ t, exec (.update p op n) s = .next t ∧ (t.shard n).staged = true ∧ (t.shard n).state = 3
        ∧ (t.shard n).sealSeq = BitVec.ofNat 32 (v.stepSeq + 1) ∧ (t.shard n).cur = x.cur
        ∧ (t.shard n).version = x.version ∧ ∀ m, m ≠ n → t.shard m = s.shard m)
    ∧ (v.sealing = none → v.stopped = false →
      (∀ n ∈ s.shardsOf p.val, (s.shard n).paired = true → (s.shard n).mirrorPending = false) →
      (∀ r h, s.runOf p.val = some (v, r, h) →
        let g := h.image
        let step := g.stepOps r.first
        let ups := step.filter fun j => (g.op j).code == 0x40 && !r.finished.contains j
        let all := ups.flatMap fun j => s.updateShards p.val v g j
        r.phase = 0 → ups ≠ [] → v.samples = [] →
        (∀ j ∈ step, j ∈ r.finished ∨ g.perSlice (g.op j) = false ∧ (g.op j).code ≠ 0x31) →
        (∀ j ∈ ups, r.tokensAllow g j = true) → (∀ n ∈ all, (s.shard n).staged = true ∨ (s.shard n).frozen = true) →
        exec (.sealWrite p) s = .next (s.writeSeal p.val (all.filter fun n => (s.shard n).staged).eraseDups g.programId
          (r.markIndex g) 0 none 0))
      ∧ (∀ c, v.run = none → (s.cmds.find? fun c => c.opcode == 0x0410 && c.phase == .started && c.pavilion == p.val) = some c →
        exec (.sealWrite p) s = .next (s.writeSeal p.val ((s.shardsOf p.val).filter fun n => (s.shard n).staged) 0 0 1
          (some c.serial) (c.params.getLast?.getD 0))))
    ∧ (∀ todo pid op kind cmd fz, todo ≠ [] → ∃ u, (s.writeSeal p.val todo pid op kind cmd fz).pav p.val = some u
      ∧ u.stepSeq = v.stepSeq + 1
      ∧ u.sealing = some { seq := v.stepSeq + 1, todo := todo, cmd := cmd, frozen := fz }
      ∧ (tfind u.journal ((v.stepSeq + 1) % 16)).map (fun e => (e.state, e.stepSeq, e.sealTime)) = some (1, v.stepSeq + 1, s.now))
    ∧ (∀ x n rest, v.sealing = some x → x.halted = false → v.stopped = false → x.todo = n :: rest →
      (s.shard n).staged = true → s.shardReach n = true → s.ledger.unreadable.contains n = false →
      s.badSlot (s.shard n) (s.nextSlot n) = none →
      let y := s.shard n
      ∃ t u, exec (.shardCommit p n) s = .next t ∧ t.pav p.val = some u
        ∧ (t.shard n).cur = !y.cur ∧ (t.shard n).version = y.version + 1 ∧ (t.shard n).staged = false
        ∧ (t.shard n).gradCur = true ∧ (t.shard n).commitTime = s.now ∧ (t.shard n).state = 4
        ∧ (rest.filter (· != n) ≠ [] → u.sealing = some { x with todo := rest.filter (· != n), committed := x.committed + 1 })
        ∧ (rest.filter (· != n) = [] → u.sealing = none ∧ ∀ e, tfind v.journal (x.seq % 16) = some e →
          (tfind u.journal (x.seq % 16)).map (fun e => (e.state, e.doneTime, e.commitCount)) = some (2, s.now, x.committed + 1)))
    ∧ (∀ x, v.sealing = some x → x.halted = true → x.pending = false → v.stopped = false → x.todo.Nodup →
      (∀ n ∈ x.todo, s.ledger.unreadable.contains n = false ∧ s.badSlot (s.shard n) (s.nextSlot n) = none) →
      ∃ t u, exec (.rollForward p) s = .next t ∧ t.pav p.val = some u ∧ u.sealing = none
        ∧ ∀ n ∈ x.todo, (t.shard n).staged = false)

/-- R291 to R293: SHARD_UPDATE stages its shards with the gradients given; LEDGER_QUERY reports records, the journal or
norms; LEDGER_REPAIR discards, rolls forward, reverts, rewrites, redigests, freezes and thaws. What the repairs do
with a step whose journal entry is lost, or that is pending, is read from R288 (logs 28, 51). -/
def Obligations.LedgerCommandsAnswer : Prop :=
  ∀ (id : Nat) (c : Cmd) (s : State),
    let p := c.pavilion
    let w := c.word
    (s.due id 0x0410 c → ∀ v, s.pav p = some v → v.role ≠ 0 → v.run = none → v.sealing = none → v.reshape.state ≠ 1 →
      v.reshape.state ≠ 2 → (∀ x ∈ s.cmds, x.opcode = 0x0410 → x.pavilion = p → x.phase ≠ .started) →
      let count := if c.expert = true then bits (w 3) 63 32 else 1
      let list := if c.expert = true then (words 4 (s.readMem (w 0) (4 * count))).map (· % 2 ^ 20) else [w 0 % 2 ^ 20]
      let grad := if c.expert = true then w 2 else 0
      let total := sumNat (list.map fun n => gradLen (s.shard n))
      w 1 % 64 = 0 → s.badRange c.port c.fn (w 1) 64 = none → s.badRead (w 1) 64 = none → 1 ≤ count → count ≤ 131072 →
      (c.expert = true → w 0 % 4 = 0 ∧ s.badRange c.port c.fn (w 0) (4 * count) = none ∧ s.badRead (w 0) (4 * count) = none) →
      list.eraseDups.length = list.length →
      (∀ n ∈ list, s.ledger.unreadable.contains n = false ∧ s.updateRej p n (grad != 0) = .ok () ∧ v.mayWrite n = true
        ∧ s.shardReach n = true) →
      (grad ≠ 0 → grad % 4 = 0 ∧ s.badRange c.port c.fn grad total = none ∧ s.badRead grad total = none) →
      ∀ s1, s.stageList p (v.stepSeq + 1) grad (s.readMem (w 1) 64) list = (s1, none) →
      exec (.shardUpdate id) s = .next ((s1.started c).modCmd c.serial fun c => { c with
        params := c.params ++ [(list.filter fun n => (s.shard n).frozen).length] }))
    ∧ (s.due id 0x0418 c →
      (c.expert = false →
        let n := bits (w 0) 19 0
        s.ledger.unreadable.contains n = false → c.sees (s.shard n) = true →
        exec (.ledgerQuery id) s = .next (s.finish c ((recBytes (s.shard n)).drop 16)))
      ∧ (c.expert = true →
        let first := bits (w 1) 19 0
        let kind := bits (w 2) 63 56
        let last := min (first + bits (w 1) 63 32) (if kind = 1 then 16 else if kind = 2 then 4096 else 1048576)
        let recs := s.ledger.recs.filter fun e => decide (first ≤ e.1 ∧ e.1 < last) && c.sees e.2
        let send := fun (out : List (List Byte)) => w 0 % 64 = 0 →
          s.badRange c.port c.fn (w 0) (max 1 out.flatten.length) = none → s.takes c (w 0) out.flatten.length →
          exec (.ledgerQuery id) s = .next ((s.writeMem (w 0) out.flatten).finish c (pack [(4, out.length), (4, last - first)]))
        (kind = 0 → (∀ e ∈ recs, s.ledger.unreadable.contains e.1 = false) →
          send ((recs.filter fun e => (!bitAt (w 2) 8 || e.2.damaged || e.2.gradLost || e.2.mirrorPending)
            && (bits (w 2) 7 0 == 0 || (bits (w 2) 7 0).testBit e.2.state)).map fun e => recBytes e.2))
        ∧ (∀ v, kind = 1 → s.pav p = some v → first < 16 →
          (∀ i, first ≤ i → i < last → s.journalLost p v i = none) →
          send (((List.range (last - first)).map (· + first)).map fun i => match tfind v.journal i with
            | some e => journalBytes p e
            | none => List.replicate 64 0))
        ∧ (∀ v, kind = 2 → s.pav p = some v → first < 4096 →
          send (((List.range (last - first)).map (· + first)).map fun i => match tfind v.norms i with
            | some (a, b, d, q) => pack [(4, a), (4, b), (4, d), (4, q)]
            | none => List.replicate 16 0))
        ∧ (kind = 3 → send (recs.map fun e => shardNormBytes (tget s.ledger.norms e.1 {})))))
    ∧ (s.due id 0x0419 c → ∀ v, s.pav p = some v →
      let act := bits (w 0) 7 0
      let n := bits (w 0) 51 32
      let named := s.ledger.unreadable.contains n = false ∧ (s.shard n).valid = true ∧ (s.shard n).pavilion = p
        ∧ (s.shard n).migrating = false ∧ (s.shard n).version.toNat = bits (w 1) 15 0
      ((c.expert = false ∨ act = 1) → v.sealing.isSome = true → exec (.ledgerRepair id) s = .next (s.repairForward c))
      ∧ ((c.expert = false ∨ act = 1) → v.sealing = none → s.sealedAnyway p ≠ [] →
        exec (.ledgerRepair id) s = .next ((s.unseal p).repairForward c))
      ∧ ((c.expert = false ∨ act = 2) → v.sealing = none → s.sealedAnyway p = [] →
        exec (.ledgerRepair id) s = .next ((s.unseal p).finish c []))
      ∧ (c.expert = true → act = 3 → v.sealing.all (·.pending) = true → ∀ t, s.repairRevert c v = .ok t →
        exec (.ledgerRepair id) s = .next t)
      ∧ (c.expert = true → act = 4 → (s.ledger.unreadable.contains n = true ∨ named) →
        ∀ t, s.repairRewrite c n (recOfBytes (unwords 8 (c.params.drop 2))) = .ok t → exec (.ledgerRepair id) s = .next t)
      ∧ (c.expert = true → act = 5 → named → exec (.ledgerRepair id) s = .next (s.repairRedigest c n))
      ∧ (c.expert = true → act = 6 → named → (s.shard n).state ≠ 3 →
        exec (.ledgerRepair id) s = .next ((s.modShard n fun r => { r with frozen := true }).finish c []))
      ∧ (c.expert = true → act = 7 → named →
        exec (.ledgerRepair id) s = .next ((s.modShard n fun r => { r with frozen := false }).finish c [])))

/-! ### Reshape (chapter 11) -/

/-- R303 to R306, R316: RESHAPE_BEGIN opens a reshape to a valid layout and sends the shards that leave, creates its shards
under a first layout, or is ready at once when nothing moves; a shard that arrives intact is placed, an acknowledged one is
settled, one asked for again is sent again, and the transfer timeout ends the command. Shards go to modules that
level-3 packets reach; what ends the transfer to another is log 29's. -/
def Obligations.ReshapesMoveShards : Prop :=
  (∀ (id : Nat) (c : Cmd) (s : State) (v : Pav),
    let p := c.pavilion
    let w := c.word
    let n := bits (w 1) 31 0
    let ms := if c.expert = true then bits (w 2) 63 32 else 0
    let verify := c.expert && bitAt (w 2) 0
    s.due id 0x0430 c → s.pav p = some v → v.reshape.state = 0 → v.sealing = none → v.atBoundary = true →
    (ms = 0 ∨ 1000 ≤ ms ∧ ms ≤ 3600000) → w 0 % 64 = 0 → s.badRange c.port c.fn (w 0) (max n 64) = none →
    s.badRead (w 0) (max n 64) = none → ∀ l, parseLayout (s.readMem (w 0) n) n s.ownId p = .ok l →
    let creates := v.reshape.active.isNone && l.epoch == 1
    let owned := s.ownedShards l
    let mine := (s.shardsOf p).filter fun k => !(s.shard k).migrating
    let leaving := if v.reshape.active.isNone = true then [] else mine.filter fun k => !s.ownsIn l k
    let coming := if creates = true then [] else owned.filter fun k => !(v.reshape.active.any fun a => s.ownsIn a k)
    let room := fun (tier : Nat) => sumNat ((if creates = true then owned else coming).map fun k => match l.pieceOf k with
      | none => 0
      | some (e, _) => (if b2n e.slotTier = tier then 8192 * (newRecord l k e e.pieceRows).slotPages else 0)
          + if b2n e.gradTier = tier then 8192 * pages (4 * (newRecord l k e e.pieceRows).length) else 0)
    s.layoutRelation p v l creates = .ok () → room 0 ≤ s.room v 0 → room 1 ≤ s.room v 1 →
    (∀ k ∈ leaving, (∀ x, l.holderOf (l.owner k) = some x → s.reaches x.device = true) ∧ (s.shard k).damaged = false ∧ ((s.shard k).paired = true → (s.shard k).mirrorPending = false)
      ∧ s.badSlot (s.shard k) ((s.shard k).slotAddr (s.shard k).cur) = none
      ∧ (verify = true → slotDigest k (s.shard k).version.toNat
          (s.readArrays (s.shard k) ((s.shard k).slotAddr (s.shard k).cur)) = (s.shard k).digest)) →
    (creates = false →
      ∃ t u, exec (.reshapeBegin id) s = .next t ∧ t.pav p = some u ∧ u.reshape.pending = some l
        ∧ u.reshape.active = v.reshape.active
        ∧ (leaving ++ coming ≠ [] → u.reshape.state = 1 ∧ u.reshape.cmd = some id ∧ u.reshape.expect = coming
            ∧ u.reshape.unacked = leaving ∧ (t.cmd id).any (·.phase == .started) = true)
        ∧ (∀ k ∈ leaving, (t.shard k).migrating = true ∧ (t.shard k).state = 0)
        ∧ (leaving ++ coming = [] → u.reshape.state = 2 ∧ t.cmd id = none))
    ∧ (creates = true →
      (∀ e ∈ l.map, e.initAddr ≠ 0 → (owned.any fun k => (l.pieceOf k).any fun x => x.1.tensor == e.tensor) = true →
        s.badRange c.port c.fn e.initAddr
          (2 * sumNat ((List.range e.pieces).map fun k => (v.pieceRows e k).getD e.pieceRows) * e.cols) = none) →
      let opened := (((s.started c).modRun p fun r => { r with endAtStep := true }).modPav p fun v => { v with
        reshape := { v.reshape with
          pending := some l, cmd := some id, startedAt := s.clock, transferMs := if ms = 0 then 60000 else ms
          sent := [], unacked := [], expect := [], arrived := [], retried := [], bytesSent := 0, bytesReceived := 0 } }).reshapeTo
        p 1 1
      ∀ s1, opened.createShards p v l owned = .ok (s1, none) →
        exec (.reshapeBegin id) s = .next (s1.reshapeCheck p)
        ∧ ∃ u, (s1.reshapeCheck p).pav p = some u ∧ u.reshape.state = 2 ∧ u.reshape.pending = some l
          ∧ (s1.reshapeCheck p).cmd id = none
          ∧ ∀ k ∈ owned, ((s1.reshapeCheck p).shard k).valid = true ∧ ((s1.reshapeCheck p).shard k).migrating = true
            ∧ ((s1.reshapeCheck p).shard k).version = 0))
  ∧ ∀ (p : Fin 8) (s : State) (v : Pav) (l : Layout) (id : Nat), s.pav p.val = some v → v.reshape.pending = some l →
    v.reshape.state = 1 → v.reshape.cmd = some id →
    (∀ (m : ShardMsg) s1, s.shut p.val = false → m.rcd.shardId ∈ v.reshape.expect → m.rcd.shardId ∉ v.reshape.arrived →
      s.receiveShard p.val l m = some (s1, true) →
      ∃ t u, exec (.shardArrival p m) s = .next t ∧ t.pav p.val = some u
        ∧ u.reshape.arrived = v.reshape.arrived ++ [m.rcd.shardId]
        ∧ u.reshape.bytesReceived = v.reshape.bytesReceived + m.slot.length
        ∧ (t.shard m.rcd.shardId).version = m.rcd.version ∧ (t.shard m.rcd.shardId).digest = m.rcd.digest)
    ∧ (∀ n, s.shut p.val = false → n ∈ v.reshape.unacked → ∃ t u, exec (.reshapeShardAck p n true) s = .next t ∧ t.pav p.val = some u
      ∧ u.reshape.unacked = v.reshape.unacked.filter (· != n))
    ∧ (∀ n, s.shut p.val = false → n ∈ v.reshape.unacked →
      (∀ x, l.holderOf (l.owner n) = some x → s.reaches x.device = true) → s.badSlot (s.shard n) ((s.shard n).slotAddr (s.shard n).cur) = none →
      exec (.reshapeShardAck p n false) s = .next (s.sendShard p.val l n))
    ∧ (∀ c, s.cmd id = some c → v.reshape.startedAt + v.reshape.transferMs * 1000000 ≤ s.clock →
      ∃ t u, exec (.reshapeTransferTimeout p) s = .next t ∧ t.cmd id = none ∧ t.pav p.val = some u
        ∧ u.reshape.state = 1 ∧ u.reshape.cmd = none)

/-- R308 to R311, R313: RESHAPE_COMMIT makes the pending layout active now or at AT_TIME, RESHAPE_ABORT returns to the
old one, RESHAPE_RELEASE drops what has left, and LAYOUT_QUERY reports. -/
def Obligations.ReshapesCommitAndEnd : Prop :=
  ∀ (id : Nat) (c : Cmd) (s : State) (v : Pav),
    let p := c.pavilion
    let at_ := if c.expert = true then c.word 1 else 0
    let committed := fun (t : State) (l : Layout) => ∃ u, t.pav p = some u ∧ u.reshape.state = 3
      ∧ u.reshape.active = some l ∧ u.reshape.previous = v.reshape.active ∧ u.reshape.pending = none
      ∧ u.reshape.jobStep = 0 ∧ t.cmd id = none
    s.pav p = some v →
    (∀ l, v.reshape.pending = some l → v.reshape.state = 2 →
      (s.due id 0x0431 c → v.reshape.commitAt = none → l.epoch = bits (c.word 0) 63 32 →
        (at_ = 0 → ∃ t, exec (.reshapeCommit id) s = .next t ∧ committed t l)
        ∧ (at_ ≠ 0 → s.timeOn = true → s.now ≤ at_ → exec (.reshapeCommit id) s = .next ((s.started c).modPav p fun v => { v with
          reshape := { v.reshape with commitAt := some (id, at_) } })))
      ∧ (∀ (q : Fin 8) at1, q.val = p → v.reshape.commitAt = some (id, at1) → s.cmd id = some c → at1 ≤ s.now →
        ∃ t, exec (.reshapeCommitAt q) s = .next t ∧ committed t l))
    ∧ (s.due id 0x0432 c → v.abortReason = none → v.atBoundary = true →
      ∃ t u, exec (.reshapeAbort id) s = .next t ∧ t.cmd id = none ∧ t.pav p = some u ∧ u.reshape.state = 0
        ∧ u.reshape.pending = none ∧ u.reshape.commitAt = none
        ∧ u.reshape.active = (if v.reshape.state = 3 then v.reshape.previous else v.reshape.active))
    ∧ (s.due id 0x0433 c → v.reshape.state = 3 → (v.reshape.active.map (·.epoch)) = some (bits (c.word 0) 63 32) →
      ∃ t u, exec (.reshapeRelease id) s = .next t ∧ t.cmd id = none ∧ t.pav p = some u ∧ u.reshape.state = 0
        ∧ u.reshape.previous = none ∧ u.reshape.active = v.reshape.active
        ∧ ∀ n ∈ s.shardsOf p, (s.shard n).migrating = true → (t.shard n).valid = false)
    ∧ (s.due id 0x0434 c →
      let x := v.reshape
      let f := (x.active.map fun l => l.held s.ownId).getD (0, 0)
      let head := pack [(4, (x.active.map (·.job)).getD 0), (4, (x.active.map (·.epoch)).getD 0), (4, f.1), (4, f.2),
        (4, s.shardsHeld p), (1, x.state), (3, 0), (4, (x.pending.map (·.epoch)).getD 0),
        (4, (x.active.map (·.holders.length)).getD 0)]
      let l := ((if bitAt (c.word 1) 0 = true then x.pending else x.active).map (·.bytes)).getD []
      (c.expert = false → exec (.layoutQuery id) s = .next (s.finish c head))
      ∧ (c.expert = true → s.takes c (c.word 0) l.length →
        exec (.layoutQuery id) s = .next ((s.writeMem (c.word 0) l).finish c (head ++ pack [(4, l.length)]))))

/-! ### Collectives (chapter 13) -/

/-- R251, R309, R351 to R361: REDUCE_SCATTER starts every chain at the first position and is open at the others;
GATHER_SHARDS opens its collective; a message of the job's step reaches its operation, one ahead of it is held, a stripe of
another hand-over is passed on and one of another JOB_ID or EPOCH ends the operation; an acknowledgement returns credit;
COLL_ABORT and a silence of the progress time end the collective and its run. What becomes
of a mismatching message, or of a COLL_ABORT, for an operation that has not started is the model's choice (log 53). -/
def Obligations.CollectivesRunAndEnd : Prop :=
  ∀ (p : Fin 8) (s : State) (v : Pav) (l : Layout), s.pav p.val = some v → v.reshape.active = some l →
    let step := v.reshape.jobStep
    (∀ op r h m, (∀ x ∈ v.held, x.2.opIndex ≠ op) → (∀ y ∈ l.holders, s.levelTwo y.device = false) →
      let g := h.image
      let o := g.op op
      let shards := l.tensorShards (g.collTensor o)
      let elems := fun (x : Nat × Nat) => pieceElems m (g.dims o.a) x.2
      (s.collStart p.val op 0x31 = some (v, r, h, l, m) →
        ((l.pos s.ownId).getD 0 ≠ 0 → (∃ x ∈ shards, 0 < elems x) →
          ∃ t u, exec (.reduceScatter p op) s = .next t ∧ t.pav p.val = some u
            ∧ { op := op, reduce := true, startedAt := s.clock, lastMsg := s.clock } ∈ u.colls
            ∧ ∀ x ∈ shards, s.ownsIn l x.1 = true → (t.shard x.1).state = 1 ∧ (t.shard x.1).gradNext = false)
        ∧ ((l.pos s.ownId).getD 0 = 0 → l.holders[1]?.isSome = true → (shards.map (·.1)).Nodup → (∃ x ∈ shards, 0 < elems x) →
          ∃ t u y, exec (.reduceScatter p op) s = .next t ∧ t.pav p.val = some u ∧ y ∈ u.colls ∧ y.op = op
            ∧ y.done = false ∧ (y.outbox ≠ [] ∨ y.unacked ≠ []) ∧ (∀ x ∈ shards, coveredIn y.folded x.1 = elems x)
            ∧ ∀ x ∈ shards, s.ownsIn l x.1 = true → (t.shard x.1).state = 1 ∧ (t.shard x.1).gradNext = false))
      ∧ (s.collStart p.val op 0x30 = some (v, r, h, l, m) → r.windowAllows g (s.heldSlices v g) op = true →
        (∀ x ∈ l.tensorShards o.a, s.ownsIn l x.1 = true → s.ledger.unreadable.contains x.1 = false
          ∧ (s.shard x.1).damaged = false
          ∧ s.badRead ((s.shard x.1).slotAddr (s.shard x.1).cur) (2 * (s.shard x.1).length) = none) →
        (∀ k a b hi, s.place v h o.out 0 k = .mem a b hi →
          ∀ w ∈ s.mem.bad, overlaps w (codeWord w) a (max 1 (b / 8)) = false) →
        (∃ x ∈ shards, s.ownsIn l x.1 = false ∧ 0 < elems x) →
        ∃ t u, exec (.gatherShards p op) s = .next t ∧ t.pav p.val = some u
          ∧ ∃ x ∈ u.colls, x.op = op ∧ x.reduce = false ∧ x.done = false ∧ x.startedAt = s.clock))
    ∧ (∀ (m : CollMsg) (i : Instr) (type : Nat), s.shut p.val = false →
      (i, type) ∈ [(Instr.chainSum p m, 0x20), (.chainResult p m, 0x21), (.gatherPiece p m, 0x22)] →
      let active := v.colls.any fun c => c.op == m.opIndex && !c.done
      let ahead := v.run.any fun r => !r.finished.contains m.opIndex
      (m.job = l.job → m.epoch = l.epoch → s.relayTo l type m = none →
        (m.jobStep = step → active = true → exec i s = .next (s.takeMsg p.val type m))
        ∧ (m.jobStep = step + 1 ∨ m.jobStep = step ∧ active = false ∧ (ahead = true ∨ v.run = none) →
          exec i s = .next (s.modPav p.val fun v => { v with held := v.held ++ [(type, m)] })))
      ∧ (m.job = l.job → m.epoch = l.epoch → ∀ d, s.relayTo l type m = some d →
        exec i s = .next (((s.count (ctrId (placeHub 0 6 0) 6 1) (collBytes type m)).count (ctrId (placeHub 0 6 0) 6 18) 1).trySend
          p.val d (collBytes type m) 0 (.coll d 0x20 m)))
      ∧ (l.takes m = false → active = true → exec i s = .next (s.failColl p.val m.opIndex 3 m.src))
      ∧ (l.takes m = false → active = false →
        let t := s.trySend p.val m.src 32 4 (.coll m.src 0x24 (collMsg s.ownId v l m.opIndex 0 0 0 []))
        exec i s = .next (if ahead = true then t.modPav p.val fun v => { v with held := v.held ++ [(type, m)] } else t)))
    ∧ (∀ (m : CollMsg) x, s.shut p.val = false → (v.colls.find? fun c => c.op == m.opIndex) = some x →
      let hit := fun (u : Nat × Nat × Nat × Nat) => u.1 == m.src && u.2.1 == m.shard && u.2.2.1 == m.elemOffset
      x.unacked.any hit = true →
      exec (.collAck p m) s = .next (((s.modColl p.val x.op fun c => { c with
        unacked := c.unacked.eraseP hit, lastMsg := s.clock }).flushColl p.val x.op).collCheck p.val x.op))
    ∧ (∀ (m : CollMsg), s.shut p.val = false →
      (∀ r h, s.runOf p.val = some (v, r, h) → (l.takes m = true → m.jobStep = step) →
        (∃ x ∈ v.colls, x.op = m.opIndex ∧ x.done = false) →
        ∃ t u, exec (.collAbort p m) s = .next t ∧ t.pav p.val = some u ∧ u.run = none ∧ u.colls = [] ∧ t.cmd r.cmd = none)
      ∧ (l.takes m = true → m.jobStep = step → (∀ x ∈ v.colls, x.op = m.opIndex → x.done = true) →
        exec (.collAbort p m) s = .next ((s.dropColl p.val m.opIndex).modPav p.val fun v => { v with
          held := v.held.filter (fun x => !(x.2.opIndex == m.opIndex && x.2.jobStep == m.jobStep))
            ++ if (v.run.any fun r => !r.finished.contains m.opIndex) = true then [(0x24, m)] else [] })))
    ∧ (∀ op x r h, s.runOf p.val = some (v, r, h) → s.coll p.val op = some x → x.done = false →
      x.lastMsg + r.progressMs * 1000000 ≤ s.clock →
      ∃ t u, exec (.collectiveTimeout p op) s = .next t ∧ t.pav p.val = some u ∧ u.run = none ∧ u.colls = []
        ∧ t.cmd r.cmd = none)

/-! ### Twins (chapter 14) -/

/-- R375, R378, R385, R388, R389: TWIN_PAIR asks a reachable twin and pairs with a matching offer, TWIN_UNPAIR ends the
pair, TWIN_RESTORE asks for the mirror entries under a layout, DIGEST_COMPARE opens a comparison, but not with a
twin of level 2 (R327), and DISAGREE_RESOLVE opens a procedure. -/
def Obligations.TwinCommandsStart : Prop :=
  ∀ (id : Nat) (c : Cmd) (s : State) (v : Pav),
    let p := c.pavilion
    let w := c.word
    let reach := fun (d : Nat) => d ≠ s.ownId ∧ d < 12800 ∧ s.reaches d = true
    let tp := bits (w 0) 19 16
    s.pav p = some v →
    (s.due id 0x0601 c → v.twin.state = 0 → v.twin.restore = none → 0 < s.room v 1 → tp < 8 →
      let d := if bits (w 0) 15 0 = 0xFFFF then s.defaultTwin else bits (w 0) 15 0
      let every := if c.expert = true then bits (w 1) 63 48 else 0
      let want := if c.expert = true then w 2 + w 3 * 2 ^ 64 else 0
      reach d →
      (v.twin.offer = none → ∃ t u, exec (.twinPair id) s = .next t ∧ t.pav p = some u ∧ u.twin.state = 1 ∧ u.twin.id = d
        ∧ u.twin.pav = tp ∧ u.twin.fullEvery = (if every = 0 then 64 else every) ∧ u.twin.wantDigest = want
        ∧ u.twin.cmd = some id ∧ u.twin.askedAt = s.clock ∧ (t.cmd id).any (·.phase == .started) = true)
      ∧ (∀ o, v.twin.offer = some o → o.id = d → o.pav = tp → s.clock ≤ o.time + 60000000000 →
        (want = 0 ∨ want = o.digest) → o.partition = v.partition →
        (∀ j l, o.job = some j → v.reshape.active = some l → j = l.job) →
        ∃ t u, exec (.twinPair id) s = .next t ∧ t.cmd id = none ∧ t.pav p = some u ∧ u.twin.state = 2
          ∧ u.twin.id = d ∧ u.twin.digest = o.digest))
    ∧ (s.due id 0x0602 c →
      let keep := c.expert && bitAt (w 0) 0
      (v.twin.state = 2 ∨ v.twin.state = 3 → ∃ t u, exec (.twinUnpair id) s = .next t ∧ t.cmd id = none
        ∧ t.pav p = some u ∧ u.twin.state = 0 ∧ u.twin.disagree = [] ∧ u.twin.outstanding = []
        ∧ (keep = false → u.twin.mirrors = []))
      ∧ (v.twin.state = 0 → v.twin.mirrors ≠ [] →
        exec (.twinUnpair id) s = .next ((if keep = true then s else s.freeMirrors p).finish c [])))
    ∧ (s.due id 0x0603 c → v.twin.state = 0 → v.twin.restore = none → reach (bits (w 0) 15 0) → v.reshape.active = none →
      tp < 8 →
      let n := bits (w 2) 31 0
      w 1 % 64 = 0 → s.badRange c.port c.fn (w 1) (max n 64) = none → s.badRead (w 1) (max n 64) = none →
      ∀ l, parseLayout (s.readMem (w 1) n) n s.ownId p = .ok l → s.layoutRelation p v l false = .ok () →
      let size := fun (tier : Nat) => sumNat ((s.ownedShards l).map fun k => match l.pieceOf k with
        | none => 0
        | some (e, _) => (if b2n e.slotTier = tier then 8192 * (newRecord l k e e.pieceRows).slotPages else 0)
            + if b2n e.gradTier = tier then 8192 * pages (4 * (newRecord l k e e.pieceRows).length) else 0)
      size 0 ≤ s.room v 0 → size 1 ≤ s.room v 1 →
      ∃ t u, exec (.twinRestore id) s = .next t ∧ t.pav p = some u ∧ u.reshape.active = some l
        ∧ u.twin.restore = some { cmd := id, id := bits (w 0) 15 0, pav := tp }
        ∧ (t.cmd id).any (·.phase == .started) = true)
    ∧ (s.due id 0x0610 c → v.twin.state = 2 → s.levelTwo v.twin.id = false → v.twin.compare = none →
      let first := if c.expert = true then bits (w 0) 7 0 else 0
      let last := if c.expert = true then bits (w 0) 15 8 else 255
      let full := !c.expert || !bitAt (w 0) 16
      first ≤ last → exec (.digestCompare id) s = .next ((s.started c).modTwin p fun t => { t with
        compare := some { cmd := id, full := full, first := first, last := last, resolvedAt := t.resolved } }))
    ∧ (s.due id 0x0610 c → v.twin.state = 2 → s.levelTwo v.twin.id = true →
      ∃ t, exec (.digestCompare id) s = .next t ∧ t.cmd id = none ∧ t.twin p = s.twin p)
    ∧ (s.due id 0x0611 c → (v.twin.state = 2 ∨ v.twin.state = 3) → s.levelTwo v.twin.id = false →
      let n := bits (w 0) 19 0
      let act := if c.expert = true then bits (w 0) 63 56 else 1
      1 ≤ act → act ≤ 4 → s.ledger.unreadable.contains n = false → (s.shard n).valid = true →
      (s.shard n).paired = true → (s.shard n).pavilion = p →
      (act = 1 ∨ ∃ d ∈ v.twin.disagree, d.shard = n ∧ d.mirror = false) →
      (∀ d ∈ v.twin.disagree, d.shard = n → d.mirror = false → d.cmd = none) →
      exec (.disagreeResolve id) s = .next (((s.started c).openDisagree p n false false).modDisagree p n false fun d => { d with
        hold := false, asked := false, peer := none, action := act, cmd := some id }))

/-- R272, R377 to R389: a committed paired shard goes to the mirror and its acknowledgement pairs it, one of an older VERSION
or of a departing shard sets TWIN_VERSION only, and one asked for again is sent again; shards are seeded where a step begins;
mirror data is answered; a silent twin suspends the pair and a live one resumes it; a due comparison sends its digests, and
digests that agree end it; a procedure sends its side; an offer is kept, and pairing ends after 60 s without a match. -/
def Obligations.TwinsExchangeMessages : Prop :=
  ∀ (p : Fin 8) (s : State) (v : Pav), s.pav p.val = some v →
    let t0 := v.twin
    let r := fun (n : Nat) => s.shard n
    (t0.state = 2 →
      (∀ n, ((s.shardsOf p.val).filter fun n => (s.shard n).paired && (s.shard n).mirrorPending
          && !t0.outstanding.any fun x => x.1 == n).head? = some n →
        (∀ d ∈ t0.disagree, d.shard = n → d.mirror = true) → s.badSlot (r n) ((r n).slotAddr (r n).cur) = none →
        ∃ t, exec (.mirrorSend p n) s = .next t ∧ (t.twin p.val).outstanding.getLast? = some (n, 0, s.clock)
          ∧ t.ledger = s.ledger ∧ t.mem = s.mem)
      ∧ (∀ n, v.stepFresh = true → n ∈ s.unseeded p.val → ((r n).state = 0 ∨ (r n).state = 4) →
        (∀ x ∈ t0.outstanding, x.1 ≠ n) → s.badSlot (r n) ((r n).slotAddr (r n).cur) = none →
        ∃ t, exec (.twinSeed p n) s = .next t ∧ (t.twin p.val).outstanding.getLast? = some (n, 0, s.clock)
          ∧ n ∈ (t.twin p.val).seeding ∧ t.ledger = s.ledger ∧ t.mem = s.mem)
      ∧ (∀ n, s.shut p.val = false → (∃ x ∈ t0.outstanding, x.1 = n) → (r n).migrating = false →
        ∃ t, exec (.mirrorAck p n (r n).version) s = .next t ∧ (t.shard n).paired = true
          ∧ (t.shard n).twinVersion = (r n).version ∧ (t.shard n).mirrorPending = false
          ∧ (t.twin p.val).outstanding = t0.outstanding.filter (fun x => x.1 != n)
          ∧ (t.twin p.val).lastAck = s.clock ∧ ∀ m, m ≠ n → t.shard m = s.shard m)
      ∧ (∀ n ver, s.shut p.val = false → (∃ x ∈ t0.outstanding, x.1 = n) →
        (older ver (r n).version = true ∨ (r n).migrating = true ∧ ver = (r n).version) →
        ∃ t, exec (.mirrorAck p n ver) s = .next t ∧ (t.shard n).twinVersion = ver ∧ (t.shard n).paired = (r n).paired
          ∧ (t.shard n).mirrorPending = (r n).mirrorPending)
      ∧ (∀ n last, (t0.outstanding.find? fun x => x.1 == n) = some (n, 0, last) →
        exec (.mirrorRetry p n) s = .next ((s.modTwin p.val fun t => { t with
          outstanding := t.outstanding.map fun (x : Nat × Nat × Nat) => if x.1 = n then (x.1, x.2.1 + 1, s.clock) else x }).sendMirror
            p.val n (t0.seeding.contains n)))
      ∧ (t0.outstanding ≠ [] → t0.lastAck + 10000000000 ≤ s.clock →
        ∃ t, exec (.twinSuspend p) s = .next t ∧ (t.twin p.val).state = 3 ∧ (t.twin p.val).outstanding = []
          ∧ ∀ n ∈ s.shardsOf p.val, (t.shard n).paired = false ∧ (t.shard n).mirrorPending = false)
      ∧ (∀ m : ShardMsg, s.shut p.val = false → t0.restore = none → m.src = t0.id → m.srcPav = t0.pav →
        (∀ d ∈ t0.disagree, d.mirror = true → d.shard ≠ m.rcd.shardId) →
        exec (.mirrorData p m) s = .next (s.answerMirror p.val m))
      ∧ (∀ (m : DigestMsg), s.shut p.val = false → m.src = t0.id → m.srcPav = t0.pav →
        (∀ o, m.ofMine = true → t0.openCmp = some o → o.full = m.full → o.seq = m.seq →
          compareDigests (o.groups, o.shards) (m.groups, m.shards) = ([], []) →
          ∃ t, exec (.twinDigest p m) s = .next t ∧ (t.twin p.val).openCmp = none
            ∧ (t.twin p.val).disagree = t0.disagree)
        ∧ (m.ofMine = false → m.full = false →
          let own := s.digestsOf p.val true false (fun n => m.shards.any fun x => x.1 == n) (m.groups.map (·.1))
          compareDigests own (m.groups, m.shards) = ([], []) →
          exec (.twinDigest p m) s = .next (s.toTwin p.val 0x42 (16 * (m.groups.map (·.1)).length) (.groupDigests m.src
            { src := s.ownId, srcPav := p.val, full := false, ofMine := true, seq := m.seq, groups := own.1, shards := own.2 }))))
      ∧ (s.shut p.val = false → exec (.twinControl p .unpair) s = .next (s.unpair p.val false))
      ∧ (∀ seq g gs, t0.openCmp = none → (∀ n ∈ s.pairedShards p.val, (s.shard n).mirrorPending = false) →
        t0.due = some (seq, false) → s.pairedGroups p.val = g :: gs →
        ∃ t o, exec (.digestComparison p) s = .next t ∧ (t.twin p.val).openCmp = some o ∧ o.groups.map (·.1) = g :: gs
          ∧ o.seq = seq ∧ o.full = false ∧ o.forCmd = false ∧ ∀ x ∈ g :: gs, x ∈ (t.twin p.val).blocked)
      ∧ (∀ n d, (t0.disagree.find? fun d => d.shard == n && !d.hold) = some d → s.anyChecker = true → d.asked = false →
        d.peer = none →
        exec (.disagreeProcedure p n) s = .next ((s.modDisagree p.val n d.mirror fun d => { d with asked := true }).twinMsg p.val
          (.resolve n d.version (s.side p.val n d.mirror).base (s.side p.val n d.mirror).blocks
            (s.side p.val n d.mirror).recomputed d.action))))
    ∧ (s.shut p.val = false → t0.state = 3 → ∃ t, exec (.twinControl p .alive) s = .next t ∧ (t.twin p.val).state = 2
      ∧ (t.twin p.val).lastAck = s.clock)
    ∧ (s.shut p.val = false → t0.state = 0 → ∀ i q part job dig, exec (.twinControl p (.pair i q part job dig p.val)) s
      = .next (s.modTwin p.val fun t => { t with offer := some { id := i, pav := q, partition := part, job := job, digest := dig, time := s.clock } }))
    ∧ (∀ id c, t0.state = 1 → t0.askedAt + 60000000000 ≤ s.clock → t0.cmd = some id → s.cmd id = some c →
      ∃ t, exec (.twinPairTimeout p) s = .next t ∧ (t.twin p.val).state = 0 ∧ t.cmd id = none)

/-! ### Checking and health (chapter 15) -/

/-- R17, R18, R20, R25: a core that fails is out of service, and where the checker works it is the one to be replaced;
the checker then takes its duty and window, and gives them back after the self-test. -/
def Obligations.CheckersStandIn : Prop :=
  ∀ (s : State),
    (∀ (core : Fin 192) (cause : Nat), (s.core core.val).failed = false → (s.core core.val).retired = false →
      ∃ t, exec (.coreFailure core cause) s = .next t ∧ (t.core core.val).failed = true
        ∧ (t.core core.val).passed = false
        ∧ (core.val % 6 ≠ (s.cluster (core.val / 6)).storeOnly → core.val % 6 ≠ (s.cluster (core.val / 6)).checker →
            s.checkerWorks (core.val / 6) = true → (s.cluster (core.val / 6)).standin = none →
            (s.cluster (core.val / 6)).failedCore = none →
            (t.cluster (core.val / 6)).failedCore = some (core.val % 6)))
    ∧ (∀ (c : Fin 32) (j : Nat), (s.cluster c.val).failedCore = some j → (s.cluster c.val).standin = none →
      s.checkerWorks c.val = true → (s.cluster c.val).inService = true →
      ∃ t, exec (.standinBegin c) s = .next t ∧ (t.cluster c.val).standin = some j ∧ t.cores = s.cores)
    ∧ (∀ (c : Fin 32) (j : Nat), (s.cluster c.val).standin = some j → (s.core (6 * c.val + j)).passed = true →
      (s.core (6 * c.val + j)).retired = false →
      (∀ o v, s.ownerOfCluster c.val = some o → s.pav o = some v → v.stepFresh = true) →
      ∃ t, exec (.standinEnd c) s = .next t ∧ (t.cluster c.val).standin = none ∧ (t.cluster c.val).failedCore = none
        ∧ (t.core (6 * c.val + j)).failed = false ∧ (t.core (6 * c.val + j)).unmapped = false)
    ∧ (∀ b : Fin 10, exec (.dieBridgeFailure b) s
      = .next (s.modRoute fun r => { r with bridgesDown := addNew r.bridgesDown b.val }))

/-- R390 to R393, R397 to R400: a sampled tile without an excess leaves its queue, one with an excess waits for its arbiter
or is blamed 3 without one, an arbiter decides, and a late one is dropped; rates, score, report and probation do as said. -/
def Obligations.SamplesAreCheckedAndHealthIsScored : Prop :=
  ∀ (s : State),
    (∀ (c : Fin 32) (t : TileRef) p x, (s.sampleOf fun x => x.cluster == c.val && x.tile == t && x.excess.isNone) = some (p, x) →
      let k := s.cluster c.val
      let s1 := (s.modCluster c.val fun k => { k with
        checks24 := recent k.checks24 s.clock 86400000000000 ++ [s.clock] }).countCheck p x c.val k.fastWide
      let alone := (k.noArbiter && !s.check.probation) || (s1.arbiters p c.val).isEmpty
      (s.mayCheck c.val = true → s.clock ≤ x.clockAt + 1000000 →
        (s1.checkTile p x k.fastWide = none → exec (.checkRun c t) s
          = .next (s1.modPav p fun v => { v with samples := v.samples.filter (· != x) }))
        ∧ (∀ e, s1.checkTile p x k.fastWide = some e →
          exec (.checkRun c t) s = .next (if alone = true then s1.excess p x e 3 else s1.modPav p fun v => { v with
            samples := v.samples.map fun (y : Sample) =>
              if y = x then { y with excess := some (e.bad, e.row * 1024 + e.col, e.diff) } else y })))
      ∧ (s.healthyChecker c.val = false ∨ x.clockAt + 1000000 ≤ s.clock →
        exec (.checkDrop c t) s = .next ((s.modCluster c.val fun k => { k with
          skipped := recent k.skipped s.clock 86400000000000 ++ [s.clock] }).modPav p fun v => { v with
            samples := v.samples.filter (· != x) })))
    ∧ (∀ (c : Fin 32) (t : TileRef) p x bad rc diff, (s.sampleOf fun x => x.tile == t && x.excess.isSome) = some (p, x) →
      x.excess = some (bad, rc, diff) →
      let e : CheckOut := { bad := bad, row := rc / 1024, col := rc % 1024, diff := diff }
      let s1 := s.countCheck p x c.val (s.cluster x.cluster).fastWide
      (s.arbiters p x.cluster = [] → exec (.arbiterCheck c t) s = .next (s.excess p x e 3))
      ∧ (c.val ∈ s.arbiters p x.cluster → s.mayCheck c.val = true →
        exec (.arbiterCheck c t) s = .next (s1.excess p x e (match s1.checkTile p x (s1.cluster x.cluster).fastWide with
          | none => 2
          | some f => if f = e then 1 else 3))))
    ∧ (∀ id c, s.due id 0x0620 c →
      let n := bits (c.word 0) 5 0
      let rate := if n = 0 then 12 else n
      let one := c.target / 4096 = 2
      (n = 0 ∨ n = 63 ∨ 6 ≤ n ∧ n ≤ 16) → (c.target = 0 ∨ one ∨ c.target = pavTarget c.pavilion) →
      ∃ t, exec (.checkRateSet id) s = .next t ∧ t.cmd id = none
        ∧ (one → (t.cluster (c.target % 4096)).rateLog2 = rate ∧ ∀ k, k ≠ c.target % 4096 → t.cluster k = s.cluster k)
        ∧ (¬one → c.pavilion = 0xF → ∀ k, k < 32 → (t.cluster k).rateLog2 = rate)
        ∧ (¬one → c.pavilion ≠ 0xF → ∀ v, s.pav c.pavilion = some v →
          (∀ k ∈ v.clusters, (t.cluster k).rateLog2 = rate) ∧ ∀ k, k ∉ v.clusters → t.cluster k = s.cluster k))
    ∧ (∀ id c, s.due id 0x0910 c →
      (c.expert = false →
        let rates := ((List.range 32).filter fun k => (s.cluster k).inService).map s.rateOf
        exec (.healthReport id) s = .next (s.finish c (pack [(2, s.check.score), (1, b2n s.check.probation),
          (1, (rates.filter fun r => decide (r < 32)).foldl min 0xFF), (4, s.factsIn [0, 1] day), (4, s.factsIn [6] (7 * day)),
          (4, s.factsIn [4] day), (4, s.standins), (4, s.parkedLanes), (8, s.check.lastExcess)])))
      ∧ (c.expert = true → s.takes c (c.word 0) 512 →
        (c.fn = 0 ∨ ((s.pav (c.fn - 1)).any fun v => v.ownsRange (c.word 0) 512) = true) →
        exec (.healthReport id) s = .next ((forEach
          ((List.range 32).filter fun k => c.fn == 0 || s.ownerOfCluster k == some (c.fn - 1))
          (fun u k => u.writeMem (c.word 0 + 16 * k) (u.healthRecord k)) s).finish c [])))
    ∧ (∃ t, exec .healthScoreUpdate s = .next t ∧ t.check.score = s.scoreNow
      ∧ t.check.facts = s.check.facts.filter fun f => decide (s.clock < f.2 + 7 * day))
    ∧ (∀ id c, s.due id 0x0911 c →
      let r := if c.expert = true then bits (c.word 0) 13 8 else 6
      let dur := if c.expert = true then c.word 1 else 0
      r ≤ 6 → ∃ t, exec (.probationSet id) s = .next t ∧ t.cmd id = none ∧ t.check.probation = bitAt (c.word 0) 0
        ∧ (bitAt (c.word 0) 0 = true → t.check.probRate = (if r = 0 then 6 else r)
          ∧ t.check.probEnd = (if dur = 0 then 0 else s.clock + dur * 1000000000)))
    ∧ (s.check.probation = true → s.check.probEnd ≠ 0 → s.check.probEnd ≤ s.clock →
      ∃ t, exec .probationExpire s = .next t ∧ t.check.probation = false ∧ t.clusters = s.clusters)

/-- R421 to R424: a self-test without failures passes every unit of its level, and one at the full
level passes the good cores and retires the failing ones unless it only reports; a loopback sets or clears the axis; a
calibration of an idle stack or LPDDR5X link reports no lanes, and one of optical links what its lanes did. -/
def Obligations.SelfTestsAndCalibrationsReport : Prop :=
  ∀ (id : Nat) (c : Cmd) (s : State),
    let w := if c.expert = true then c.word 0 else 0
    (s.due id 0x0901 c →
      (bits w 1 0 = 0 → exec (.selftestRun id []) s = .next (s.testEnd c 0 (s.basicUnits (s.pav c.pavilion)).length []))
      ∧ (∀ l, bits w 1 0 = 1 → s.fullUnits c = some l →
        ∃ t, exec (.selftestRun id []) s = .next t ∧ t.cmd id = none ∧ (∀ u ∈ l, u < 192 → (t.core u).passed = true)
          ∧ ∀ u ∈ l, u / 4096 = 2 → (t.cluster (u % 4096)).selfTested = true)
      ∧ (∀ l failures, bits w 1 0 = 1 → s.fullUnits c = some l → bitAt w 8 = false →
        ∃ t, exec (.selftestRun id failures) s = .next t ∧ t.cmd id = none
          ∧ ∀ u ∈ l, u < 192 → (t.core u).passed = !failures.contains u
            ∧ (u ∈ failures → (t.core u).retired = true))
      ∧ (∀ failures, bits w 1 0 = 2 → c.target / 4096 = 5 → (s.axis (c.target % 4096 % 3)).isOpen = false →
        ∃ t, exec (.selftestRun id failures) s = .next t ∧ t.cmd id = none
          ∧ (t.axis (c.target % 4096 % 3)).loopAt
            = if failures.contains (0x5000 + c.target % 4096 % 3) = true then none else some s.clock))
    ∧ (s.due id 0x0902 c →
      ((c.target / 4096 = 6 ∧ s.dieIdle (c.target % 4096 / 4) = true ∨ c.target / 4096 = 7 ∧ s.hubWindowIdle (c.target % 4096 / 12) = true) →
        ∀ f, exec (.calibrate id f) s = .next (s.finish c (pack [(4, 0), (4, 0), (4, 0)])))
      ∧ (∀ f t done back left, c.target = 0 ∨ c.target / 4096 = 5 →
        let m := if c.expert = true then bits (c.word 0) 31 0 else 0
        let links := if c.target = 0 then List.range 6 else [c.target % 4096]
        let lanes := links.flatMap fun l => ((List.range (linkWidth l)).filter fun j => m == 0 || m.testBit j).map fun j => (l, j)
        lanes.foldl (fun a x => State.calibrateLane a x.1 x.2 (f.testBit (32 * x.1 + x.2))) (s, 0, 0, 0) = (t, done, back, left) →
        exec (.calibrate id f) s = .next (t.finish c (pack [(4, done), (4, back), (4, left)]))))

/-! ### Counters and logs (chapter 16) -/

/-- R491 to R493, R498, R499: a scheduled fold adds the raw difference to the total of every counter of its class whose
folding core runs; a counter too long without a fold is marked lost; COUNTERS_READ and LOG_READ write their records. -/
def Obligations.CountersFoldAndLogsAreRead : Prop :=
  ∀ (s : State),
    (∀ (b : Bool), ∃ t, exec (if b = true then .counterFoldB else .counterFoldA) s = .next t
      ∧ ∀ id x, tfind s.ctrs id = some x → classB id = b → s.folderUp (ctrFolder id) = true → ctrFolder id < 33 →
        (tget s.folds (2 * ctrFolder id + b2n b) (0, 0)).2 + (if b = true then 9900000000 else 599000000000) ≤ s.clock →
        tfind t.ctrs id = some (x.fold s.now s.clock))
    ∧ (∀ id, ctrExists id = true → (tget s.ctrs id {}).lost = false →
      (s.lastFold id).2 + (if classB id = true then 200000000000 else 86400000000000) < s.clock →
      exec (.evCounterLost id) s = .next ({ s with
        ctrs := tset s.ctrs id { tget s.ctrs id {} with lost := true } }.postModule 0x0D02 1 0xFFFF (pack [(4, id)])))
    ∧ (∀ id c, s.due id 0x0D01 c →
      let mask := if c.expert = true then bits (c.word 1) 15 0 else 0
      let limit := if c.expert = true then bits (c.word 2) 31 0 else 0
      let all := s.ctrScope c mask
      let ids := if limit = 0 then all else all.take limit
      let u := if (!c.expert || bitAt (c.word 1) 16) = true then
          { s with ctrs := ids.foldl (fun t id => tset t id ((tget t id {}).fold s.now s.clock)) s.ctrs } else s
      c.word 0 % 32 = 0 → s.badRange c.port c.fn (c.word 0) (max 1 (32 * ids.length)) = none →
      s.takes c (c.word 0) (32 * ids.length) →
      exec (.countersRead id) s = .next ((u.writeMem (c.word 0) (ids.flatMap u.ctrRecord)).finish c
        (pack [(4, ids.length), (4, all.length), (8, s.now)])))
    ∧ (∀ id c l, s.due id 0x0D02 c → s.logView c (bits (c.word 1) 1 0) = some l →
      let n := bits (c.word 1) 63 32
      let sticky := if c.expert = true then [] else l.sticky.toList
      let ring := if c.expert = true then (l.ring.filter fun e => decide (c.word 2 ≤ e.1)).take n
        else l.ring.drop (l.ring.length - (n - sticky.length))
      let out := sticky ++ ring.map (·.2)
      1 ≤ n → c.word 0 % 64 = 0 → s.badRange c.port c.fn (c.word 0) (max 1 (64 * out.length)) = none →
      s.takes c (c.word 0) out.flatten.length →
      exec (.logRead id) s = .next ((s.writeMem (c.word 0) out.flatten).finish c
        (pack [(4, out.length), (4, 0), (8, (ring.head?.map (·.1)).getD l.next), (8, l.next), (8, l.lost)])))

/-! ### The whole machine -/

/-- R475, R472, R439, R338: after a module reset everything but the flash is lost: no ring set, pavilion, command, layout
or route is left, the module is unpowered and in start stage 0, building time does not run and every bridle is closed. -/
def Obligations.ResetLosesEverythingButTheFlash : Prop :=
  State.reset.pending = [] ∧ State.reset.cmds = [] ∧ State.reset.boot.stage = 0 ∧ State.reset.boot.fwRunning = false
    ∧ State.reset.power.pwrGood = false ∧ State.reset.timeOn = false ∧ (∀ p, State.reset.pav p = none)
    ∧ (∀ r : FnRef, (State.reset.ring (fnKey r)).ready = false ∧ (State.reset.ring (fnKey r)).isOpen = false)
    ∧ (∀ a, (State.reset.axis a).isOpen = false) ∧ (∀ l, (State.reset.link l).state = 4)
    ∧ State.reset.route.active = none ∧ State.reset.route.shadow = none
    ∧ (∀ c, (State.reset.cluster c).inService = false) ∧ (∀ n, (State.reset.shard n).valid = false)
    ∧ (∀ q, (State.reset.port q).numVfs = 0 ∧ (State.reset.port q).vfEnable = false)

/-- The invariants hold at reset: device memory and the hosts' memories are in canonical form, and the queue is empty. -/
def Obligations.InvariantsHoldAtReset : Prop := State.reset.memWf = true ∧ State.reset.queueWf = true

/-- The model's own memory form (log 1): every step keeps device memory and what was written into both hosts in canonical
form, whatever command stands at the front of the queue. -/
def Obligations.StepKeepsMemoryCanonical : Prop :=
  ∀ (s t : State), s.memWf = true → step s = .next t → t.memWf = true

/-- The model's queue: a command acts on everything but the queue of those that wait behind it. -/
def Obligations.CommandsLeaveTheQueue : Prop :=
  ∀ (c : Instr) (s t : State), exec c s = .next t → t.pending = s.pending

/-- Every command answers a next state: no command of the manual stops the module. -/
def Obligations.EveryCommandAnswers : Prop := ∀ (c : Instr) (s : State), ∃ t, exec c s = .next t
end

