-- ==== Sys2Proof/Laws/Bytes.lean ====
section
/-! SUPPORT. Laws of the sparse tables, of byte memories in canonical form and of iteration. -/

namespace Sys2Proof.Machine

/-! ### Tables -/

variable {α : Type}

@[simp] theorem tfind_nil (i : Nat) : tfind ([] : Tbl α) i = none := rfl

@[simp] theorem tfind_tset_self (t : Tbl α) (i : Nat) (v : α) : tfind (tset t i v) i = some v := by
  induction t with
  | nil => simp [tset, tfind]
  | cons e t ih =>
    obtain ⟨k, w⟩ := e
    simp only [tset]
    split
    · simp [tfind]
    · split
      · simp [tfind]
      · next h => simp [tfind, h, ih]

@[simp] theorem tfind_tset_ne (t : Tbl α) {i j : Nat} (v : α) (h : j ≠ i) : tfind (tset t i v) j = tfind t j := by
  induction t with
  | nil => simp [tset, tfind, h]
  | cons e t ih =>
    obtain ⟨k, w⟩ := e
    simp only [tset]
    split
    · simp [tfind, h]
    · split
      · next hik => subst hik; simp [tfind, h]
      · simp [tfind, ih]

@[simp] theorem tget_tset_self (t : Tbl α) (i : Nat) (v d : α) : tget (tset t i v) i d = v := by simp [tget]
@[simp] theorem tget_tset_ne (t : Tbl α) {i j : Nat} (v d : α) (h : j ≠ i) : tget (tset t i v) j d = tget t j d := by
  simp [tget, h]

theorem tget_of_tfind {t : Tbl α} {i : Nat} {v : α} (d : α) (h : tfind t i = some v) : tget t i d = v := by simp [tget, h]

@[simp] theorem tfind_tdel_self (t : Tbl α) (i : Nat) : tfind (tdel t i) i = none := by
  induction t with
  | nil => rfl
  | cons e t ih =>
    obtain ⟨k, w⟩ := e
    by_cases h : k = i
    · simpa [tdel, h] using ih
    · have h' : ¬i = k := fun e => h e.symm
      simpa [tdel, h, tfind, h'] using ih

@[simp] theorem tfind_tdel_ne (t : Tbl α) {i j : Nat} (h : j ≠ i) : tfind (tdel t i) j = tfind t j := by
  induction t with
  | nil => rfl
  | cons e t ih =>
    obtain ⟨k, w⟩ := e
    by_cases hk : k = i
    · subst hk; simpa [tdel, tfind, h] using ih
    · by_cases hj : j = k
      · simp [tdel, hk, tfind, hj]
      · simpa [tdel, hk, tfind, hj] using ih

@[simp] theorem tfind_tmap (f : Nat → α → α) (t : Tbl α) (i : Nat) : tfind (tmap f t) i = (tfind t i).map (f i) := by
  induction t with
  | nil => rfl
  | cons e t ih =>
    obtain ⟨k, w⟩ := e
    by_cases h : i = k
    · subst h; simp [tmap, tfind]
    · simpa [tmap, tfind, h] using ih

/-! ### Iteration -/

@[simp] theorem forEach_nil {σ β : Type} (f : σ → β → σ) (s : σ) : forEach [] f s = s := rfl
@[simp] theorem forEach_cons {σ β : Type} (a : β) (l : List β) (f : σ → β → σ) (s : σ) :
    forEach (a :: l) f s = forEach l f (f s a) := rfl

/-- What every turn keeps, the whole iteration keeps. -/
theorem forEach_inv {σ β : Type} {P : σ → Prop} {f : σ → β → σ} (h : ∀ s a, P s → P (f s a)) (l : List β) (s : σ)
    (hs : P s) : P (forEach l f s) := by
  induction l generalizing s with
  | nil => exact hs
  | cons a l ih => exact ih _ (h _ _ hs)

/-- A view that no turn changes, the iteration does not change. -/
theorem forEach_keep {σ β γ : Type} {g : σ → γ} {f : σ → β → σ} (h : ∀ s a, g (f s a) = g s) (l : List β) (s : σ) :
    g (forEach l f s) = g s := by
  induction l generalizing s with
  | nil => rfl
  | cons a l ih => exact (ih _).trans (h _ _)

/-! ### Byte memories (log 1) -/

/-- Every listed address lies above a. -/
def above (a : Nat) (m : List Host.Cell) : Prop := ∀ c ∈ m, a < c.1

theorem cellsWf_cons (a : Nat) (b : Byte) (m : List Host.Cell) :
    cellsWf ((a, b) :: m) = true ↔ b ≠ 0 ∧ above a m ∧ cellsWf m = true := by
  induction m generalizing a b with
  | nil => simp [cellsWf, above]
  | cons e m ih =>
    obtain ⟨a', b'⟩ := e
    simp only [cellsWf, Bool.and_eq_true, decide_eq_true_eq, bne_iff_ne]
    constructor
    · rintro ⟨⟨hb, hlt⟩, hw⟩
      refine ⟨hb, ?_, hw⟩
      intro c hc
      rcases List.mem_cons.mp hc with rfl | hc
      · exact hlt
      · exact Nat.lt_trans hlt (((ih a' b').mp hw).2.1 c hc)
    · rintro ⟨hb, ha, hw⟩
      exact ⟨⟨hb, ha (a', b') (by simp)⟩, hw⟩

theorem above_cellPut {k a : Nat} {b : Byte} {m : List Host.Cell} (h : above k m) (hk : k < a) : above k (cellPut m a b) := by
  induction m with
  | nil =>
    simp only [cellPut]
    split
    · exact h
    · intro c hc; simp at hc; simp [hc, hk]
  | cons e m ih =>
    obtain ⟨a', b'⟩ := e
    have h1 : k < a' := h (a', b') (by simp)
    have h2 : above k m := fun c hc => h c (by simp [hc])
    simp only [cellPut]
    split
    · split
      · exact h
      · intro c hc
        rcases List.mem_cons.mp hc with rfl | hc
        · exact hk
        · exact h c hc
    · split
      · split
        · exact h2
        · intro c hc
          rcases List.mem_cons.mp hc with rfl | hc
          · exact hk
          · exact h2 c hc
      · intro c hc
        rcases List.mem_cons.mp hc with rfl | hc
        · exact h1
        · exact ih h2 c hc

/-- A write keeps the canonical form. -/
theorem cellsWf_cellPut {m : List Host.Cell} (a : Nat) (b : Byte) (h : cellsWf m = true) : cellsWf (cellPut m a b) = true := by
  induction m with
  | nil =>
    simp only [cellPut]
    split
    · rfl
    · next hb => simpa [cellsWf] using hb
  | cons e m ih =>
    obtain ⟨a', b'⟩ := e
    have hc := (cellsWf_cons a' b' m).mp h
    simp only [cellPut]
    split
    · next hlt =>
      split
      · exact h
      · next hb =>
        refine (cellsWf_cons a b _).mpr ⟨hb, ?_, h⟩
        intro c hm
        rcases List.mem_cons.mp hm with rfl | hm
        · exact hlt
        · exact Nat.lt_trans hlt (hc.2.1 c hm)
    · next hnlt =>
      split
      · next heq =>
        subst heq
        split
        · exact hc.2.2
        · next hb => exact (cellsWf_cons a b m).mpr ⟨hb, hc.2.1, hc.2.2⟩
      · next hne =>
        exact (cellsWf_cons a' b' _).mpr ⟨hc.1, above_cellPut hc.2.1 (by omega), ih hc.2.2⟩

theorem cellsWf_cellsPut {m : List Host.Cell} (a : Nat) (l : List Byte) (h : cellsWf m = true) :
    cellsWf (cellsPut m a l) = true := by
  induction l generalizing m a with
  | nil => exact h
  | cons b l ih => exact ih (a + 1) (cellsWf_cellPut a b h)

theorem cellsWf_filter {m : List Host.Cell} (f : Host.Cell → Bool) (h : cellsWf m = true) : cellsWf (m.filter f) = true := by
  induction m with
  | nil => rfl
  | cons e m ih =>
    obtain ⟨a, b⟩ := e
    have hc := (cellsWf_cons a b m).mp h
    by_cases hf : f (a, b) = true
    · rw [List.filter_cons_of_pos hf]
      exact (cellsWf_cons a b _).mpr ⟨hc.1, fun c hm => hc.2.1 c (List.mem_filter.mp hm).1, ih hc.2.2⟩
    · rw [List.filter_cons_of_neg hf]; exact ih hc.2.2

theorem cellsWf_cellsZero {m : List Host.Cell} (a n : Nat) (h : cellsWf m = true) : cellsWf (cellsZero m a n) = true :=
  cellsWf_filter _ h

theorem cellGet_of_above {m : List Host.Cell} {k a : Nat} (h : above k m) (ha : a ≤ k) : cellGet m a = 0 := by
  induction m with
  | nil => rfl
  | cons e m ih =>
    obtain ⟨a', b'⟩ := e
    have h1 : k < a' := h (a', b') (by simp)
    have h2 : ¬a = a' := by omega
    simp [cellGet, h2, ih fun c hc => h c (by simp [hc])]

/-- Read after write, at the written address and at another. -/
theorem cellGet_cellPut {m : List Host.Cell} (a x : Nat) (b : Byte) (h : cellsWf m = true) :
    cellGet (cellPut m a b) x = if x = a then b else cellGet m x := by
  induction m with
  | nil =>
    simp only [cellPut]
    split
    · next hb => subst hb; simp [cellGet]
    · simp [cellGet]
  | cons e m ih =>
    obtain ⟨a', b'⟩ := e
    have hc := (cellsWf_cons a' b' m).mp h
    have hx : ∀ y, y ≤ a' → cellGet m y = 0 := fun y hy => cellGet_of_above hc.2.1 hy
    simp only [cellPut]
    split
    · next hlt =>
      split
      · next hb =>
        subst hb
        by_cases hxa : x = a
        · subst hxa; simp [cellGet, show ¬x = a' by omega, hx x (by omega)]
        · simp [hxa]
      · by_cases hxa : x = a
        · simp [cellGet, hxa]
        · simp [cellGet, hxa]
    · next hnlt =>
      split
      · next heq =>
        subst heq
        split
        · next hb =>
          subst hb
          by_cases hxa : x = a
          · subst hxa; simp [hx x (Nat.le_refl x)]
          · simp [cellGet, hxa]
        · by_cases hxa : x = a
          · simp [cellGet, hxa]
          · simp [cellGet, hxa]
      · next hne =>
        by_cases hxk : x = a'
        · subst hxk; simp [cellGet, show ¬x = a by omega]
        · simp [cellGet, hxk, ih hc.2.2]

/-- A byte outside a written range is as it was. -/
theorem cellGet_cellsPut_outside {m : List Host.Cell} {a x : Nat} {l : List Byte} (h : cellsWf m = true)
    (hx : x < a ∨ a + l.length ≤ x) : cellGet (cellsPut m a l) x = cellGet m x := by
  induction l generalizing m a with
  | nil => rfl
  | cons b l ih =>
    simp only [List.length_cons] at hx
    rw [cellsPut, ih (cellsWf_cellPut a b h) (by omega), cellGet_cellPut a x b h, if_neg (by omega)]

/-- A written range reads as what was written. -/
theorem cellsGet_cellsPut_self {m : List Host.Cell} (a : Nat) (l : List Byte) (h : cellsWf m = true) :
    cellsGet (cellsPut m a l) a l.length = l := by
  induction l generalizing m a with
  | nil => rfl
  | cons b l ih =>
    have hw := cellsWf_cellPut a b h
    simp only [List.length_cons, cellsGet, cellsPut]
    rw [ih (a + 1) hw, cellGet_cellsPut_outside hw (by omega), cellGet_cellPut a a b h, if_pos rfl]

theorem cellGet_cellsZero (m : List Host.Cell) (a n x : Nat) :
    cellGet (cellsZero m a n) x = if a ≤ x ∧ x < a + n then 0 else cellGet m x := by
  induction m with
  | nil => simp [cellsZero, cellGet]
  | cons e m ih =>
    obtain ⟨k, v⟩ := e
    by_cases hk : k < a ∨ a + n ≤ k
    · have hz : cellsZero ((k, v) :: m) a n = (k, v) :: cellsZero m a n := by simp [cellsZero, hk]
      rw [hz]
      by_cases hx : x = k
      · subst hx; rw [if_neg (by omega)]; simp [cellGet]
      · simp [cellGet, hx, ih]
    · have hz : cellsZero ((k, v) :: m) a n = cellsZero m a n := by simp [cellsZero, hk]
      rw [hz, ih]
      by_cases hx : x = k
      · subst hx; rw [if_pos (by omega), if_pos (by omega)]
      · simp [cellGet, hx]

theorem cellsGet_length (m : List Host.Cell) (a n : Nat) : (cellsGet m a n).length = n := by
  induction n generalizing a with
  | zero => rfl
  | succ n ih => simp [cellsGet, ih]

end Sys2Proof.Machine
end

