-- ==== Sys2Proof/Laws/State.lean ====
section
/-! SUPPORT. What each update of the state leaves and what it writes: one lemma for each field and update, and one for
the unit that is read back. -/

namespace Sys2Proof.Machine

variable (s : State)

/-! ### modRing -/

@[simp] theorem State.modRing_pending (k : Nat) (f : RingSet → RingSet) : (s.modRing k f).pending = s.pending := rfl
@[simp] theorem State.modRing_freeCtr (k : Nat) (f : RingSet → RingSet) : (s.modRing k f).freeCtr = s.freeCtr := rfl
@[simp] theorem State.modRing_out (k : Nat) (f : RingSet → RingSet) : (s.modRing k f).out = s.out := rfl
@[simp] theorem State.modRing_time (k : Nat) (f : RingSet → RingSet) : (s.modRing k f).time = s.time := rfl
@[simp] theorem State.modRing_power (k : Nat) (f : RingSet → RingSet) : (s.modRing k f).power = s.power := rfl
@[simp] theorem State.modRing_isles (k : Nat) (f : RingSet → RingSet) : (s.modRing k f).isles = s.isles := rfl
@[simp] theorem State.modRing_boot (k : Nat) (f : RingSet → RingSet) : (s.modRing k f).boot = s.boot := rfl
@[simp] theorem State.modRing_flash (k : Nat) (f : RingSet → RingSet) : (s.modRing k f).flash = s.flash := rfl
@[simp] theorem State.modRing_ports (k : Nat) (f : RingSet → RingSet) : (s.modRing k f).ports = s.ports := rfl
@[simp] theorem State.modRing_cmds (k : Nat) (f : RingSet → RingSet) : (s.modRing k f).cmds = s.cmds := rfl
@[simp] theorem State.modRing_nextCmd (k : Nat) (f : RingSet → RingSet) : (s.modRing k f).nextCmd = s.nextCmd := rfl
@[simp] theorem State.modRing_beat (k : Nat) (f : RingSet → RingSet) : (s.modRing k f).beat = s.beat := rfl
@[simp] theorem State.modRing_beatAt (k : Nat) (f : RingSet → RingSet) : (s.modRing k f).beatAt = s.beatAt := rfl
@[simp] theorem State.modRing_pavs (k : Nat) (f : RingSet → RingSet) : (s.modRing k f).pavs = s.pavs := rfl
@[simp] theorem State.modRing_clusters (k : Nat) (f : RingSet → RingSet) : (s.modRing k f).clusters = s.clusters := rfl
@[simp] theorem State.modRing_cores (k : Nat) (f : RingSet → RingSet) : (s.modRing k f).cores = s.cores := rfl
@[simp] theorem State.modRing_engines (k : Nat) (f : RingSet → RingSet) : (s.modRing k f).engines = s.engines := rfl
@[simp] theorem State.modRing_stitches (k : Nat) (f : RingSet → RingSet) : (s.modRing k f).stitches = s.stitches := rfl
@[simp] theorem State.modRing_mem (k : Nat) (f : RingSet → RingSet) : (s.modRing k f).mem = s.mem := rfl
@[simp] theorem State.modRing_host0 (k : Nat) (f : RingSet → RingSet) : (s.modRing k f).host0 = s.host0 := rfl
@[simp] theorem State.modRing_host1 (k : Nat) (f : RingSet → RingSet) : (s.modRing k f).host1 = s.host1 := rfl
@[simp] theorem State.modRing_moves (k : Nat) (f : RingSet → RingSet) : (s.modRing k f).moves = s.moves := rfl
@[simp] theorem State.modRing_ledger (k : Nat) (f : RingSet → RingSet) : (s.modRing k f).ledger = s.ledger := rfl
@[simp] theorem State.modRing_links (k : Nat) (f : RingSet → RingSet) : (s.modRing k f).links = s.links := rfl
@[simp] theorem State.modRing_axes (k : Nat) (f : RingSet → RingSet) : (s.modRing k f).axes = s.axes := rfl
@[simp] theorem State.modRing_route (k : Nat) (f : RingSet → RingSet) : (s.modRing k f).route = s.route := rfl
@[simp] theorem State.modRing_check (k : Nat) (f : RingSet → RingSet) : (s.modRing k f).check = s.check := rfl
@[simp] theorem State.modRing_ctrs (k : Nat) (f : RingSet → RingSet) : (s.modRing k f).ctrs = s.ctrs := rfl
@[simp] theorem State.modRing_folds (k : Nat) (f : RingSet → RingSet) : (s.modRing k f).folds = s.folds := rfl
@[simp] theorem State.modRing_pavLogs (k : Nat) (f : RingSet → RingSet) : (s.modRing k f).pavLogs = s.pavLogs := rfl
@[simp] theorem State.modRing_modLog (k : Nat) (f : RingSet → RingSet) : (s.modRing k f).modLog = s.modLog := rfl
@[simp] theorem State.modRing_idleWait (k : Nat) (f : RingSet → RingSet) : (s.modRing k f).idleWait = s.idleWait := rfl

/-! ### modPort -/

@[simp] theorem State.modPort_pending (k : Nat) (f : PortSt → PortSt) : (s.modPort k f).pending = s.pending := rfl
@[simp] theorem State.modPort_freeCtr (k : Nat) (f : PortSt → PortSt) : (s.modPort k f).freeCtr = s.freeCtr := rfl
@[simp] theorem State.modPort_out (k : Nat) (f : PortSt → PortSt) : (s.modPort k f).out = s.out := rfl
@[simp] theorem State.modPort_time (k : Nat) (f : PortSt → PortSt) : (s.modPort k f).time = s.time := rfl
@[simp] theorem State.modPort_power (k : Nat) (f : PortSt → PortSt) : (s.modPort k f).power = s.power := rfl
@[simp] theorem State.modPort_isles (k : Nat) (f : PortSt → PortSt) : (s.modPort k f).isles = s.isles := rfl
@[simp] theorem State.modPort_boot (k : Nat) (f : PortSt → PortSt) : (s.modPort k f).boot = s.boot := rfl
@[simp] theorem State.modPort_flash (k : Nat) (f : PortSt → PortSt) : (s.modPort k f).flash = s.flash := rfl
@[simp] theorem State.modPort_rings (k : Nat) (f : PortSt → PortSt) : (s.modPort k f).rings = s.rings := rfl
@[simp] theorem State.modPort_cmds (k : Nat) (f : PortSt → PortSt) : (s.modPort k f).cmds = s.cmds := rfl
@[simp] theorem State.modPort_nextCmd (k : Nat) (f : PortSt → PortSt) : (s.modPort k f).nextCmd = s.nextCmd := rfl
@[simp] theorem State.modPort_beat (k : Nat) (f : PortSt → PortSt) : (s.modPort k f).beat = s.beat := rfl
@[simp] theorem State.modPort_beatAt (k : Nat) (f : PortSt → PortSt) : (s.modPort k f).beatAt = s.beatAt := rfl
@[simp] theorem State.modPort_pavs (k : Nat) (f : PortSt → PortSt) : (s.modPort k f).pavs = s.pavs := rfl
@[simp] theorem State.modPort_clusters (k : Nat) (f : PortSt → PortSt) : (s.modPort k f).clusters = s.clusters := rfl
@[simp] theorem State.modPort_cores (k : Nat) (f : PortSt → PortSt) : (s.modPort k f).cores = s.cores := rfl
@[simp] theorem State.modPort_engines (k : Nat) (f : PortSt → PortSt) : (s.modPort k f).engines = s.engines := rfl
@[simp] theorem State.modPort_stitches (k : Nat) (f : PortSt → PortSt) : (s.modPort k f).stitches = s.stitches := rfl
@[simp] theorem State.modPort_mem (k : Nat) (f : PortSt → PortSt) : (s.modPort k f).mem = s.mem := rfl
@[simp] theorem State.modPort_host0 (k : Nat) (f : PortSt → PortSt) : (s.modPort k f).host0 = s.host0 := rfl
@[simp] theorem State.modPort_host1 (k : Nat) (f : PortSt → PortSt) : (s.modPort k f).host1 = s.host1 := rfl
@[simp] theorem State.modPort_moves (k : Nat) (f : PortSt → PortSt) : (s.modPort k f).moves = s.moves := rfl
@[simp] theorem State.modPort_ledger (k : Nat) (f : PortSt → PortSt) : (s.modPort k f).ledger = s.ledger := rfl
@[simp] theorem State.modPort_links (k : Nat) (f : PortSt → PortSt) : (s.modPort k f).links = s.links := rfl
@[simp] theorem State.modPort_axes (k : Nat) (f : PortSt → PortSt) : (s.modPort k f).axes = s.axes := rfl
@[simp] theorem State.modPort_route (k : Nat) (f : PortSt → PortSt) : (s.modPort k f).route = s.route := rfl
@[simp] theorem State.modPort_check (k : Nat) (f : PortSt → PortSt) : (s.modPort k f).check = s.check := rfl
@[simp] theorem State.modPort_ctrs (k : Nat) (f : PortSt → PortSt) : (s.modPort k f).ctrs = s.ctrs := rfl
@[simp] theorem State.modPort_folds (k : Nat) (f : PortSt → PortSt) : (s.modPort k f).folds = s.folds := rfl
@[simp] theorem State.modPort_pavLogs (k : Nat) (f : PortSt → PortSt) : (s.modPort k f).pavLogs = s.pavLogs := rfl
@[simp] theorem State.modPort_modLog (k : Nat) (f : PortSt → PortSt) : (s.modPort k f).modLog = s.modLog := rfl
@[simp] theorem State.modPort_idleWait (k : Nat) (f : PortSt → PortSt) : (s.modPort k f).idleWait = s.idleWait := rfl

/-! ### modPav -/

@[simp] theorem State.modPav_pending (k : Nat) (f : Pav → Pav) : (s.modPav k f).pending = s.pending := rfl
@[simp] theorem State.modPav_freeCtr (k : Nat) (f : Pav → Pav) : (s.modPav k f).freeCtr = s.freeCtr := rfl
@[simp] theorem State.modPav_out (k : Nat) (f : Pav → Pav) : (s.modPav k f).out = s.out := rfl
@[simp] theorem State.modPav_time (k : Nat) (f : Pav → Pav) : (s.modPav k f).time = s.time := rfl
@[simp] theorem State.modPav_power (k : Nat) (f : Pav → Pav) : (s.modPav k f).power = s.power := rfl
@[simp] theorem State.modPav_isles (k : Nat) (f : Pav → Pav) : (s.modPav k f).isles = s.isles := rfl
@[simp] theorem State.modPav_boot (k : Nat) (f : Pav → Pav) : (s.modPav k f).boot = s.boot := rfl
@[simp] theorem State.modPav_flash (k : Nat) (f : Pav → Pav) : (s.modPav k f).flash = s.flash := rfl
@[simp] theorem State.modPav_ports (k : Nat) (f : Pav → Pav) : (s.modPav k f).ports = s.ports := rfl
@[simp] theorem State.modPav_rings (k : Nat) (f : Pav → Pav) : (s.modPav k f).rings = s.rings := rfl
@[simp] theorem State.modPav_cmds (k : Nat) (f : Pav → Pav) : (s.modPav k f).cmds = s.cmds := rfl
@[simp] theorem State.modPav_nextCmd (k : Nat) (f : Pav → Pav) : (s.modPav k f).nextCmd = s.nextCmd := rfl
@[simp] theorem State.modPav_beat (k : Nat) (f : Pav → Pav) : (s.modPav k f).beat = s.beat := rfl
@[simp] theorem State.modPav_beatAt (k : Nat) (f : Pav → Pav) : (s.modPav k f).beatAt = s.beatAt := rfl
@[simp] theorem State.modPav_clusters (k : Nat) (f : Pav → Pav) : (s.modPav k f).clusters = s.clusters := rfl
@[simp] theorem State.modPav_cores (k : Nat) (f : Pav → Pav) : (s.modPav k f).cores = s.cores := rfl
@[simp] theorem State.modPav_engines (k : Nat) (f : Pav → Pav) : (s.modPav k f).engines = s.engines := rfl
@[simp] theorem State.modPav_stitches (k : Nat) (f : Pav → Pav) : (s.modPav k f).stitches = s.stitches := rfl
@[simp] theorem State.modPav_mem (k : Nat) (f : Pav → Pav) : (s.modPav k f).mem = s.mem := rfl
@[simp] theorem State.modPav_host0 (k : Nat) (f : Pav → Pav) : (s.modPav k f).host0 = s.host0 := rfl
@[simp] theorem State.modPav_host1 (k : Nat) (f : Pav → Pav) : (s.modPav k f).host1 = s.host1 := rfl
@[simp] theorem State.modPav_moves (k : Nat) (f : Pav → Pav) : (s.modPav k f).moves = s.moves := rfl
@[simp] theorem State.modPav_ledger (k : Nat) (f : Pav → Pav) : (s.modPav k f).ledger = s.ledger := rfl
@[simp] theorem State.modPav_links (k : Nat) (f : Pav → Pav) : (s.modPav k f).links = s.links := rfl
@[simp] theorem State.modPav_axes (k : Nat) (f : Pav → Pav) : (s.modPav k f).axes = s.axes := rfl
@[simp] theorem State.modPav_route (k : Nat) (f : Pav → Pav) : (s.modPav k f).route = s.route := rfl
@[simp] theorem State.modPav_check (k : Nat) (f : Pav → Pav) : (s.modPav k f).check = s.check := rfl
@[simp] theorem State.modPav_ctrs (k : Nat) (f : Pav → Pav) : (s.modPav k f).ctrs = s.ctrs := rfl
@[simp] theorem State.modPav_folds (k : Nat) (f : Pav → Pav) : (s.modPav k f).folds = s.folds := rfl
@[simp] theorem State.modPav_pavLogs (k : Nat) (f : Pav → Pav) : (s.modPav k f).pavLogs = s.pavLogs := rfl
@[simp] theorem State.modPav_modLog (k : Nat) (f : Pav → Pav) : (s.modPav k f).modLog = s.modLog := rfl
@[simp] theorem State.modPav_idleWait (k : Nat) (f : Pav → Pav) : (s.modPav k f).idleWait = s.idleWait := rfl

/-! ### modCluster -/

@[simp] theorem State.modCluster_pending (k : Nat) (f : Cluster → Cluster) : (s.modCluster k f).pending = s.pending := rfl
@[simp] theorem State.modCluster_freeCtr (k : Nat) (f : Cluster → Cluster) : (s.modCluster k f).freeCtr = s.freeCtr := rfl
@[simp] theorem State.modCluster_out (k : Nat) (f : Cluster → Cluster) : (s.modCluster k f).out = s.out := rfl
@[simp] theorem State.modCluster_time (k : Nat) (f : Cluster → Cluster) : (s.modCluster k f).time = s.time := rfl
@[simp] theorem State.modCluster_power (k : Nat) (f : Cluster → Cluster) : (s.modCluster k f).power = s.power := rfl
@[simp] theorem State.modCluster_isles (k : Nat) (f : Cluster → Cluster) : (s.modCluster k f).isles = s.isles := rfl
@[simp] theorem State.modCluster_boot (k : Nat) (f : Cluster → Cluster) : (s.modCluster k f).boot = s.boot := rfl
@[simp] theorem State.modCluster_flash (k : Nat) (f : Cluster → Cluster) : (s.modCluster k f).flash = s.flash := rfl
@[simp] theorem State.modCluster_ports (k : Nat) (f : Cluster → Cluster) : (s.modCluster k f).ports = s.ports := rfl
@[simp] theorem State.modCluster_rings (k : Nat) (f : Cluster → Cluster) : (s.modCluster k f).rings = s.rings := rfl
@[simp] theorem State.modCluster_cmds (k : Nat) (f : Cluster → Cluster) : (s.modCluster k f).cmds = s.cmds := rfl
@[simp] theorem State.modCluster_nextCmd (k : Nat) (f : Cluster → Cluster) : (s.modCluster k f).nextCmd = s.nextCmd := rfl
@[simp] theorem State.modCluster_beat (k : Nat) (f : Cluster → Cluster) : (s.modCluster k f).beat = s.beat := rfl
@[simp] theorem State.modCluster_beatAt (k : Nat) (f : Cluster → Cluster) : (s.modCluster k f).beatAt = s.beatAt := rfl
@[simp] theorem State.modCluster_pavs (k : Nat) (f : Cluster → Cluster) : (s.modCluster k f).pavs = s.pavs := rfl
@[simp] theorem State.modCluster_cores (k : Nat) (f : Cluster → Cluster) : (s.modCluster k f).cores = s.cores := rfl
@[simp] theorem State.modCluster_engines (k : Nat) (f : Cluster → Cluster) : (s.modCluster k f).engines = s.engines := rfl
@[simp] theorem State.modCluster_stitches (k : Nat) (f : Cluster → Cluster) : (s.modCluster k f).stitches = s.stitches := rfl
@[simp] theorem State.modCluster_mem (k : Nat) (f : Cluster → Cluster) : (s.modCluster k f).mem = s.mem := rfl
@[simp] theorem State.modCluster_host0 (k : Nat) (f : Cluster → Cluster) : (s.modCluster k f).host0 = s.host0 := rfl
@[simp] theorem State.modCluster_host1 (k : Nat) (f : Cluster → Cluster) : (s.modCluster k f).host1 = s.host1 := rfl
@[simp] theorem State.modCluster_moves (k : Nat) (f : Cluster → Cluster) : (s.modCluster k f).moves = s.moves := rfl
@[simp] theorem State.modCluster_ledger (k : Nat) (f : Cluster → Cluster) : (s.modCluster k f).ledger = s.ledger := rfl
@[simp] theorem State.modCluster_links (k : Nat) (f : Cluster → Cluster) : (s.modCluster k f).links = s.links := rfl
@[simp] theorem State.modCluster_axes (k : Nat) (f : Cluster → Cluster) : (s.modCluster k f).axes = s.axes := rfl
@[simp] theorem State.modCluster_route (k : Nat) (f : Cluster → Cluster) : (s.modCluster k f).route = s.route := rfl
@[simp] theorem State.modCluster_check (k : Nat) (f : Cluster → Cluster) : (s.modCluster k f).check = s.check := rfl
@[simp] theorem State.modCluster_ctrs (k : Nat) (f : Cluster → Cluster) : (s.modCluster k f).ctrs = s.ctrs := rfl
@[simp] theorem State.modCluster_folds (k : Nat) (f : Cluster → Cluster) : (s.modCluster k f).folds = s.folds := rfl
@[simp] theorem State.modCluster_pavLogs (k : Nat) (f : Cluster → Cluster) : (s.modCluster k f).pavLogs = s.pavLogs := rfl
@[simp] theorem State.modCluster_modLog (k : Nat) (f : Cluster → Cluster) : (s.modCluster k f).modLog = s.modLog := rfl
@[simp] theorem State.modCluster_idleWait (k : Nat) (f : Cluster → Cluster) : (s.modCluster k f).idleWait = s.idleWait := rfl

/-! ### modCore -/

@[simp] theorem State.modCore_pending (k : Nat) (f : Core → Core) : (s.modCore k f).pending = s.pending := rfl
@[simp] theorem State.modCore_freeCtr (k : Nat) (f : Core → Core) : (s.modCore k f).freeCtr = s.freeCtr := rfl
@[simp] theorem State.modCore_out (k : Nat) (f : Core → Core) : (s.modCore k f).out = s.out := rfl
@[simp] theorem State.modCore_time (k : Nat) (f : Core → Core) : (s.modCore k f).time = s.time := rfl
@[simp] theorem State.modCore_power (k : Nat) (f : Core → Core) : (s.modCore k f).power = s.power := rfl
@[simp] theorem State.modCore_isles (k : Nat) (f : Core → Core) : (s.modCore k f).isles = s.isles := rfl
@[simp] theorem State.modCore_boot (k : Nat) (f : Core → Core) : (s.modCore k f).boot = s.boot := rfl
@[simp] theorem State.modCore_flash (k : Nat) (f : Core → Core) : (s.modCore k f).flash = s.flash := rfl
@[simp] theorem State.modCore_ports (k : Nat) (f : Core → Core) : (s.modCore k f).ports = s.ports := rfl
@[simp] theorem State.modCore_rings (k : Nat) (f : Core → Core) : (s.modCore k f).rings = s.rings := rfl
@[simp] theorem State.modCore_cmds (k : Nat) (f : Core → Core) : (s.modCore k f).cmds = s.cmds := rfl
@[simp] theorem State.modCore_nextCmd (k : Nat) (f : Core → Core) : (s.modCore k f).nextCmd = s.nextCmd := rfl
@[simp] theorem State.modCore_beat (k : Nat) (f : Core → Core) : (s.modCore k f).beat = s.beat := rfl
@[simp] theorem State.modCore_beatAt (k : Nat) (f : Core → Core) : (s.modCore k f).beatAt = s.beatAt := rfl
@[simp] theorem State.modCore_pavs (k : Nat) (f : Core → Core) : (s.modCore k f).pavs = s.pavs := rfl
@[simp] theorem State.modCore_clusters (k : Nat) (f : Core → Core) : (s.modCore k f).clusters = s.clusters := rfl
@[simp] theorem State.modCore_engines (k : Nat) (f : Core → Core) : (s.modCore k f).engines = s.engines := rfl
@[simp] theorem State.modCore_stitches (k : Nat) (f : Core → Core) : (s.modCore k f).stitches = s.stitches := rfl
@[simp] theorem State.modCore_mem (k : Nat) (f : Core → Core) : (s.modCore k f).mem = s.mem := rfl
@[simp] theorem State.modCore_host0 (k : Nat) (f : Core → Core) : (s.modCore k f).host0 = s.host0 := rfl
@[simp] theorem State.modCore_host1 (k : Nat) (f : Core → Core) : (s.modCore k f).host1 = s.host1 := rfl
@[simp] theorem State.modCore_moves (k : Nat) (f : Core → Core) : (s.modCore k f).moves = s.moves := rfl
@[simp] theorem State.modCore_ledger (k : Nat) (f : Core → Core) : (s.modCore k f).ledger = s.ledger := rfl
@[simp] theorem State.modCore_links (k : Nat) (f : Core → Core) : (s.modCore k f).links = s.links := rfl
@[simp] theorem State.modCore_axes (k : Nat) (f : Core → Core) : (s.modCore k f).axes = s.axes := rfl
@[simp] theorem State.modCore_route (k : Nat) (f : Core → Core) : (s.modCore k f).route = s.route := rfl
@[simp] theorem State.modCore_check (k : Nat) (f : Core → Core) : (s.modCore k f).check = s.check := rfl
@[simp] theorem State.modCore_ctrs (k : Nat) (f : Core → Core) : (s.modCore k f).ctrs = s.ctrs := rfl
@[simp] theorem State.modCore_folds (k : Nat) (f : Core → Core) : (s.modCore k f).folds = s.folds := rfl
@[simp] theorem State.modCore_pavLogs (k : Nat) (f : Core → Core) : (s.modCore k f).pavLogs = s.pavLogs := rfl
@[simp] theorem State.modCore_modLog (k : Nat) (f : Core → Core) : (s.modCore k f).modLog = s.modLog := rfl
@[simp] theorem State.modCore_idleWait (k : Nat) (f : Core → Core) : (s.modCore k f).idleWait = s.idleWait := rfl

/-! ### modEngine -/

@[simp] theorem State.modEngine_pending (k : Nat) (f : Engine → Engine) : (s.modEngine k f).pending = s.pending := rfl
@[simp] theorem State.modEngine_freeCtr (k : Nat) (f : Engine → Engine) : (s.modEngine k f).freeCtr = s.freeCtr := rfl
@[simp] theorem State.modEngine_out (k : Nat) (f : Engine → Engine) : (s.modEngine k f).out = s.out := rfl
@[simp] theorem State.modEngine_time (k : Nat) (f : Engine → Engine) : (s.modEngine k f).time = s.time := rfl
@[simp] theorem State.modEngine_power (k : Nat) (f : Engine → Engine) : (s.modEngine k f).power = s.power := rfl
@[simp] theorem State.modEngine_isles (k : Nat) (f : Engine → Engine) : (s.modEngine k f).isles = s.isles := rfl
@[simp] theorem State.modEngine_boot (k : Nat) (f : Engine → Engine) : (s.modEngine k f).boot = s.boot := rfl
@[simp] theorem State.modEngine_flash (k : Nat) (f : Engine → Engine) : (s.modEngine k f).flash = s.flash := rfl
@[simp] theorem State.modEngine_ports (k : Nat) (f : Engine → Engine) : (s.modEngine k f).ports = s.ports := rfl
@[simp] theorem State.modEngine_rings (k : Nat) (f : Engine → Engine) : (s.modEngine k f).rings = s.rings := rfl
@[simp] theorem State.modEngine_cmds (k : Nat) (f : Engine → Engine) : (s.modEngine k f).cmds = s.cmds := rfl
@[simp] theorem State.modEngine_nextCmd (k : Nat) (f : Engine → Engine) : (s.modEngine k f).nextCmd = s.nextCmd := rfl
@[simp] theorem State.modEngine_beat (k : Nat) (f : Engine → Engine) : (s.modEngine k f).beat = s.beat := rfl
@[simp] theorem State.modEngine_beatAt (k : Nat) (f : Engine → Engine) : (s.modEngine k f).beatAt = s.beatAt := rfl
@[simp] theorem State.modEngine_pavs (k : Nat) (f : Engine → Engine) : (s.modEngine k f).pavs = s.pavs := rfl
@[simp] theorem State.modEngine_clusters (k : Nat) (f : Engine → Engine) : (s.modEngine k f).clusters = s.clusters := rfl
@[simp] theorem State.modEngine_cores (k : Nat) (f : Engine → Engine) : (s.modEngine k f).cores = s.cores := rfl
@[simp] theorem State.modEngine_stitches (k : Nat) (f : Engine → Engine) : (s.modEngine k f).stitches = s.stitches := rfl
@[simp] theorem State.modEngine_mem (k : Nat) (f : Engine → Engine) : (s.modEngine k f).mem = s.mem := rfl
@[simp] theorem State.modEngine_host0 (k : Nat) (f : Engine → Engine) : (s.modEngine k f).host0 = s.host0 := rfl
@[simp] theorem State.modEngine_host1 (k : Nat) (f : Engine → Engine) : (s.modEngine k f).host1 = s.host1 := rfl
@[simp] theorem State.modEngine_moves (k : Nat) (f : Engine → Engine) : (s.modEngine k f).moves = s.moves := rfl
@[simp] theorem State.modEngine_ledger (k : Nat) (f : Engine → Engine) : (s.modEngine k f).ledger = s.ledger := rfl
@[simp] theorem State.modEngine_links (k : Nat) (f : Engine → Engine) : (s.modEngine k f).links = s.links := rfl
@[simp] theorem State.modEngine_axes (k : Nat) (f : Engine → Engine) : (s.modEngine k f).axes = s.axes := rfl
@[simp] theorem State.modEngine_route (k : Nat) (f : Engine → Engine) : (s.modEngine k f).route = s.route := rfl
@[simp] theorem State.modEngine_check (k : Nat) (f : Engine → Engine) : (s.modEngine k f).check = s.check := rfl
@[simp] theorem State.modEngine_ctrs (k : Nat) (f : Engine → Engine) : (s.modEngine k f).ctrs = s.ctrs := rfl
@[simp] theorem State.modEngine_folds (k : Nat) (f : Engine → Engine) : (s.modEngine k f).folds = s.folds := rfl
@[simp] theorem State.modEngine_pavLogs (k : Nat) (f : Engine → Engine) : (s.modEngine k f).pavLogs = s.pavLogs := rfl
@[simp] theorem State.modEngine_modLog (k : Nat) (f : Engine → Engine) : (s.modEngine k f).modLog = s.modLog := rfl
@[simp] theorem State.modEngine_idleWait (k : Nat) (f : Engine → Engine) : (s.modEngine k f).idleWait = s.idleWait := rfl

/-! ### modLink -/

@[simp] theorem State.modLink_pending (k : Nat) (f : Link → Link) : (s.modLink k f).pending = s.pending := rfl
@[simp] theorem State.modLink_freeCtr (k : Nat) (f : Link → Link) : (s.modLink k f).freeCtr = s.freeCtr := rfl
@[simp] theorem State.modLink_out (k : Nat) (f : Link → Link) : (s.modLink k f).out = s.out := rfl
@[simp] theorem State.modLink_time (k : Nat) (f : Link → Link) : (s.modLink k f).time = s.time := rfl
@[simp] theorem State.modLink_power (k : Nat) (f : Link → Link) : (s.modLink k f).power = s.power := rfl
@[simp] theorem State.modLink_isles (k : Nat) (f : Link → Link) : (s.modLink k f).isles = s.isles := rfl
@[simp] theorem State.modLink_boot (k : Nat) (f : Link → Link) : (s.modLink k f).boot = s.boot := rfl
@[simp] theorem State.modLink_flash (k : Nat) (f : Link → Link) : (s.modLink k f).flash = s.flash := rfl
@[simp] theorem State.modLink_ports (k : Nat) (f : Link → Link) : (s.modLink k f).ports = s.ports := rfl
@[simp] theorem State.modLink_rings (k : Nat) (f : Link → Link) : (s.modLink k f).rings = s.rings := rfl
@[simp] theorem State.modLink_cmds (k : Nat) (f : Link → Link) : (s.modLink k f).cmds = s.cmds := rfl
@[simp] theorem State.modLink_nextCmd (k : Nat) (f : Link → Link) : (s.modLink k f).nextCmd = s.nextCmd := rfl
@[simp] theorem State.modLink_beat (k : Nat) (f : Link → Link) : (s.modLink k f).beat = s.beat := rfl
@[simp] theorem State.modLink_beatAt (k : Nat) (f : Link → Link) : (s.modLink k f).beatAt = s.beatAt := rfl
@[simp] theorem State.modLink_pavs (k : Nat) (f : Link → Link) : (s.modLink k f).pavs = s.pavs := rfl
@[simp] theorem State.modLink_clusters (k : Nat) (f : Link → Link) : (s.modLink k f).clusters = s.clusters := rfl
@[simp] theorem State.modLink_cores (k : Nat) (f : Link → Link) : (s.modLink k f).cores = s.cores := rfl
@[simp] theorem State.modLink_engines (k : Nat) (f : Link → Link) : (s.modLink k f).engines = s.engines := rfl
@[simp] theorem State.modLink_stitches (k : Nat) (f : Link → Link) : (s.modLink k f).stitches = s.stitches := rfl
@[simp] theorem State.modLink_mem (k : Nat) (f : Link → Link) : (s.modLink k f).mem = s.mem := rfl
@[simp] theorem State.modLink_host0 (k : Nat) (f : Link → Link) : (s.modLink k f).host0 = s.host0 := rfl
@[simp] theorem State.modLink_host1 (k : Nat) (f : Link → Link) : (s.modLink k f).host1 = s.host1 := rfl
@[simp] theorem State.modLink_moves (k : Nat) (f : Link → Link) : (s.modLink k f).moves = s.moves := rfl
@[simp] theorem State.modLink_ledger (k : Nat) (f : Link → Link) : (s.modLink k f).ledger = s.ledger := rfl
@[simp] theorem State.modLink_axes (k : Nat) (f : Link → Link) : (s.modLink k f).axes = s.axes := rfl
@[simp] theorem State.modLink_route (k : Nat) (f : Link → Link) : (s.modLink k f).route = s.route := rfl
@[simp] theorem State.modLink_check (k : Nat) (f : Link → Link) : (s.modLink k f).check = s.check := rfl
@[simp] theorem State.modLink_ctrs (k : Nat) (f : Link → Link) : (s.modLink k f).ctrs = s.ctrs := rfl
@[simp] theorem State.modLink_folds (k : Nat) (f : Link → Link) : (s.modLink k f).folds = s.folds := rfl
@[simp] theorem State.modLink_pavLogs (k : Nat) (f : Link → Link) : (s.modLink k f).pavLogs = s.pavLogs := rfl
@[simp] theorem State.modLink_modLog (k : Nat) (f : Link → Link) : (s.modLink k f).modLog = s.modLog := rfl
@[simp] theorem State.modLink_idleWait (k : Nat) (f : Link → Link) : (s.modLink k f).idleWait = s.idleWait := rfl

/-! ### modAxis -/

@[simp] theorem State.modAxis_pending (k : Nat) (f : Axis → Axis) : (s.modAxis k f).pending = s.pending := rfl
@[simp] theorem State.modAxis_freeCtr (k : Nat) (f : Axis → Axis) : (s.modAxis k f).freeCtr = s.freeCtr := rfl
@[simp] theorem State.modAxis_out (k : Nat) (f : Axis → Axis) : (s.modAxis k f).out = s.out := rfl
@[simp] theorem State.modAxis_time (k : Nat) (f : Axis → Axis) : (s.modAxis k f).time = s.time := rfl
@[simp] theorem State.modAxis_power (k : Nat) (f : Axis → Axis) : (s.modAxis k f).power = s.power := rfl
@[simp] theorem State.modAxis_isles (k : Nat) (f : Axis → Axis) : (s.modAxis k f).isles = s.isles := rfl
@[simp] theorem State.modAxis_boot (k : Nat) (f : Axis → Axis) : (s.modAxis k f).boot = s.boot := rfl
@[simp] theorem State.modAxis_flash (k : Nat) (f : Axis → Axis) : (s.modAxis k f).flash = s.flash := rfl
@[simp] theorem State.modAxis_ports (k : Nat) (f : Axis → Axis) : (s.modAxis k f).ports = s.ports := rfl
@[simp] theorem State.modAxis_rings (k : Nat) (f : Axis → Axis) : (s.modAxis k f).rings = s.rings := rfl
@[simp] theorem State.modAxis_cmds (k : Nat) (f : Axis → Axis) : (s.modAxis k f).cmds = s.cmds := rfl
@[simp] theorem State.modAxis_nextCmd (k : Nat) (f : Axis → Axis) : (s.modAxis k f).nextCmd = s.nextCmd := rfl
@[simp] theorem State.modAxis_beat (k : Nat) (f : Axis → Axis) : (s.modAxis k f).beat = s.beat := rfl
@[simp] theorem State.modAxis_beatAt (k : Nat) (f : Axis → Axis) : (s.modAxis k f).beatAt = s.beatAt := rfl
@[simp] theorem State.modAxis_pavs (k : Nat) (f : Axis → Axis) : (s.modAxis k f).pavs = s.pavs := rfl
@[simp] theorem State.modAxis_clusters (k : Nat) (f : Axis → Axis) : (s.modAxis k f).clusters = s.clusters := rfl
@[simp] theorem State.modAxis_cores (k : Nat) (f : Axis → Axis) : (s.modAxis k f).cores = s.cores := rfl
@[simp] theorem State.modAxis_engines (k : Nat) (f : Axis → Axis) : (s.modAxis k f).engines = s.engines := rfl
@[simp] theorem State.modAxis_stitches (k : Nat) (f : Axis → Axis) : (s.modAxis k f).stitches = s.stitches := rfl
@[simp] theorem State.modAxis_mem (k : Nat) (f : Axis → Axis) : (s.modAxis k f).mem = s.mem := rfl
@[simp] theorem State.modAxis_host0 (k : Nat) (f : Axis → Axis) : (s.modAxis k f).host0 = s.host0 := rfl
@[simp] theorem State.modAxis_host1 (k : Nat) (f : Axis → Axis) : (s.modAxis k f).host1 = s.host1 := rfl
@[simp] theorem State.modAxis_moves (k : Nat) (f : Axis → Axis) : (s.modAxis k f).moves = s.moves := rfl
@[simp] theorem State.modAxis_ledger (k : Nat) (f : Axis → Axis) : (s.modAxis k f).ledger = s.ledger := rfl
@[simp] theorem State.modAxis_links (k : Nat) (f : Axis → Axis) : (s.modAxis k f).links = s.links := rfl
@[simp] theorem State.modAxis_route (k : Nat) (f : Axis → Axis) : (s.modAxis k f).route = s.route := rfl
@[simp] theorem State.modAxis_check (k : Nat) (f : Axis → Axis) : (s.modAxis k f).check = s.check := rfl
@[simp] theorem State.modAxis_ctrs (k : Nat) (f : Axis → Axis) : (s.modAxis k f).ctrs = s.ctrs := rfl
@[simp] theorem State.modAxis_folds (k : Nat) (f : Axis → Axis) : (s.modAxis k f).folds = s.folds := rfl
@[simp] theorem State.modAxis_pavLogs (k : Nat) (f : Axis → Axis) : (s.modAxis k f).pavLogs = s.pavLogs := rfl
@[simp] theorem State.modAxis_modLog (k : Nat) (f : Axis → Axis) : (s.modAxis k f).modLog = s.modLog := rfl
@[simp] theorem State.modAxis_idleWait (k : Nat) (f : Axis → Axis) : (s.modAxis k f).idleWait = s.idleWait := rfl

/-! ### modIsle -/

@[simp] theorem State.modIsle_pending (k : Nat) (f : Isle → Isle) : (s.modIsle k f).pending = s.pending := rfl
@[simp] theorem State.modIsle_freeCtr (k : Nat) (f : Isle → Isle) : (s.modIsle k f).freeCtr = s.freeCtr := rfl
@[simp] theorem State.modIsle_out (k : Nat) (f : Isle → Isle) : (s.modIsle k f).out = s.out := rfl
@[simp] theorem State.modIsle_time (k : Nat) (f : Isle → Isle) : (s.modIsle k f).time = s.time := rfl
@[simp] theorem State.modIsle_power (k : Nat) (f : Isle → Isle) : (s.modIsle k f).power = s.power := rfl
@[simp] theorem State.modIsle_boot (k : Nat) (f : Isle → Isle) : (s.modIsle k f).boot = s.boot := rfl
@[simp] theorem State.modIsle_flash (k : Nat) (f : Isle → Isle) : (s.modIsle k f).flash = s.flash := rfl
@[simp] theorem State.modIsle_ports (k : Nat) (f : Isle → Isle) : (s.modIsle k f).ports = s.ports := rfl
@[simp] theorem State.modIsle_rings (k : Nat) (f : Isle → Isle) : (s.modIsle k f).rings = s.rings := rfl
@[simp] theorem State.modIsle_cmds (k : Nat) (f : Isle → Isle) : (s.modIsle k f).cmds = s.cmds := rfl
@[simp] theorem State.modIsle_nextCmd (k : Nat) (f : Isle → Isle) : (s.modIsle k f).nextCmd = s.nextCmd := rfl
@[simp] theorem State.modIsle_beat (k : Nat) (f : Isle → Isle) : (s.modIsle k f).beat = s.beat := rfl
@[simp] theorem State.modIsle_beatAt (k : Nat) (f : Isle → Isle) : (s.modIsle k f).beatAt = s.beatAt := rfl
@[simp] theorem State.modIsle_pavs (k : Nat) (f : Isle → Isle) : (s.modIsle k f).pavs = s.pavs := rfl
@[simp] theorem State.modIsle_clusters (k : Nat) (f : Isle → Isle) : (s.modIsle k f).clusters = s.clusters := rfl
@[simp] theorem State.modIsle_cores (k : Nat) (f : Isle → Isle) : (s.modIsle k f).cores = s.cores := rfl
@[simp] theorem State.modIsle_engines (k : Nat) (f : Isle → Isle) : (s.modIsle k f).engines = s.engines := rfl
@[simp] theorem State.modIsle_stitches (k : Nat) (f : Isle → Isle) : (s.modIsle k f).stitches = s.stitches := rfl
@[simp] theorem State.modIsle_mem (k : Nat) (f : Isle → Isle) : (s.modIsle k f).mem = s.mem := rfl
@[simp] theorem State.modIsle_host0 (k : Nat) (f : Isle → Isle) : (s.modIsle k f).host0 = s.host0 := rfl
@[simp] theorem State.modIsle_host1 (k : Nat) (f : Isle → Isle) : (s.modIsle k f).host1 = s.host1 := rfl
@[simp] theorem State.modIsle_moves (k : Nat) (f : Isle → Isle) : (s.modIsle k f).moves = s.moves := rfl
@[simp] theorem State.modIsle_ledger (k : Nat) (f : Isle → Isle) : (s.modIsle k f).ledger = s.ledger := rfl
@[simp] theorem State.modIsle_links (k : Nat) (f : Isle → Isle) : (s.modIsle k f).links = s.links := rfl
@[simp] theorem State.modIsle_axes (k : Nat) (f : Isle → Isle) : (s.modIsle k f).axes = s.axes := rfl
@[simp] theorem State.modIsle_route (k : Nat) (f : Isle → Isle) : (s.modIsle k f).route = s.route := rfl
@[simp] theorem State.modIsle_check (k : Nat) (f : Isle → Isle) : (s.modIsle k f).check = s.check := rfl
@[simp] theorem State.modIsle_ctrs (k : Nat) (f : Isle → Isle) : (s.modIsle k f).ctrs = s.ctrs := rfl
@[simp] theorem State.modIsle_folds (k : Nat) (f : Isle → Isle) : (s.modIsle k f).folds = s.folds := rfl
@[simp] theorem State.modIsle_pavLogs (k : Nat) (f : Isle → Isle) : (s.modIsle k f).pavLogs = s.pavLogs := rfl
@[simp] theorem State.modIsle_modLog (k : Nat) (f : Isle → Isle) : (s.modIsle k f).modLog = s.modLog := rfl
@[simp] theorem State.modIsle_idleWait (k : Nat) (f : Isle → Isle) : (s.modIsle k f).idleWait = s.idleWait := rfl

/-! ### modBoot -/

@[simp] theorem State.modBoot_pending (f : BootSt → BootSt) : (s.modBoot f).pending = s.pending := rfl
@[simp] theorem State.modBoot_freeCtr (f : BootSt → BootSt) : (s.modBoot f).freeCtr = s.freeCtr := rfl
@[simp] theorem State.modBoot_out (f : BootSt → BootSt) : (s.modBoot f).out = s.out := rfl
@[simp] theorem State.modBoot_time (f : BootSt → BootSt) : (s.modBoot f).time = s.time := rfl
@[simp] theorem State.modBoot_power (f : BootSt → BootSt) : (s.modBoot f).power = s.power := rfl
@[simp] theorem State.modBoot_isles (f : BootSt → BootSt) : (s.modBoot f).isles = s.isles := rfl
@[simp] theorem State.modBoot_flash (f : BootSt → BootSt) : (s.modBoot f).flash = s.flash := rfl
@[simp] theorem State.modBoot_ports (f : BootSt → BootSt) : (s.modBoot f).ports = s.ports := rfl
@[simp] theorem State.modBoot_rings (f : BootSt → BootSt) : (s.modBoot f).rings = s.rings := rfl
@[simp] theorem State.modBoot_cmds (f : BootSt → BootSt) : (s.modBoot f).cmds = s.cmds := rfl
@[simp] theorem State.modBoot_nextCmd (f : BootSt → BootSt) : (s.modBoot f).nextCmd = s.nextCmd := rfl
@[simp] theorem State.modBoot_beat (f : BootSt → BootSt) : (s.modBoot f).beat = s.beat := rfl
@[simp] theorem State.modBoot_beatAt (f : BootSt → BootSt) : (s.modBoot f).beatAt = s.beatAt := rfl
@[simp] theorem State.modBoot_pavs (f : BootSt → BootSt) : (s.modBoot f).pavs = s.pavs := rfl
@[simp] theorem State.modBoot_clusters (f : BootSt → BootSt) : (s.modBoot f).clusters = s.clusters := rfl
@[simp] theorem State.modBoot_cores (f : BootSt → BootSt) : (s.modBoot f).cores = s.cores := rfl
@[simp] theorem State.modBoot_engines (f : BootSt → BootSt) : (s.modBoot f).engines = s.engines := rfl
@[simp] theorem State.modBoot_stitches (f : BootSt → BootSt) : (s.modBoot f).stitches = s.stitches := rfl
@[simp] theorem State.modBoot_mem (f : BootSt → BootSt) : (s.modBoot f).mem = s.mem := rfl
@[simp] theorem State.modBoot_host0 (f : BootSt → BootSt) : (s.modBoot f).host0 = s.host0 := rfl
@[simp] theorem State.modBoot_host1 (f : BootSt → BootSt) : (s.modBoot f).host1 = s.host1 := rfl
@[simp] theorem State.modBoot_moves (f : BootSt → BootSt) : (s.modBoot f).moves = s.moves := rfl
@[simp] theorem State.modBoot_ledger (f : BootSt → BootSt) : (s.modBoot f).ledger = s.ledger := rfl
@[simp] theorem State.modBoot_links (f : BootSt → BootSt) : (s.modBoot f).links = s.links := rfl
@[simp] theorem State.modBoot_axes (f : BootSt → BootSt) : (s.modBoot f).axes = s.axes := rfl
@[simp] theorem State.modBoot_route (f : BootSt → BootSt) : (s.modBoot f).route = s.route := rfl
@[simp] theorem State.modBoot_check (f : BootSt → BootSt) : (s.modBoot f).check = s.check := rfl
@[simp] theorem State.modBoot_ctrs (f : BootSt → BootSt) : (s.modBoot f).ctrs = s.ctrs := rfl
@[simp] theorem State.modBoot_folds (f : BootSt → BootSt) : (s.modBoot f).folds = s.folds := rfl
@[simp] theorem State.modBoot_pavLogs (f : BootSt → BootSt) : (s.modBoot f).pavLogs = s.pavLogs := rfl
@[simp] theorem State.modBoot_modLog (f : BootSt → BootSt) : (s.modBoot f).modLog = s.modLog := rfl
@[simp] theorem State.modBoot_idleWait (f : BootSt → BootSt) : (s.modBoot f).idleWait = s.idleWait := rfl

/-! ### modBootPort -/

@[simp] theorem State.modBootPort_pending (k : Nat) (f : BootPort → BootPort) : (s.modBootPort k f).pending = s.pending := rfl
@[simp] theorem State.modBootPort_freeCtr (k : Nat) (f : BootPort → BootPort) : (s.modBootPort k f).freeCtr = s.freeCtr := rfl
@[simp] theorem State.modBootPort_out (k : Nat) (f : BootPort → BootPort) : (s.modBootPort k f).out = s.out := rfl
@[simp] theorem State.modBootPort_time (k : Nat) (f : BootPort → BootPort) : (s.modBootPort k f).time = s.time := rfl
@[simp] theorem State.modBootPort_power (k : Nat) (f : BootPort → BootPort) : (s.modBootPort k f).power = s.power := rfl
@[simp] theorem State.modBootPort_isles (k : Nat) (f : BootPort → BootPort) : (s.modBootPort k f).isles = s.isles := rfl
@[simp] theorem State.modBootPort_flash (k : Nat) (f : BootPort → BootPort) : (s.modBootPort k f).flash = s.flash := rfl
@[simp] theorem State.modBootPort_ports (k : Nat) (f : BootPort → BootPort) : (s.modBootPort k f).ports = s.ports := rfl
@[simp] theorem State.modBootPort_rings (k : Nat) (f : BootPort → BootPort) : (s.modBootPort k f).rings = s.rings := rfl
@[simp] theorem State.modBootPort_cmds (k : Nat) (f : BootPort → BootPort) : (s.modBootPort k f).cmds = s.cmds := rfl
@[simp] theorem State.modBootPort_nextCmd (k : Nat) (f : BootPort → BootPort) : (s.modBootPort k f).nextCmd = s.nextCmd := rfl
@[simp] theorem State.modBootPort_beat (k : Nat) (f : BootPort → BootPort) : (s.modBootPort k f).beat = s.beat := rfl
@[simp] theorem State.modBootPort_beatAt (k : Nat) (f : BootPort → BootPort) : (s.modBootPort k f).beatAt = s.beatAt := rfl
@[simp] theorem State.modBootPort_pavs (k : Nat) (f : BootPort → BootPort) : (s.modBootPort k f).pavs = s.pavs := rfl
@[simp] theorem State.modBootPort_clusters (k : Nat) (f : BootPort → BootPort) : (s.modBootPort k f).clusters = s.clusters := rfl
@[simp] theorem State.modBootPort_cores (k : Nat) (f : BootPort → BootPort) : (s.modBootPort k f).cores = s.cores := rfl
@[simp] theorem State.modBootPort_engines (k : Nat) (f : BootPort → BootPort) : (s.modBootPort k f).engines = s.engines := rfl
@[simp] theorem State.modBootPort_stitches (k : Nat) (f : BootPort → BootPort) : (s.modBootPort k f).stitches = s.stitches := rfl
@[simp] theorem State.modBootPort_mem (k : Nat) (f : BootPort → BootPort) : (s.modBootPort k f).mem = s.mem := rfl
@[simp] theorem State.modBootPort_host0 (k : Nat) (f : BootPort → BootPort) : (s.modBootPort k f).host0 = s.host0 := rfl
@[simp] theorem State.modBootPort_host1 (k : Nat) (f : BootPort → BootPort) : (s.modBootPort k f).host1 = s.host1 := rfl
@[simp] theorem State.modBootPort_moves (k : Nat) (f : BootPort → BootPort) : (s.modBootPort k f).moves = s.moves := rfl
@[simp] theorem State.modBootPort_ledger (k : Nat) (f : BootPort → BootPort) : (s.modBootPort k f).ledger = s.ledger := rfl
@[simp] theorem State.modBootPort_links (k : Nat) (f : BootPort → BootPort) : (s.modBootPort k f).links = s.links := rfl
@[simp] theorem State.modBootPort_axes (k : Nat) (f : BootPort → BootPort) : (s.modBootPort k f).axes = s.axes := rfl
@[simp] theorem State.modBootPort_route (k : Nat) (f : BootPort → BootPort) : (s.modBootPort k f).route = s.route := rfl
@[simp] theorem State.modBootPort_check (k : Nat) (f : BootPort → BootPort) : (s.modBootPort k f).check = s.check := rfl
@[simp] theorem State.modBootPort_ctrs (k : Nat) (f : BootPort → BootPort) : (s.modBootPort k f).ctrs = s.ctrs := rfl
@[simp] theorem State.modBootPort_folds (k : Nat) (f : BootPort → BootPort) : (s.modBootPort k f).folds = s.folds := rfl
@[simp] theorem State.modBootPort_pavLogs (k : Nat) (f : BootPort → BootPort) : (s.modBootPort k f).pavLogs = s.pavLogs := rfl
@[simp] theorem State.modBootPort_modLog (k : Nat) (f : BootPort → BootPort) : (s.modBootPort k f).modLog = s.modLog := rfl
@[simp] theorem State.modBootPort_idleWait (k : Nat) (f : BootPort → BootPort) : (s.modBootPort k f).idleWait = s.idleWait := rfl

/-! ### modMbox -/

@[simp] theorem State.modMbox_pending (k : Nat) (f : Mbox → Mbox) : (s.modMbox k f).pending = s.pending := rfl
@[simp] theorem State.modMbox_freeCtr (k : Nat) (f : Mbox → Mbox) : (s.modMbox k f).freeCtr = s.freeCtr := rfl
@[simp] theorem State.modMbox_out (k : Nat) (f : Mbox → Mbox) : (s.modMbox k f).out = s.out := rfl
@[simp] theorem State.modMbox_time (k : Nat) (f : Mbox → Mbox) : (s.modMbox k f).time = s.time := rfl
@[simp] theorem State.modMbox_power (k : Nat) (f : Mbox → Mbox) : (s.modMbox k f).power = s.power := rfl
@[simp] theorem State.modMbox_isles (k : Nat) (f : Mbox → Mbox) : (s.modMbox k f).isles = s.isles := rfl
@[simp] theorem State.modMbox_flash (k : Nat) (f : Mbox → Mbox) : (s.modMbox k f).flash = s.flash := rfl
@[simp] theorem State.modMbox_ports (k : Nat) (f : Mbox → Mbox) : (s.modMbox k f).ports = s.ports := rfl
@[simp] theorem State.modMbox_rings (k : Nat) (f : Mbox → Mbox) : (s.modMbox k f).rings = s.rings := rfl
@[simp] theorem State.modMbox_cmds (k : Nat) (f : Mbox → Mbox) : (s.modMbox k f).cmds = s.cmds := rfl
@[simp] theorem State.modMbox_nextCmd (k : Nat) (f : Mbox → Mbox) : (s.modMbox k f).nextCmd = s.nextCmd := rfl
@[simp] theorem State.modMbox_beat (k : Nat) (f : Mbox → Mbox) : (s.modMbox k f).beat = s.beat := rfl
@[simp] theorem State.modMbox_beatAt (k : Nat) (f : Mbox → Mbox) : (s.modMbox k f).beatAt = s.beatAt := rfl
@[simp] theorem State.modMbox_pavs (k : Nat) (f : Mbox → Mbox) : (s.modMbox k f).pavs = s.pavs := rfl
@[simp] theorem State.modMbox_clusters (k : Nat) (f : Mbox → Mbox) : (s.modMbox k f).clusters = s.clusters := rfl
@[simp] theorem State.modMbox_cores (k : Nat) (f : Mbox → Mbox) : (s.modMbox k f).cores = s.cores := rfl
@[simp] theorem State.modMbox_engines (k : Nat) (f : Mbox → Mbox) : (s.modMbox k f).engines = s.engines := rfl
@[simp] theorem State.modMbox_stitches (k : Nat) (f : Mbox → Mbox) : (s.modMbox k f).stitches = s.stitches := rfl
@[simp] theorem State.modMbox_mem (k : Nat) (f : Mbox → Mbox) : (s.modMbox k f).mem = s.mem := rfl
@[simp] theorem State.modMbox_host0 (k : Nat) (f : Mbox → Mbox) : (s.modMbox k f).host0 = s.host0 := rfl
@[simp] theorem State.modMbox_host1 (k : Nat) (f : Mbox → Mbox) : (s.modMbox k f).host1 = s.host1 := rfl
@[simp] theorem State.modMbox_moves (k : Nat) (f : Mbox → Mbox) : (s.modMbox k f).moves = s.moves := rfl
@[simp] theorem State.modMbox_ledger (k : Nat) (f : Mbox → Mbox) : (s.modMbox k f).ledger = s.ledger := rfl
@[simp] theorem State.modMbox_links (k : Nat) (f : Mbox → Mbox) : (s.modMbox k f).links = s.links := rfl
@[simp] theorem State.modMbox_axes (k : Nat) (f : Mbox → Mbox) : (s.modMbox k f).axes = s.axes := rfl
@[simp] theorem State.modMbox_route (k : Nat) (f : Mbox → Mbox) : (s.modMbox k f).route = s.route := rfl
@[simp] theorem State.modMbox_check (k : Nat) (f : Mbox → Mbox) : (s.modMbox k f).check = s.check := rfl
@[simp] theorem State.modMbox_ctrs (k : Nat) (f : Mbox → Mbox) : (s.modMbox k f).ctrs = s.ctrs := rfl
@[simp] theorem State.modMbox_folds (k : Nat) (f : Mbox → Mbox) : (s.modMbox k f).folds = s.folds := rfl
@[simp] theorem State.modMbox_pavLogs (k : Nat) (f : Mbox → Mbox) : (s.modMbox k f).pavLogs = s.pavLogs := rfl
@[simp] theorem State.modMbox_modLog (k : Nat) (f : Mbox → Mbox) : (s.modMbox k f).modLog = s.modLog := rfl
@[simp] theorem State.modMbox_idleWait (k : Nat) (f : Mbox → Mbox) : (s.modMbox k f).idleWait = s.idleWait := rfl

/-! ### modPower -/

@[simp] theorem State.modPower_pending (f : PowerSt → PowerSt) : (s.modPower f).pending = s.pending := rfl
@[simp] theorem State.modPower_freeCtr (f : PowerSt → PowerSt) : (s.modPower f).freeCtr = s.freeCtr := rfl
@[simp] theorem State.modPower_out (f : PowerSt → PowerSt) : (s.modPower f).out = s.out := rfl
@[simp] theorem State.modPower_time (f : PowerSt → PowerSt) : (s.modPower f).time = s.time := rfl
@[simp] theorem State.modPower_isles (f : PowerSt → PowerSt) : (s.modPower f).isles = s.isles := rfl
@[simp] theorem State.modPower_boot (f : PowerSt → PowerSt) : (s.modPower f).boot = s.boot := rfl
@[simp] theorem State.modPower_flash (f : PowerSt → PowerSt) : (s.modPower f).flash = s.flash := rfl
@[simp] theorem State.modPower_ports (f : PowerSt → PowerSt) : (s.modPower f).ports = s.ports := rfl
@[simp] theorem State.modPower_rings (f : PowerSt → PowerSt) : (s.modPower f).rings = s.rings := rfl
@[simp] theorem State.modPower_cmds (f : PowerSt → PowerSt) : (s.modPower f).cmds = s.cmds := rfl
@[simp] theorem State.modPower_nextCmd (f : PowerSt → PowerSt) : (s.modPower f).nextCmd = s.nextCmd := rfl
@[simp] theorem State.modPower_beat (f : PowerSt → PowerSt) : (s.modPower f).beat = s.beat := rfl
@[simp] theorem State.modPower_beatAt (f : PowerSt → PowerSt) : (s.modPower f).beatAt = s.beatAt := rfl
@[simp] theorem State.modPower_pavs (f : PowerSt → PowerSt) : (s.modPower f).pavs = s.pavs := rfl
@[simp] theorem State.modPower_clusters (f : PowerSt → PowerSt) : (s.modPower f).clusters = s.clusters := rfl
@[simp] theorem State.modPower_cores (f : PowerSt → PowerSt) : (s.modPower f).cores = s.cores := rfl
@[simp] theorem State.modPower_engines (f : PowerSt → PowerSt) : (s.modPower f).engines = s.engines := rfl
@[simp] theorem State.modPower_stitches (f : PowerSt → PowerSt) : (s.modPower f).stitches = s.stitches := rfl
@[simp] theorem State.modPower_mem (f : PowerSt → PowerSt) : (s.modPower f).mem = s.mem := rfl
@[simp] theorem State.modPower_host0 (f : PowerSt → PowerSt) : (s.modPower f).host0 = s.host0 := rfl
@[simp] theorem State.modPower_host1 (f : PowerSt → PowerSt) : (s.modPower f).host1 = s.host1 := rfl
@[simp] theorem State.modPower_moves (f : PowerSt → PowerSt) : (s.modPower f).moves = s.moves := rfl
@[simp] theorem State.modPower_ledger (f : PowerSt → PowerSt) : (s.modPower f).ledger = s.ledger := rfl
@[simp] theorem State.modPower_links (f : PowerSt → PowerSt) : (s.modPower f).links = s.links := rfl
@[simp] theorem State.modPower_axes (f : PowerSt → PowerSt) : (s.modPower f).axes = s.axes := rfl
@[simp] theorem State.modPower_route (f : PowerSt → PowerSt) : (s.modPower f).route = s.route := rfl
@[simp] theorem State.modPower_check (f : PowerSt → PowerSt) : (s.modPower f).check = s.check := rfl
@[simp] theorem State.modPower_ctrs (f : PowerSt → PowerSt) : (s.modPower f).ctrs = s.ctrs := rfl
@[simp] theorem State.modPower_folds (f : PowerSt → PowerSt) : (s.modPower f).folds = s.folds := rfl
@[simp] theorem State.modPower_pavLogs (f : PowerSt → PowerSt) : (s.modPower f).pavLogs = s.pavLogs := rfl
@[simp] theorem State.modPower_modLog (f : PowerSt → PowerSt) : (s.modPower f).modLog = s.modLog := rfl
@[simp] theorem State.modPower_idleWait (f : PowerSt → PowerSt) : (s.modPower f).idleWait = s.idleWait := rfl

/-! ### modMem -/

@[simp] theorem State.modMem_pending (f : MemSt → MemSt) : (s.modMem f).pending = s.pending := rfl
@[simp] theorem State.modMem_freeCtr (f : MemSt → MemSt) : (s.modMem f).freeCtr = s.freeCtr := rfl
@[simp] theorem State.modMem_out (f : MemSt → MemSt) : (s.modMem f).out = s.out := rfl
@[simp] theorem State.modMem_time (f : MemSt → MemSt) : (s.modMem f).time = s.time := rfl
@[simp] theorem State.modMem_power (f : MemSt → MemSt) : (s.modMem f).power = s.power := rfl
@[simp] theorem State.modMem_isles (f : MemSt → MemSt) : (s.modMem f).isles = s.isles := rfl
@[simp] theorem State.modMem_boot (f : MemSt → MemSt) : (s.modMem f).boot = s.boot := rfl
@[simp] theorem State.modMem_flash (f : MemSt → MemSt) : (s.modMem f).flash = s.flash := rfl
@[simp] theorem State.modMem_ports (f : MemSt → MemSt) : (s.modMem f).ports = s.ports := rfl
@[simp] theorem State.modMem_rings (f : MemSt → MemSt) : (s.modMem f).rings = s.rings := rfl
@[simp] theorem State.modMem_cmds (f : MemSt → MemSt) : (s.modMem f).cmds = s.cmds := rfl
@[simp] theorem State.modMem_nextCmd (f : MemSt → MemSt) : (s.modMem f).nextCmd = s.nextCmd := rfl
@[simp] theorem State.modMem_beat (f : MemSt → MemSt) : (s.modMem f).beat = s.beat := rfl
@[simp] theorem State.modMem_beatAt (f : MemSt → MemSt) : (s.modMem f).beatAt = s.beatAt := rfl
@[simp] theorem State.modMem_pavs (f : MemSt → MemSt) : (s.modMem f).pavs = s.pavs := rfl
@[simp] theorem State.modMem_clusters (f : MemSt → MemSt) : (s.modMem f).clusters = s.clusters := rfl
@[simp] theorem State.modMem_cores (f : MemSt → MemSt) : (s.modMem f).cores = s.cores := rfl
@[simp] theorem State.modMem_engines (f : MemSt → MemSt) : (s.modMem f).engines = s.engines := rfl
@[simp] theorem State.modMem_stitches (f : MemSt → MemSt) : (s.modMem f).stitches = s.stitches := rfl
@[simp] theorem State.modMem_host0 (f : MemSt → MemSt) : (s.modMem f).host0 = s.host0 := rfl
@[simp] theorem State.modMem_host1 (f : MemSt → MemSt) : (s.modMem f).host1 = s.host1 := rfl
@[simp] theorem State.modMem_moves (f : MemSt → MemSt) : (s.modMem f).moves = s.moves := rfl
@[simp] theorem State.modMem_ledger (f : MemSt → MemSt) : (s.modMem f).ledger = s.ledger := rfl
@[simp] theorem State.modMem_links (f : MemSt → MemSt) : (s.modMem f).links = s.links := rfl
@[simp] theorem State.modMem_axes (f : MemSt → MemSt) : (s.modMem f).axes = s.axes := rfl
@[simp] theorem State.modMem_route (f : MemSt → MemSt) : (s.modMem f).route = s.route := rfl
@[simp] theorem State.modMem_check (f : MemSt → MemSt) : (s.modMem f).check = s.check := rfl
@[simp] theorem State.modMem_ctrs (f : MemSt → MemSt) : (s.modMem f).ctrs = s.ctrs := rfl
@[simp] theorem State.modMem_folds (f : MemSt → MemSt) : (s.modMem f).folds = s.folds := rfl
@[simp] theorem State.modMem_pavLogs (f : MemSt → MemSt) : (s.modMem f).pavLogs = s.pavLogs := rfl
@[simp] theorem State.modMem_modLog (f : MemSt → MemSt) : (s.modMem f).modLog = s.modLog := rfl
@[simp] theorem State.modMem_idleWait (f : MemSt → MemSt) : (s.modMem f).idleWait = s.idleWait := rfl

/-! ### modRoute -/

@[simp] theorem State.modRoute_pending (f : RouteSt → RouteSt) : (s.modRoute f).pending = s.pending := rfl
@[simp] theorem State.modRoute_freeCtr (f : RouteSt → RouteSt) : (s.modRoute f).freeCtr = s.freeCtr := rfl
@[simp] theorem State.modRoute_out (f : RouteSt → RouteSt) : (s.modRoute f).out = s.out := rfl
@[simp] theorem State.modRoute_time (f : RouteSt → RouteSt) : (s.modRoute f).time = s.time := rfl
@[simp] theorem State.modRoute_power (f : RouteSt → RouteSt) : (s.modRoute f).power = s.power := rfl
@[simp] theorem State.modRoute_isles (f : RouteSt → RouteSt) : (s.modRoute f).isles = s.isles := rfl
@[simp] theorem State.modRoute_boot (f : RouteSt → RouteSt) : (s.modRoute f).boot = s.boot := rfl
@[simp] theorem State.modRoute_flash (f : RouteSt → RouteSt) : (s.modRoute f).flash = s.flash := rfl
@[simp] theorem State.modRoute_ports (f : RouteSt → RouteSt) : (s.modRoute f).ports = s.ports := rfl
@[simp] theorem State.modRoute_rings (f : RouteSt → RouteSt) : (s.modRoute f).rings = s.rings := rfl
@[simp] theorem State.modRoute_cmds (f : RouteSt → RouteSt) : (s.modRoute f).cmds = s.cmds := rfl
@[simp] theorem State.modRoute_nextCmd (f : RouteSt → RouteSt) : (s.modRoute f).nextCmd = s.nextCmd := rfl
@[simp] theorem State.modRoute_beat (f : RouteSt → RouteSt) : (s.modRoute f).beat = s.beat := rfl
@[simp] theorem State.modRoute_beatAt (f : RouteSt → RouteSt) : (s.modRoute f).beatAt = s.beatAt := rfl
@[simp] theorem State.modRoute_pavs (f : RouteSt → RouteSt) : (s.modRoute f).pavs = s.pavs := rfl
@[simp] theorem State.modRoute_clusters (f : RouteSt → RouteSt) : (s.modRoute f).clusters = s.clusters := rfl
@[simp] theorem State.modRoute_cores (f : RouteSt → RouteSt) : (s.modRoute f).cores = s.cores := rfl
@[simp] theorem State.modRoute_engines (f : RouteSt → RouteSt) : (s.modRoute f).engines = s.engines := rfl
@[simp] theorem State.modRoute_stitches (f : RouteSt → RouteSt) : (s.modRoute f).stitches = s.stitches := rfl
@[simp] theorem State.modRoute_mem (f : RouteSt → RouteSt) : (s.modRoute f).mem = s.mem := rfl
@[simp] theorem State.modRoute_host0 (f : RouteSt → RouteSt) : (s.modRoute f).host0 = s.host0 := rfl
@[simp] theorem State.modRoute_host1 (f : RouteSt → RouteSt) : (s.modRoute f).host1 = s.host1 := rfl
@[simp] theorem State.modRoute_moves (f : RouteSt → RouteSt) : (s.modRoute f).moves = s.moves := rfl
@[simp] theorem State.modRoute_ledger (f : RouteSt → RouteSt) : (s.modRoute f).ledger = s.ledger := rfl
@[simp] theorem State.modRoute_links (f : RouteSt → RouteSt) : (s.modRoute f).links = s.links := rfl
@[simp] theorem State.modRoute_axes (f : RouteSt → RouteSt) : (s.modRoute f).axes = s.axes := rfl
@[simp] theorem State.modRoute_check (f : RouteSt → RouteSt) : (s.modRoute f).check = s.check := rfl
@[simp] theorem State.modRoute_ctrs (f : RouteSt → RouteSt) : (s.modRoute f).ctrs = s.ctrs := rfl
@[simp] theorem State.modRoute_folds (f : RouteSt → RouteSt) : (s.modRoute f).folds = s.folds := rfl
@[simp] theorem State.modRoute_pavLogs (f : RouteSt → RouteSt) : (s.modRoute f).pavLogs = s.pavLogs := rfl
@[simp] theorem State.modRoute_modLog (f : RouteSt → RouteSt) : (s.modRoute f).modLog = s.modLog := rfl
@[simp] theorem State.modRoute_idleWait (f : RouteSt → RouteSt) : (s.modRoute f).idleWait = s.idleWait := rfl

/-! ### modCheck -/

@[simp] theorem State.modCheck_pending (f : CheckSt → CheckSt) : (s.modCheck f).pending = s.pending := rfl
@[simp] theorem State.modCheck_freeCtr (f : CheckSt → CheckSt) : (s.modCheck f).freeCtr = s.freeCtr := rfl
@[simp] theorem State.modCheck_out (f : CheckSt → CheckSt) : (s.modCheck f).out = s.out := rfl
@[simp] theorem State.modCheck_time (f : CheckSt → CheckSt) : (s.modCheck f).time = s.time := rfl
@[simp] theorem State.modCheck_power (f : CheckSt → CheckSt) : (s.modCheck f).power = s.power := rfl
@[simp] theorem State.modCheck_isles (f : CheckSt → CheckSt) : (s.modCheck f).isles = s.isles := rfl
@[simp] theorem State.modCheck_boot (f : CheckSt → CheckSt) : (s.modCheck f).boot = s.boot := rfl
@[simp] theorem State.modCheck_flash (f : CheckSt → CheckSt) : (s.modCheck f).flash = s.flash := rfl
@[simp] theorem State.modCheck_ports (f : CheckSt → CheckSt) : (s.modCheck f).ports = s.ports := rfl
@[simp] theorem State.modCheck_rings (f : CheckSt → CheckSt) : (s.modCheck f).rings = s.rings := rfl
@[simp] theorem State.modCheck_cmds (f : CheckSt → CheckSt) : (s.modCheck f).cmds = s.cmds := rfl
@[simp] theorem State.modCheck_nextCmd (f : CheckSt → CheckSt) : (s.modCheck f).nextCmd = s.nextCmd := rfl
@[simp] theorem State.modCheck_beat (f : CheckSt → CheckSt) : (s.modCheck f).beat = s.beat := rfl
@[simp] theorem State.modCheck_beatAt (f : CheckSt → CheckSt) : (s.modCheck f).beatAt = s.beatAt := rfl
@[simp] theorem State.modCheck_pavs (f : CheckSt → CheckSt) : (s.modCheck f).pavs = s.pavs := rfl
@[simp] theorem State.modCheck_clusters (f : CheckSt → CheckSt) : (s.modCheck f).clusters = s.clusters := rfl
@[simp] theorem State.modCheck_cores (f : CheckSt → CheckSt) : (s.modCheck f).cores = s.cores := rfl
@[simp] theorem State.modCheck_engines (f : CheckSt → CheckSt) : (s.modCheck f).engines = s.engines := rfl
@[simp] theorem State.modCheck_stitches (f : CheckSt → CheckSt) : (s.modCheck f).stitches = s.stitches := rfl
@[simp] theorem State.modCheck_mem (f : CheckSt → CheckSt) : (s.modCheck f).mem = s.mem := rfl
@[simp] theorem State.modCheck_host0 (f : CheckSt → CheckSt) : (s.modCheck f).host0 = s.host0 := rfl
@[simp] theorem State.modCheck_host1 (f : CheckSt → CheckSt) : (s.modCheck f).host1 = s.host1 := rfl
@[simp] theorem State.modCheck_moves (f : CheckSt → CheckSt) : (s.modCheck f).moves = s.moves := rfl
@[simp] theorem State.modCheck_ledger (f : CheckSt → CheckSt) : (s.modCheck f).ledger = s.ledger := rfl
@[simp] theorem State.modCheck_links (f : CheckSt → CheckSt) : (s.modCheck f).links = s.links := rfl
@[simp] theorem State.modCheck_axes (f : CheckSt → CheckSt) : (s.modCheck f).axes = s.axes := rfl
@[simp] theorem State.modCheck_route (f : CheckSt → CheckSt) : (s.modCheck f).route = s.route := rfl
@[simp] theorem State.modCheck_ctrs (f : CheckSt → CheckSt) : (s.modCheck f).ctrs = s.ctrs := rfl
@[simp] theorem State.modCheck_folds (f : CheckSt → CheckSt) : (s.modCheck f).folds = s.folds := rfl
@[simp] theorem State.modCheck_pavLogs (f : CheckSt → CheckSt) : (s.modCheck f).pavLogs = s.pavLogs := rfl
@[simp] theorem State.modCheck_modLog (f : CheckSt → CheckSt) : (s.modCheck f).modLog = s.modLog := rfl
@[simp] theorem State.modCheck_idleWait (f : CheckSt → CheckSt) : (s.modCheck f).idleWait = s.idleWait := rfl

/-! ### modTime -/

@[simp] theorem State.modTime_pending (f : TimeSt → TimeSt) : (s.modTime f).pending = s.pending := rfl
@[simp] theorem State.modTime_freeCtr (f : TimeSt → TimeSt) : (s.modTime f).freeCtr = s.freeCtr := rfl
@[simp] theorem State.modTime_out (f : TimeSt → TimeSt) : (s.modTime f).out = s.out := rfl
@[simp] theorem State.modTime_power (f : TimeSt → TimeSt) : (s.modTime f).power = s.power := rfl
@[simp] theorem State.modTime_isles (f : TimeSt → TimeSt) : (s.modTime f).isles = s.isles := rfl
@[simp] theorem State.modTime_boot (f : TimeSt → TimeSt) : (s.modTime f).boot = s.boot := rfl
@[simp] theorem State.modTime_flash (f : TimeSt → TimeSt) : (s.modTime f).flash = s.flash := rfl
@[simp] theorem State.modTime_ports (f : TimeSt → TimeSt) : (s.modTime f).ports = s.ports := rfl
@[simp] theorem State.modTime_rings (f : TimeSt → TimeSt) : (s.modTime f).rings = s.rings := rfl
@[simp] theorem State.modTime_cmds (f : TimeSt → TimeSt) : (s.modTime f).cmds = s.cmds := rfl
@[simp] theorem State.modTime_nextCmd (f : TimeSt → TimeSt) : (s.modTime f).nextCmd = s.nextCmd := rfl
@[simp] theorem State.modTime_beat (f : TimeSt → TimeSt) : (s.modTime f).beat = s.beat := rfl
@[simp] theorem State.modTime_beatAt (f : TimeSt → TimeSt) : (s.modTime f).beatAt = s.beatAt := rfl
@[simp] theorem State.modTime_pavs (f : TimeSt → TimeSt) : (s.modTime f).pavs = s.pavs := rfl
@[simp] theorem State.modTime_clusters (f : TimeSt → TimeSt) : (s.modTime f).clusters = s.clusters := rfl
@[simp] theorem State.modTime_cores (f : TimeSt → TimeSt) : (s.modTime f).cores = s.cores := rfl
@[simp] theorem State.modTime_engines (f : TimeSt → TimeSt) : (s.modTime f).engines = s.engines := rfl
@[simp] theorem State.modTime_stitches (f : TimeSt → TimeSt) : (s.modTime f).stitches = s.stitches := rfl
@[simp] theorem State.modTime_mem (f : TimeSt → TimeSt) : (s.modTime f).mem = s.mem := rfl
@[simp] theorem State.modTime_host0 (f : TimeSt → TimeSt) : (s.modTime f).host0 = s.host0 := rfl
@[simp] theorem State.modTime_host1 (f : TimeSt → TimeSt) : (s.modTime f).host1 = s.host1 := rfl
@[simp] theorem State.modTime_moves (f : TimeSt → TimeSt) : (s.modTime f).moves = s.moves := rfl
@[simp] theorem State.modTime_ledger (f : TimeSt → TimeSt) : (s.modTime f).ledger = s.ledger := rfl
@[simp] theorem State.modTime_links (f : TimeSt → TimeSt) : (s.modTime f).links = s.links := rfl
@[simp] theorem State.modTime_axes (f : TimeSt → TimeSt) : (s.modTime f).axes = s.axes := rfl
@[simp] theorem State.modTime_route (f : TimeSt → TimeSt) : (s.modTime f).route = s.route := rfl
@[simp] theorem State.modTime_check (f : TimeSt → TimeSt) : (s.modTime f).check = s.check := rfl
@[simp] theorem State.modTime_ctrs (f : TimeSt → TimeSt) : (s.modTime f).ctrs = s.ctrs := rfl
@[simp] theorem State.modTime_folds (f : TimeSt → TimeSt) : (s.modTime f).folds = s.folds := rfl
@[simp] theorem State.modTime_pavLogs (f : TimeSt → TimeSt) : (s.modTime f).pavLogs = s.pavLogs := rfl
@[simp] theorem State.modTime_modLog (f : TimeSt → TimeSt) : (s.modTime f).modLog = s.modLog := rfl
@[simp] theorem State.modTime_idleWait (f : TimeSt → TimeSt) : (s.modTime f).idleWait = s.idleWait := rfl

/-! ### modLedger -/

@[simp] theorem State.modLedger_pending (f : Ledger → Ledger) : (s.modLedger f).pending = s.pending := rfl
@[simp] theorem State.modLedger_freeCtr (f : Ledger → Ledger) : (s.modLedger f).freeCtr = s.freeCtr := rfl
@[simp] theorem State.modLedger_out (f : Ledger → Ledger) : (s.modLedger f).out = s.out := rfl
@[simp] theorem State.modLedger_time (f : Ledger → Ledger) : (s.modLedger f).time = s.time := rfl
@[simp] theorem State.modLedger_power (f : Ledger → Ledger) : (s.modLedger f).power = s.power := rfl
@[simp] theorem State.modLedger_isles (f : Ledger → Ledger) : (s.modLedger f).isles = s.isles := rfl
@[simp] theorem State.modLedger_boot (f : Ledger → Ledger) : (s.modLedger f).boot = s.boot := rfl
@[simp] theorem State.modLedger_flash (f : Ledger → Ledger) : (s.modLedger f).flash = s.flash := rfl
@[simp] theorem State.modLedger_ports (f : Ledger → Ledger) : (s.modLedger f).ports = s.ports := rfl
@[simp] theorem State.modLedger_rings (f : Ledger → Ledger) : (s.modLedger f).rings = s.rings := rfl
@[simp] theorem State.modLedger_cmds (f : Ledger → Ledger) : (s.modLedger f).cmds = s.cmds := rfl
@[simp] theorem State.modLedger_nextCmd (f : Ledger → Ledger) : (s.modLedger f).nextCmd = s.nextCmd := rfl
@[simp] theorem State.modLedger_beat (f : Ledger → Ledger) : (s.modLedger f).beat = s.beat := rfl
@[simp] theorem State.modLedger_beatAt (f : Ledger → Ledger) : (s.modLedger f).beatAt = s.beatAt := rfl
@[simp] theorem State.modLedger_pavs (f : Ledger → Ledger) : (s.modLedger f).pavs = s.pavs := rfl
@[simp] theorem State.modLedger_clusters (f : Ledger → Ledger) : (s.modLedger f).clusters = s.clusters := rfl
@[simp] theorem State.modLedger_cores (f : Ledger → Ledger) : (s.modLedger f).cores = s.cores := rfl
@[simp] theorem State.modLedger_engines (f : Ledger → Ledger) : (s.modLedger f).engines = s.engines := rfl
@[simp] theorem State.modLedger_stitches (f : Ledger → Ledger) : (s.modLedger f).stitches = s.stitches := rfl
@[simp] theorem State.modLedger_mem (f : Ledger → Ledger) : (s.modLedger f).mem = s.mem := rfl
@[simp] theorem State.modLedger_host0 (f : Ledger → Ledger) : (s.modLedger f).host0 = s.host0 := rfl
@[simp] theorem State.modLedger_host1 (f : Ledger → Ledger) : (s.modLedger f).host1 = s.host1 := rfl
@[simp] theorem State.modLedger_moves (f : Ledger → Ledger) : (s.modLedger f).moves = s.moves := rfl
@[simp] theorem State.modLedger_links (f : Ledger → Ledger) : (s.modLedger f).links = s.links := rfl
@[simp] theorem State.modLedger_axes (f : Ledger → Ledger) : (s.modLedger f).axes = s.axes := rfl
@[simp] theorem State.modLedger_route (f : Ledger → Ledger) : (s.modLedger f).route = s.route := rfl
@[simp] theorem State.modLedger_check (f : Ledger → Ledger) : (s.modLedger f).check = s.check := rfl
@[simp] theorem State.modLedger_ctrs (f : Ledger → Ledger) : (s.modLedger f).ctrs = s.ctrs := rfl
@[simp] theorem State.modLedger_folds (f : Ledger → Ledger) : (s.modLedger f).folds = s.folds := rfl
@[simp] theorem State.modLedger_pavLogs (f : Ledger → Ledger) : (s.modLedger f).pavLogs = s.pavLogs := rfl
@[simp] theorem State.modLedger_modLog (f : Ledger → Ledger) : (s.modLedger f).modLog = s.modLog := rfl
@[simp] theorem State.modLedger_idleWait (f : Ledger → Ledger) : (s.modLedger f).idleWait = s.idleWait := rfl

/-! ### modFlash -/

@[simp] theorem State.modFlash_pending (f : Flash → Flash) : (s.modFlash f).pending = s.pending := rfl
@[simp] theorem State.modFlash_freeCtr (f : Flash → Flash) : (s.modFlash f).freeCtr = s.freeCtr := rfl
@[simp] theorem State.modFlash_out (f : Flash → Flash) : (s.modFlash f).out = s.out := rfl
@[simp] theorem State.modFlash_time (f : Flash → Flash) : (s.modFlash f).time = s.time := rfl
@[simp] theorem State.modFlash_power (f : Flash → Flash) : (s.modFlash f).power = s.power := rfl
@[simp] theorem State.modFlash_isles (f : Flash → Flash) : (s.modFlash f).isles = s.isles := rfl
@[simp] theorem State.modFlash_boot (f : Flash → Flash) : (s.modFlash f).boot = s.boot := rfl
@[simp] theorem State.modFlash_ports (f : Flash → Flash) : (s.modFlash f).ports = s.ports := rfl
@[simp] theorem State.modFlash_rings (f : Flash → Flash) : (s.modFlash f).rings = s.rings := rfl
@[simp] theorem State.modFlash_cmds (f : Flash → Flash) : (s.modFlash f).cmds = s.cmds := rfl
@[simp] theorem State.modFlash_nextCmd (f : Flash → Flash) : (s.modFlash f).nextCmd = s.nextCmd := rfl
@[simp] theorem State.modFlash_beat (f : Flash → Flash) : (s.modFlash f).beat = s.beat := rfl
@[simp] theorem State.modFlash_beatAt (f : Flash → Flash) : (s.modFlash f).beatAt = s.beatAt := rfl
@[simp] theorem State.modFlash_pavs (f : Flash → Flash) : (s.modFlash f).pavs = s.pavs := rfl
@[simp] theorem State.modFlash_clusters (f : Flash → Flash) : (s.modFlash f).clusters = s.clusters := rfl
@[simp] theorem State.modFlash_cores (f : Flash → Flash) : (s.modFlash f).cores = s.cores := rfl
@[simp] theorem State.modFlash_engines (f : Flash → Flash) : (s.modFlash f).engines = s.engines := rfl
@[simp] theorem State.modFlash_stitches (f : Flash → Flash) : (s.modFlash f).stitches = s.stitches := rfl
@[simp] theorem State.modFlash_mem (f : Flash → Flash) : (s.modFlash f).mem = s.mem := rfl
@[simp] theorem State.modFlash_host0 (f : Flash → Flash) : (s.modFlash f).host0 = s.host0 := rfl
@[simp] theorem State.modFlash_host1 (f : Flash → Flash) : (s.modFlash f).host1 = s.host1 := rfl
@[simp] theorem State.modFlash_moves (f : Flash → Flash) : (s.modFlash f).moves = s.moves := rfl
@[simp] theorem State.modFlash_ledger (f : Flash → Flash) : (s.modFlash f).ledger = s.ledger := rfl
@[simp] theorem State.modFlash_links (f : Flash → Flash) : (s.modFlash f).links = s.links := rfl
@[simp] theorem State.modFlash_axes (f : Flash → Flash) : (s.modFlash f).axes = s.axes := rfl
@[simp] theorem State.modFlash_route (f : Flash → Flash) : (s.modFlash f).route = s.route := rfl
@[simp] theorem State.modFlash_check (f : Flash → Flash) : (s.modFlash f).check = s.check := rfl
@[simp] theorem State.modFlash_ctrs (f : Flash → Flash) : (s.modFlash f).ctrs = s.ctrs := rfl
@[simp] theorem State.modFlash_folds (f : Flash → Flash) : (s.modFlash f).folds = s.folds := rfl
@[simp] theorem State.modFlash_pavLogs (f : Flash → Flash) : (s.modFlash f).pavLogs = s.pavLogs := rfl
@[simp] theorem State.modFlash_modLog (f : Flash → Flash) : (s.modFlash f).modLog = s.modLog := rfl
@[simp] theorem State.modFlash_idleWait (f : Flash → Flash) : (s.modFlash f).idleWait = s.idleWait := rfl

/-! ### modCmd -/

@[simp] theorem State.modCmd_pending (k : Nat) (f : Cmd → Cmd) : (s.modCmd k f).pending = s.pending := rfl
@[simp] theorem State.modCmd_freeCtr (k : Nat) (f : Cmd → Cmd) : (s.modCmd k f).freeCtr = s.freeCtr := rfl
@[simp] theorem State.modCmd_out (k : Nat) (f : Cmd → Cmd) : (s.modCmd k f).out = s.out := rfl
@[simp] theorem State.modCmd_time (k : Nat) (f : Cmd → Cmd) : (s.modCmd k f).time = s.time := rfl
@[simp] theorem State.modCmd_power (k : Nat) (f : Cmd → Cmd) : (s.modCmd k f).power = s.power := rfl
@[simp] theorem State.modCmd_isles (k : Nat) (f : Cmd → Cmd) : (s.modCmd k f).isles = s.isles := rfl
@[simp] theorem State.modCmd_boot (k : Nat) (f : Cmd → Cmd) : (s.modCmd k f).boot = s.boot := rfl
@[simp] theorem State.modCmd_flash (k : Nat) (f : Cmd → Cmd) : (s.modCmd k f).flash = s.flash := rfl
@[simp] theorem State.modCmd_ports (k : Nat) (f : Cmd → Cmd) : (s.modCmd k f).ports = s.ports := rfl
@[simp] theorem State.modCmd_rings (k : Nat) (f : Cmd → Cmd) : (s.modCmd k f).rings = s.rings := rfl
@[simp] theorem State.modCmd_nextCmd (k : Nat) (f : Cmd → Cmd) : (s.modCmd k f).nextCmd = s.nextCmd := rfl
@[simp] theorem State.modCmd_beat (k : Nat) (f : Cmd → Cmd) : (s.modCmd k f).beat = s.beat := rfl
@[simp] theorem State.modCmd_beatAt (k : Nat) (f : Cmd → Cmd) : (s.modCmd k f).beatAt = s.beatAt := rfl
@[simp] theorem State.modCmd_pavs (k : Nat) (f : Cmd → Cmd) : (s.modCmd k f).pavs = s.pavs := rfl
@[simp] theorem State.modCmd_clusters (k : Nat) (f : Cmd → Cmd) : (s.modCmd k f).clusters = s.clusters := rfl
@[simp] theorem State.modCmd_cores (k : Nat) (f : Cmd → Cmd) : (s.modCmd k f).cores = s.cores := rfl
@[simp] theorem State.modCmd_engines (k : Nat) (f : Cmd → Cmd) : (s.modCmd k f).engines = s.engines := rfl
@[simp] theorem State.modCmd_stitches (k : Nat) (f : Cmd → Cmd) : (s.modCmd k f).stitches = s.stitches := rfl
@[simp] theorem State.modCmd_mem (k : Nat) (f : Cmd → Cmd) : (s.modCmd k f).mem = s.mem := rfl
@[simp] theorem State.modCmd_host0 (k : Nat) (f : Cmd → Cmd) : (s.modCmd k f).host0 = s.host0 := rfl
@[simp] theorem State.modCmd_host1 (k : Nat) (f : Cmd → Cmd) : (s.modCmd k f).host1 = s.host1 := rfl
@[simp] theorem State.modCmd_moves (k : Nat) (f : Cmd → Cmd) : (s.modCmd k f).moves = s.moves := rfl
@[simp] theorem State.modCmd_ledger (k : Nat) (f : Cmd → Cmd) : (s.modCmd k f).ledger = s.ledger := rfl
@[simp] theorem State.modCmd_links (k : Nat) (f : Cmd → Cmd) : (s.modCmd k f).links = s.links := rfl
@[simp] theorem State.modCmd_axes (k : Nat) (f : Cmd → Cmd) : (s.modCmd k f).axes = s.axes := rfl
@[simp] theorem State.modCmd_route (k : Nat) (f : Cmd → Cmd) : (s.modCmd k f).route = s.route := rfl
@[simp] theorem State.modCmd_check (k : Nat) (f : Cmd → Cmd) : (s.modCmd k f).check = s.check := rfl
@[simp] theorem State.modCmd_ctrs (k : Nat) (f : Cmd → Cmd) : (s.modCmd k f).ctrs = s.ctrs := rfl
@[simp] theorem State.modCmd_folds (k : Nat) (f : Cmd → Cmd) : (s.modCmd k f).folds = s.folds := rfl
@[simp] theorem State.modCmd_pavLogs (k : Nat) (f : Cmd → Cmd) : (s.modCmd k f).pavLogs = s.pavLogs := rfl
@[simp] theorem State.modCmd_modLog (k : Nat) (f : Cmd → Cmd) : (s.modCmd k f).modLog = s.modLog := rfl
@[simp] theorem State.modCmd_idleWait (k : Nat) (f : Cmd → Cmd) : (s.modCmd k f).idleWait = s.idleWait := rfl

/-! ### emit -/

@[simp] theorem State.emit_pending (e : Emission) : (s.emit e).pending = s.pending := rfl
@[simp] theorem State.emit_freeCtr (e : Emission) : (s.emit e).freeCtr = s.freeCtr := rfl
@[simp] theorem State.emit_time (e : Emission) : (s.emit e).time = s.time := rfl
@[simp] theorem State.emit_power (e : Emission) : (s.emit e).power = s.power := rfl
@[simp] theorem State.emit_isles (e : Emission) : (s.emit e).isles = s.isles := rfl
@[simp] theorem State.emit_boot (e : Emission) : (s.emit e).boot = s.boot := rfl
@[simp] theorem State.emit_flash (e : Emission) : (s.emit e).flash = s.flash := rfl
@[simp] theorem State.emit_ports (e : Emission) : (s.emit e).ports = s.ports := rfl
@[simp] theorem State.emit_rings (e : Emission) : (s.emit e).rings = s.rings := rfl
@[simp] theorem State.emit_cmds (e : Emission) : (s.emit e).cmds = s.cmds := rfl
@[simp] theorem State.emit_nextCmd (e : Emission) : (s.emit e).nextCmd = s.nextCmd := rfl
@[simp] theorem State.emit_beat (e : Emission) : (s.emit e).beat = s.beat := rfl
@[simp] theorem State.emit_beatAt (e : Emission) : (s.emit e).beatAt = s.beatAt := rfl
@[simp] theorem State.emit_pavs (e : Emission) : (s.emit e).pavs = s.pavs := rfl
@[simp] theorem State.emit_clusters (e : Emission) : (s.emit e).clusters = s.clusters := rfl
@[simp] theorem State.emit_cores (e : Emission) : (s.emit e).cores = s.cores := rfl
@[simp] theorem State.emit_engines (e : Emission) : (s.emit e).engines = s.engines := rfl
@[simp] theorem State.emit_stitches (e : Emission) : (s.emit e).stitches = s.stitches := rfl
@[simp] theorem State.emit_mem (e : Emission) : (s.emit e).mem = s.mem := rfl
@[simp] theorem State.emit_host0 (e : Emission) : (s.emit e).host0 = s.host0 := rfl
@[simp] theorem State.emit_host1 (e : Emission) : (s.emit e).host1 = s.host1 := rfl
@[simp] theorem State.emit_moves (e : Emission) : (s.emit e).moves = s.moves := rfl
@[simp] theorem State.emit_ledger (e : Emission) : (s.emit e).ledger = s.ledger := rfl
@[simp] theorem State.emit_links (e : Emission) : (s.emit e).links = s.links := rfl
@[simp] theorem State.emit_axes (e : Emission) : (s.emit e).axes = s.axes := rfl
@[simp] theorem State.emit_route (e : Emission) : (s.emit e).route = s.route := rfl
@[simp] theorem State.emit_check (e : Emission) : (s.emit e).check = s.check := rfl
@[simp] theorem State.emit_ctrs (e : Emission) : (s.emit e).ctrs = s.ctrs := rfl
@[simp] theorem State.emit_folds (e : Emission) : (s.emit e).folds = s.folds := rfl
@[simp] theorem State.emit_pavLogs (e : Emission) : (s.emit e).pavLogs = s.pavLogs := rfl
@[simp] theorem State.emit_modLog (e : Emission) : (s.emit e).modLog = s.modLog := rfl
@[simp] theorem State.emit_idleWait (e : Emission) : (s.emit e).idleWait = s.idleWait := rfl

/-! ### bumpFree -/

@[simp] theorem State.bumpFree_pending : (s.bumpFree).pending = s.pending := rfl
@[simp] theorem State.bumpFree_out : (s.bumpFree).out = s.out := rfl
@[simp] theorem State.bumpFree_time : (s.bumpFree).time = s.time := rfl
@[simp] theorem State.bumpFree_power : (s.bumpFree).power = s.power := rfl
@[simp] theorem State.bumpFree_isles : (s.bumpFree).isles = s.isles := rfl
@[simp] theorem State.bumpFree_boot : (s.bumpFree).boot = s.boot := rfl
@[simp] theorem State.bumpFree_flash : (s.bumpFree).flash = s.flash := rfl
@[simp] theorem State.bumpFree_ports : (s.bumpFree).ports = s.ports := rfl
@[simp] theorem State.bumpFree_rings : (s.bumpFree).rings = s.rings := rfl
@[simp] theorem State.bumpFree_cmds : (s.bumpFree).cmds = s.cmds := rfl
@[simp] theorem State.bumpFree_nextCmd : (s.bumpFree).nextCmd = s.nextCmd := rfl
@[simp] theorem State.bumpFree_beat : (s.bumpFree).beat = s.beat := rfl
@[simp] theorem State.bumpFree_beatAt : (s.bumpFree).beatAt = s.beatAt := rfl
@[simp] theorem State.bumpFree_pavs : (s.bumpFree).pavs = s.pavs := rfl
@[simp] theorem State.bumpFree_clusters : (s.bumpFree).clusters = s.clusters := rfl
@[simp] theorem State.bumpFree_cores : (s.bumpFree).cores = s.cores := rfl
@[simp] theorem State.bumpFree_engines : (s.bumpFree).engines = s.engines := rfl
@[simp] theorem State.bumpFree_stitches : (s.bumpFree).stitches = s.stitches := rfl
@[simp] theorem State.bumpFree_mem : (s.bumpFree).mem = s.mem := rfl
@[simp] theorem State.bumpFree_host0 : (s.bumpFree).host0 = s.host0 := rfl
@[simp] theorem State.bumpFree_host1 : (s.bumpFree).host1 = s.host1 := rfl
@[simp] theorem State.bumpFree_moves : (s.bumpFree).moves = s.moves := rfl
@[simp] theorem State.bumpFree_ledger : (s.bumpFree).ledger = s.ledger := rfl
@[simp] theorem State.bumpFree_links : (s.bumpFree).links = s.links := rfl
@[simp] theorem State.bumpFree_axes : (s.bumpFree).axes = s.axes := rfl
@[simp] theorem State.bumpFree_route : (s.bumpFree).route = s.route := rfl
@[simp] theorem State.bumpFree_check : (s.bumpFree).check = s.check := rfl
@[simp] theorem State.bumpFree_ctrs : (s.bumpFree).ctrs = s.ctrs := rfl
@[simp] theorem State.bumpFree_folds : (s.bumpFree).folds = s.folds := rfl
@[simp] theorem State.bumpFree_pavLogs : (s.bumpFree).pavLogs = s.pavLogs := rfl
@[simp] theorem State.bumpFree_modLog : (s.bumpFree).modLog = s.modLog := rfl
@[simp] theorem State.bumpFree_idleWait : (s.bumpFree).idleWait = s.idleWait := rfl

/-! ### count -/

@[simp] theorem State.count_pending (k n : Nat) : (s.count k n).pending = s.pending := rfl
@[simp] theorem State.count_freeCtr (k n : Nat) : (s.count k n).freeCtr = s.freeCtr := rfl
@[simp] theorem State.count_out (k n : Nat) : (s.count k n).out = s.out := rfl
@[simp] theorem State.count_time (k n : Nat) : (s.count k n).time = s.time := rfl
@[simp] theorem State.count_power (k n : Nat) : (s.count k n).power = s.power := rfl
@[simp] theorem State.count_isles (k n : Nat) : (s.count k n).isles = s.isles := rfl
@[simp] theorem State.count_boot (k n : Nat) : (s.count k n).boot = s.boot := rfl
@[simp] theorem State.count_flash (k n : Nat) : (s.count k n).flash = s.flash := rfl
@[simp] theorem State.count_ports (k n : Nat) : (s.count k n).ports = s.ports := rfl
@[simp] theorem State.count_rings (k n : Nat) : (s.count k n).rings = s.rings := rfl
@[simp] theorem State.count_cmds (k n : Nat) : (s.count k n).cmds = s.cmds := rfl
@[simp] theorem State.count_nextCmd (k n : Nat) : (s.count k n).nextCmd = s.nextCmd := rfl
@[simp] theorem State.count_beat (k n : Nat) : (s.count k n).beat = s.beat := rfl
@[simp] theorem State.count_beatAt (k n : Nat) : (s.count k n).beatAt = s.beatAt := rfl
@[simp] theorem State.count_pavs (k n : Nat) : (s.count k n).pavs = s.pavs := rfl
@[simp] theorem State.count_clusters (k n : Nat) : (s.count k n).clusters = s.clusters := rfl
@[simp] theorem State.count_cores (k n : Nat) : (s.count k n).cores = s.cores := rfl
@[simp] theorem State.count_engines (k n : Nat) : (s.count k n).engines = s.engines := rfl
@[simp] theorem State.count_stitches (k n : Nat) : (s.count k n).stitches = s.stitches := rfl
@[simp] theorem State.count_mem (k n : Nat) : (s.count k n).mem = s.mem := rfl
@[simp] theorem State.count_host0 (k n : Nat) : (s.count k n).host0 = s.host0 := rfl
@[simp] theorem State.count_host1 (k n : Nat) : (s.count k n).host1 = s.host1 := rfl
@[simp] theorem State.count_moves (k n : Nat) : (s.count k n).moves = s.moves := rfl
@[simp] theorem State.count_ledger (k n : Nat) : (s.count k n).ledger = s.ledger := rfl
@[simp] theorem State.count_links (k n : Nat) : (s.count k n).links = s.links := rfl
@[simp] theorem State.count_axes (k n : Nat) : (s.count k n).axes = s.axes := rfl
@[simp] theorem State.count_route (k n : Nat) : (s.count k n).route = s.route := rfl
@[simp] theorem State.count_check (k n : Nat) : (s.count k n).check = s.check := rfl
@[simp] theorem State.count_folds (k n : Nat) : (s.count k n).folds = s.folds := rfl
@[simp] theorem State.count_pavLogs (k n : Nat) : (s.count k n).pavLogs = s.pavLogs := rfl
@[simp] theorem State.count_modLog (k n : Nat) : (s.count k n).modLog = s.modLog := rfl
@[simp] theorem State.count_idleWait (k n : Nat) : (s.count k n).idleWait = s.idleWait := rfl

/-! ### The unit that is read back -/

@[simp] theorem State.modRing_self (k : Nat) (f : RingSet → RingSet) : (s.modRing k f).ring k = f (s.ring k) := by
  simp [State.modRing, State.ring]
@[simp] theorem State.modRing_ne {k j : Nat} (f : RingSet → RingSet) (h : j ≠ k) : (s.modRing k f).ring j = s.ring j := by
  simp [State.modRing, State.ring, h]
@[simp] theorem State.modPort_ring (k : Nat) (f : PortSt → PortSt) (i : Nat) : (s.modPort k f).ring i = s.ring i := rfl
@[simp] theorem State.modPav_ring (k : Nat) (f : Pav → Pav) (i : Nat) : (s.modPav k f).ring i = s.ring i := rfl
@[simp] theorem State.modCluster_ring (k : Nat) (f : Cluster → Cluster) (i : Nat) : (s.modCluster k f).ring i = s.ring i := rfl
@[simp] theorem State.modCore_ring (k : Nat) (f : Core → Core) (i : Nat) : (s.modCore k f).ring i = s.ring i := rfl
@[simp] theorem State.modEngine_ring (k : Nat) (f : Engine → Engine) (i : Nat) : (s.modEngine k f).ring i = s.ring i := rfl
@[simp] theorem State.modLink_ring (k : Nat) (f : Link → Link) (i : Nat) : (s.modLink k f).ring i = s.ring i := rfl
@[simp] theorem State.modAxis_ring (k : Nat) (f : Axis → Axis) (i : Nat) : (s.modAxis k f).ring i = s.ring i := rfl
@[simp] theorem State.modIsle_ring (k : Nat) (f : Isle → Isle) (i : Nat) : (s.modIsle k f).ring i = s.ring i := rfl
@[simp] theorem State.modBoot_ring (f : BootSt → BootSt) (i : Nat) : (s.modBoot f).ring i = s.ring i := rfl
@[simp] theorem State.modBootPort_ring (k : Nat) (f : BootPort → BootPort) (i : Nat) : (s.modBootPort k f).ring i = s.ring i := rfl
@[simp] theorem State.modMbox_ring (k : Nat) (f : Mbox → Mbox) (i : Nat) : (s.modMbox k f).ring i = s.ring i := rfl
@[simp] theorem State.modPower_ring (f : PowerSt → PowerSt) (i : Nat) : (s.modPower f).ring i = s.ring i := rfl
@[simp] theorem State.modMem_ring (f : MemSt → MemSt) (i : Nat) : (s.modMem f).ring i = s.ring i := rfl
@[simp] theorem State.modRoute_ring (f : RouteSt → RouteSt) (i : Nat) : (s.modRoute f).ring i = s.ring i := rfl
@[simp] theorem State.modCheck_ring (f : CheckSt → CheckSt) (i : Nat) : (s.modCheck f).ring i = s.ring i := rfl
@[simp] theorem State.modTime_ring (f : TimeSt → TimeSt) (i : Nat) : (s.modTime f).ring i = s.ring i := rfl
@[simp] theorem State.modLedger_ring (f : Ledger → Ledger) (i : Nat) : (s.modLedger f).ring i = s.ring i := rfl
@[simp] theorem State.modFlash_ring (f : Flash → Flash) (i : Nat) : (s.modFlash f).ring i = s.ring i := rfl
@[simp] theorem State.modCmd_ring (k : Nat) (f : Cmd → Cmd) (i : Nat) : (s.modCmd k f).ring i = s.ring i := rfl
@[simp] theorem State.emit_ring (e : Emission) (i : Nat) : (s.emit e).ring i = s.ring i := rfl
@[simp] theorem State.bumpFree_ring (i : Nat) : (s.bumpFree).ring i = s.ring i := rfl
@[simp] theorem State.count_ring (k n : Nat) (i : Nat) : (s.count k n).ring i = s.ring i := rfl
@[simp] theorem State.modPort_self (k : Nat) (f : PortSt → PortSt) : (s.modPort k f).port k = f (s.port k) := by
  simp [State.modPort, State.port]
@[simp] theorem State.modPort_ne {k j : Nat} (f : PortSt → PortSt) (h : j ≠ k) : (s.modPort k f).port j = s.port j := by
  simp [State.modPort, State.port, h]
@[simp] theorem State.modRing_port (k : Nat) (f : RingSet → RingSet) (i : Nat) : (s.modRing k f).port i = s.port i := rfl
@[simp] theorem State.modPav_port (k : Nat) (f : Pav → Pav) (i : Nat) : (s.modPav k f).port i = s.port i := rfl
@[simp] theorem State.modCluster_port (k : Nat) (f : Cluster → Cluster) (i : Nat) : (s.modCluster k f).port i = s.port i := rfl
@[simp] theorem State.modCore_port (k : Nat) (f : Core → Core) (i : Nat) : (s.modCore k f).port i = s.port i := rfl
@[simp] theorem State.modEngine_port (k : Nat) (f : Engine → Engine) (i : Nat) : (s.modEngine k f).port i = s.port i := rfl
@[simp] theorem State.modLink_port (k : Nat) (f : Link → Link) (i : Nat) : (s.modLink k f).port i = s.port i := rfl
@[simp] theorem State.modAxis_port (k : Nat) (f : Axis → Axis) (i : Nat) : (s.modAxis k f).port i = s.port i := rfl
@[simp] theorem State.modIsle_port (k : Nat) (f : Isle → Isle) (i : Nat) : (s.modIsle k f).port i = s.port i := rfl
@[simp] theorem State.modBoot_port (f : BootSt → BootSt) (i : Nat) : (s.modBoot f).port i = s.port i := rfl
@[simp] theorem State.modBootPort_port (k : Nat) (f : BootPort → BootPort) (i : Nat) : (s.modBootPort k f).port i = s.port i := rfl
@[simp] theorem State.modMbox_port (k : Nat) (f : Mbox → Mbox) (i : Nat) : (s.modMbox k f).port i = s.port i := rfl
@[simp] theorem State.modPower_port (f : PowerSt → PowerSt) (i : Nat) : (s.modPower f).port i = s.port i := rfl
@[simp] theorem State.modMem_port (f : MemSt → MemSt) (i : Nat) : (s.modMem f).port i = s.port i := rfl
@[simp] theorem State.modRoute_port (f : RouteSt → RouteSt) (i : Nat) : (s.modRoute f).port i = s.port i := rfl
@[simp] theorem State.modCheck_port (f : CheckSt → CheckSt) (i : Nat) : (s.modCheck f).port i = s.port i := rfl
@[simp] theorem State.modTime_port (f : TimeSt → TimeSt) (i : Nat) : (s.modTime f).port i = s.port i := rfl
@[simp] theorem State.modLedger_port (f : Ledger → Ledger) (i : Nat) : (s.modLedger f).port i = s.port i := rfl
@[simp] theorem State.modFlash_port (f : Flash → Flash) (i : Nat) : (s.modFlash f).port i = s.port i := rfl
@[simp] theorem State.modCmd_port (k : Nat) (f : Cmd → Cmd) (i : Nat) : (s.modCmd k f).port i = s.port i := rfl
@[simp] theorem State.emit_port (e : Emission) (i : Nat) : (s.emit e).port i = s.port i := rfl
@[simp] theorem State.bumpFree_port (i : Nat) : (s.bumpFree).port i = s.port i := rfl
@[simp] theorem State.count_port (k n : Nat) (i : Nat) : (s.count k n).port i = s.port i := rfl
@[simp] theorem State.modCluster_self (k : Nat) (f : Cluster → Cluster) : (s.modCluster k f).cluster k = f (s.cluster k) := by
  simp [State.modCluster, State.cluster]
@[simp] theorem State.modCluster_ne {k j : Nat} (f : Cluster → Cluster) (h : j ≠ k) : (s.modCluster k f).cluster j = s.cluster j := by
  simp [State.modCluster, State.cluster, h]
@[simp] theorem State.modRing_cluster (k : Nat) (f : RingSet → RingSet) (i : Nat) : (s.modRing k f).cluster i = s.cluster i := rfl
@[simp] theorem State.modPort_cluster (k : Nat) (f : PortSt → PortSt) (i : Nat) : (s.modPort k f).cluster i = s.cluster i := rfl
@[simp] theorem State.modPav_cluster (k : Nat) (f : Pav → Pav) (i : Nat) : (s.modPav k f).cluster i = s.cluster i := rfl
@[simp] theorem State.modCore_cluster (k : Nat) (f : Core → Core) (i : Nat) : (s.modCore k f).cluster i = s.cluster i := rfl
@[simp] theorem State.modEngine_cluster (k : Nat) (f : Engine → Engine) (i : Nat) : (s.modEngine k f).cluster i = s.cluster i := rfl
@[simp] theorem State.modLink_cluster (k : Nat) (f : Link → Link) (i : Nat) : (s.modLink k f).cluster i = s.cluster i := rfl
@[simp] theorem State.modAxis_cluster (k : Nat) (f : Axis → Axis) (i : Nat) : (s.modAxis k f).cluster i = s.cluster i := rfl
@[simp] theorem State.modIsle_cluster (k : Nat) (f : Isle → Isle) (i : Nat) : (s.modIsle k f).cluster i = s.cluster i := rfl
@[simp] theorem State.modBoot_cluster (f : BootSt → BootSt) (i : Nat) : (s.modBoot f).cluster i = s.cluster i := rfl
@[simp] theorem State.modBootPort_cluster (k : Nat) (f : BootPort → BootPort) (i : Nat) : (s.modBootPort k f).cluster i = s.cluster i := rfl
@[simp] theorem State.modMbox_cluster (k : Nat) (f : Mbox → Mbox) (i : Nat) : (s.modMbox k f).cluster i = s.cluster i := rfl
@[simp] theorem State.modPower_cluster (f : PowerSt → PowerSt) (i : Nat) : (s.modPower f).cluster i = s.cluster i := rfl
@[simp] theorem State.modMem_cluster (f : MemSt → MemSt) (i : Nat) : (s.modMem f).cluster i = s.cluster i := rfl
@[simp] theorem State.modRoute_cluster (f : RouteSt → RouteSt) (i : Nat) : (s.modRoute f).cluster i = s.cluster i := rfl
@[simp] theorem State.modCheck_cluster (f : CheckSt → CheckSt) (i : Nat) : (s.modCheck f).cluster i = s.cluster i := rfl
@[simp] theorem State.modTime_cluster (f : TimeSt → TimeSt) (i : Nat) : (s.modTime f).cluster i = s.cluster i := rfl
@[simp] theorem State.modLedger_cluster (f : Ledger → Ledger) (i : Nat) : (s.modLedger f).cluster i = s.cluster i := rfl
@[simp] theorem State.modFlash_cluster (f : Flash → Flash) (i : Nat) : (s.modFlash f).cluster i = s.cluster i := rfl
@[simp] theorem State.modCmd_cluster (k : Nat) (f : Cmd → Cmd) (i : Nat) : (s.modCmd k f).cluster i = s.cluster i := rfl
@[simp] theorem State.emit_cluster (e : Emission) (i : Nat) : (s.emit e).cluster i = s.cluster i := rfl
@[simp] theorem State.bumpFree_cluster (i : Nat) : (s.bumpFree).cluster i = s.cluster i := rfl
@[simp] theorem State.count_cluster (k n : Nat) (i : Nat) : (s.count k n).cluster i = s.cluster i := rfl
@[simp] theorem State.modCore_self (k : Nat) (f : Core → Core) : (s.modCore k f).core k = f (s.core k) := by
  simp [State.modCore, State.core]
@[simp] theorem State.modCore_ne {k j : Nat} (f : Core → Core) (h : j ≠ k) : (s.modCore k f).core j = s.core j := by
  simp [State.modCore, State.core, h]
@[simp] theorem State.modRing_core (k : Nat) (f : RingSet → RingSet) (i : Nat) : (s.modRing k f).core i = s.core i := rfl
@[simp] theorem State.modPort_core (k : Nat) (f : PortSt → PortSt) (i : Nat) : (s.modPort k f).core i = s.core i := rfl
@[simp] theorem State.modPav_core (k : Nat) (f : Pav → Pav) (i : Nat) : (s.modPav k f).core i = s.core i := rfl
@[simp] theorem State.modCluster_core (k : Nat) (f : Cluster → Cluster) (i : Nat) : (s.modCluster k f).core i = s.core i := rfl
@[simp] theorem State.modEngine_core (k : Nat) (f : Engine → Engine) (i : Nat) : (s.modEngine k f).core i = s.core i := rfl
@[simp] theorem State.modLink_core (k : Nat) (f : Link → Link) (i : Nat) : (s.modLink k f).core i = s.core i := rfl
@[simp] theorem State.modAxis_core (k : Nat) (f : Axis → Axis) (i : Nat) : (s.modAxis k f).core i = s.core i := rfl
@[simp] theorem State.modIsle_core (k : Nat) (f : Isle → Isle) (i : Nat) : (s.modIsle k f).core i = s.core i := rfl
@[simp] theorem State.modBoot_core (f : BootSt → BootSt) (i : Nat) : (s.modBoot f).core i = s.core i := rfl
@[simp] theorem State.modBootPort_core (k : Nat) (f : BootPort → BootPort) (i : Nat) : (s.modBootPort k f).core i = s.core i := rfl
@[simp] theorem State.modMbox_core (k : Nat) (f : Mbox → Mbox) (i : Nat) : (s.modMbox k f).core i = s.core i := rfl
@[simp] theorem State.modPower_core (f : PowerSt → PowerSt) (i : Nat) : (s.modPower f).core i = s.core i := rfl
@[simp] theorem State.modMem_core (f : MemSt → MemSt) (i : Nat) : (s.modMem f).core i = s.core i := rfl
@[simp] theorem State.modRoute_core (f : RouteSt → RouteSt) (i : Nat) : (s.modRoute f).core i = s.core i := rfl
@[simp] theorem State.modCheck_core (f : CheckSt → CheckSt) (i : Nat) : (s.modCheck f).core i = s.core i := rfl
@[simp] theorem State.modTime_core (f : TimeSt → TimeSt) (i : Nat) : (s.modTime f).core i = s.core i := rfl
@[simp] theorem State.modLedger_core (f : Ledger → Ledger) (i : Nat) : (s.modLedger f).core i = s.core i := rfl
@[simp] theorem State.modFlash_core (f : Flash → Flash) (i : Nat) : (s.modFlash f).core i = s.core i := rfl
@[simp] theorem State.modCmd_core (k : Nat) (f : Cmd → Cmd) (i : Nat) : (s.modCmd k f).core i = s.core i := rfl
@[simp] theorem State.emit_core (e : Emission) (i : Nat) : (s.emit e).core i = s.core i := rfl
@[simp] theorem State.bumpFree_core (i : Nat) : (s.bumpFree).core i = s.core i := rfl
@[simp] theorem State.count_core (k n : Nat) (i : Nat) : (s.count k n).core i = s.core i := rfl
@[simp] theorem State.modEngine_self (k : Nat) (f : Engine → Engine) : (s.modEngine k f).engine k = f (s.engine k) := by
  simp [State.modEngine, State.engine]
@[simp] theorem State.modEngine_ne {k j : Nat} (f : Engine → Engine) (h : j ≠ k) : (s.modEngine k f).engine j = s.engine j := by
  simp [State.modEngine, State.engine, h]
@[simp] theorem State.modRing_engine (k : Nat) (f : RingSet → RingSet) (i : Nat) : (s.modRing k f).engine i = s.engine i := rfl
@[simp] theorem State.modPort_engine (k : Nat) (f : PortSt → PortSt) (i : Nat) : (s.modPort k f).engine i = s.engine i := rfl
@[simp] theorem State.modPav_engine (k : Nat) (f : Pav → Pav) (i : Nat) : (s.modPav k f).engine i = s.engine i := rfl
@[simp] theorem State.modCluster_engine (k : Nat) (f : Cluster → Cluster) (i : Nat) : (s.modCluster k f).engine i = s.engine i := rfl
@[simp] theorem State.modCore_engine (k : Nat) (f : Core → Core) (i : Nat) : (s.modCore k f).engine i = s.engine i := rfl
@[simp] theorem State.modLink_engine (k : Nat) (f : Link → Link) (i : Nat) : (s.modLink k f).engine i = s.engine i := rfl
@[simp] theorem State.modAxis_engine (k : Nat) (f : Axis → Axis) (i : Nat) : (s.modAxis k f).engine i = s.engine i := rfl
@[simp] theorem State.modIsle_engine (k : Nat) (f : Isle → Isle) (i : Nat) : (s.modIsle k f).engine i = s.engine i := rfl
@[simp] theorem State.modBoot_engine (f : BootSt → BootSt) (i : Nat) : (s.modBoot f).engine i = s.engine i := rfl
@[simp] theorem State.modBootPort_engine (k : Nat) (f : BootPort → BootPort) (i : Nat) : (s.modBootPort k f).engine i = s.engine i := rfl
@[simp] theorem State.modMbox_engine (k : Nat) (f : Mbox → Mbox) (i : Nat) : (s.modMbox k f).engine i = s.engine i := rfl
@[simp] theorem State.modPower_engine (f : PowerSt → PowerSt) (i : Nat) : (s.modPower f).engine i = s.engine i := rfl
@[simp] theorem State.modMem_engine (f : MemSt → MemSt) (i : Nat) : (s.modMem f).engine i = s.engine i := rfl
@[simp] theorem State.modRoute_engine (f : RouteSt → RouteSt) (i : Nat) : (s.modRoute f).engine i = s.engine i := rfl
@[simp] theorem State.modCheck_engine (f : CheckSt → CheckSt) (i : Nat) : (s.modCheck f).engine i = s.engine i := rfl
@[simp] theorem State.modTime_engine (f : TimeSt → TimeSt) (i : Nat) : (s.modTime f).engine i = s.engine i := rfl
@[simp] theorem State.modLedger_engine (f : Ledger → Ledger) (i : Nat) : (s.modLedger f).engine i = s.engine i := rfl
@[simp] theorem State.modFlash_engine (f : Flash → Flash) (i : Nat) : (s.modFlash f).engine i = s.engine i := rfl
@[simp] theorem State.modCmd_engine (k : Nat) (f : Cmd → Cmd) (i : Nat) : (s.modCmd k f).engine i = s.engine i := rfl
@[simp] theorem State.emit_engine (e : Emission) (i : Nat) : (s.emit e).engine i = s.engine i := rfl
@[simp] theorem State.bumpFree_engine (i : Nat) : (s.bumpFree).engine i = s.engine i := rfl
@[simp] theorem State.count_engine (k n : Nat) (i : Nat) : (s.count k n).engine i = s.engine i := rfl
@[simp] theorem State.modLink_self (k : Nat) (f : Link → Link) : (s.modLink k f).link k = f (s.link k) := by
  simp [State.modLink, State.link]
@[simp] theorem State.modLink_ne {k j : Nat} (f : Link → Link) (h : j ≠ k) : (s.modLink k f).link j = s.link j := by
  simp [State.modLink, State.link, h]
@[simp] theorem State.modRing_link (k : Nat) (f : RingSet → RingSet) (i : Nat) : (s.modRing k f).link i = s.link i := rfl
@[simp] theorem State.modPort_link (k : Nat) (f : PortSt → PortSt) (i : Nat) : (s.modPort k f).link i = s.link i := rfl
@[simp] theorem State.modPav_link (k : Nat) (f : Pav → Pav) (i : Nat) : (s.modPav k f).link i = s.link i := rfl
@[simp] theorem State.modCluster_link (k : Nat) (f : Cluster → Cluster) (i : Nat) : (s.modCluster k f).link i = s.link i := rfl
@[simp] theorem State.modCore_link (k : Nat) (f : Core → Core) (i : Nat) : (s.modCore k f).link i = s.link i := rfl
@[simp] theorem State.modEngine_link (k : Nat) (f : Engine → Engine) (i : Nat) : (s.modEngine k f).link i = s.link i := rfl
@[simp] theorem State.modAxis_link (k : Nat) (f : Axis → Axis) (i : Nat) : (s.modAxis k f).link i = s.link i := rfl
@[simp] theorem State.modIsle_link (k : Nat) (f : Isle → Isle) (i : Nat) : (s.modIsle k f).link i = s.link i := rfl
@[simp] theorem State.modBoot_link (f : BootSt → BootSt) (i : Nat) : (s.modBoot f).link i = s.link i := rfl
@[simp] theorem State.modBootPort_link (k : Nat) (f : BootPort → BootPort) (i : Nat) : (s.modBootPort k f).link i = s.link i := rfl
@[simp] theorem State.modMbox_link (k : Nat) (f : Mbox → Mbox) (i : Nat) : (s.modMbox k f).link i = s.link i := rfl
@[simp] theorem State.modPower_link (f : PowerSt → PowerSt) (i : Nat) : (s.modPower f).link i = s.link i := rfl
@[simp] theorem State.modMem_link (f : MemSt → MemSt) (i : Nat) : (s.modMem f).link i = s.link i := rfl
@[simp] theorem State.modRoute_link (f : RouteSt → RouteSt) (i : Nat) : (s.modRoute f).link i = s.link i := rfl
@[simp] theorem State.modCheck_link (f : CheckSt → CheckSt) (i : Nat) : (s.modCheck f).link i = s.link i := rfl
@[simp] theorem State.modTime_link (f : TimeSt → TimeSt) (i : Nat) : (s.modTime f).link i = s.link i := rfl
@[simp] theorem State.modLedger_link (f : Ledger → Ledger) (i : Nat) : (s.modLedger f).link i = s.link i := rfl
@[simp] theorem State.modFlash_link (f : Flash → Flash) (i : Nat) : (s.modFlash f).link i = s.link i := rfl
@[simp] theorem State.modCmd_link (k : Nat) (f : Cmd → Cmd) (i : Nat) : (s.modCmd k f).link i = s.link i := rfl
@[simp] theorem State.emit_link (e : Emission) (i : Nat) : (s.emit e).link i = s.link i := rfl
@[simp] theorem State.bumpFree_link (i : Nat) : (s.bumpFree).link i = s.link i := rfl
@[simp] theorem State.count_link (k n : Nat) (i : Nat) : (s.count k n).link i = s.link i := rfl
@[simp] theorem State.modAxis_self (k : Nat) (f : Axis → Axis) : (s.modAxis k f).axis k = f (s.axis k) := by
  simp [State.modAxis, State.axis]
@[simp] theorem State.modAxis_ne {k j : Nat} (f : Axis → Axis) (h : j ≠ k) : (s.modAxis k f).axis j = s.axis j := by
  simp [State.modAxis, State.axis, h]
@[simp] theorem State.modRing_axis (k : Nat) (f : RingSet → RingSet) (i : Nat) : (s.modRing k f).axis i = s.axis i := rfl
@[simp] theorem State.modPort_axis (k : Nat) (f : PortSt → PortSt) (i : Nat) : (s.modPort k f).axis i = s.axis i := rfl
@[simp] theorem State.modPav_axis (k : Nat) (f : Pav → Pav) (i : Nat) : (s.modPav k f).axis i = s.axis i := rfl
@[simp] theorem State.modCluster_axis (k : Nat) (f : Cluster → Cluster) (i : Nat) : (s.modCluster k f).axis i = s.axis i := rfl
@[simp] theorem State.modCore_axis (k : Nat) (f : Core → Core) (i : Nat) : (s.modCore k f).axis i = s.axis i := rfl
@[simp] theorem State.modEngine_axis (k : Nat) (f : Engine → Engine) (i : Nat) : (s.modEngine k f).axis i = s.axis i := rfl
@[simp] theorem State.modLink_axis (k : Nat) (f : Link → Link) (i : Nat) : (s.modLink k f).axis i = s.axis i := rfl
@[simp] theorem State.modIsle_axis (k : Nat) (f : Isle → Isle) (i : Nat) : (s.modIsle k f).axis i = s.axis i := rfl
@[simp] theorem State.modBoot_axis (f : BootSt → BootSt) (i : Nat) : (s.modBoot f).axis i = s.axis i := rfl
@[simp] theorem State.modBootPort_axis (k : Nat) (f : BootPort → BootPort) (i : Nat) : (s.modBootPort k f).axis i = s.axis i := rfl
@[simp] theorem State.modMbox_axis (k : Nat) (f : Mbox → Mbox) (i : Nat) : (s.modMbox k f).axis i = s.axis i := rfl
@[simp] theorem State.modPower_axis (f : PowerSt → PowerSt) (i : Nat) : (s.modPower f).axis i = s.axis i := rfl
@[simp] theorem State.modMem_axis (f : MemSt → MemSt) (i : Nat) : (s.modMem f).axis i = s.axis i := rfl
@[simp] theorem State.modRoute_axis (f : RouteSt → RouteSt) (i : Nat) : (s.modRoute f).axis i = s.axis i := rfl
@[simp] theorem State.modCheck_axis (f : CheckSt → CheckSt) (i : Nat) : (s.modCheck f).axis i = s.axis i := rfl
@[simp] theorem State.modTime_axis (f : TimeSt → TimeSt) (i : Nat) : (s.modTime f).axis i = s.axis i := rfl
@[simp] theorem State.modLedger_axis (f : Ledger → Ledger) (i : Nat) : (s.modLedger f).axis i = s.axis i := rfl
@[simp] theorem State.modFlash_axis (f : Flash → Flash) (i : Nat) : (s.modFlash f).axis i = s.axis i := rfl
@[simp] theorem State.modCmd_axis (k : Nat) (f : Cmd → Cmd) (i : Nat) : (s.modCmd k f).axis i = s.axis i := rfl
@[simp] theorem State.emit_axis (e : Emission) (i : Nat) : (s.emit e).axis i = s.axis i := rfl
@[simp] theorem State.bumpFree_axis (i : Nat) : (s.bumpFree).axis i = s.axis i := rfl
@[simp] theorem State.count_axis (k n : Nat) (i : Nat) : (s.count k n).axis i = s.axis i := rfl
@[simp] theorem State.modIsle_self (k : Nat) (f : Isle → Isle) : (s.modIsle k f).isle k = f (s.isle k) := by
  simp [State.modIsle, State.isle]
@[simp] theorem State.modIsle_ne {k j : Nat} (f : Isle → Isle) (h : j ≠ k) : (s.modIsle k f).isle j = s.isle j := by
  simp [State.modIsle, State.isle, h]
@[simp] theorem State.modRing_isle (k : Nat) (f : RingSet → RingSet) (i : Nat) : (s.modRing k f).isle i = s.isle i := rfl
@[simp] theorem State.modPort_isle (k : Nat) (f : PortSt → PortSt) (i : Nat) : (s.modPort k f).isle i = s.isle i := rfl
@[simp] theorem State.modPav_isle (k : Nat) (f : Pav → Pav) (i : Nat) : (s.modPav k f).isle i = s.isle i := rfl
@[simp] theorem State.modCluster_isle (k : Nat) (f : Cluster → Cluster) (i : Nat) : (s.modCluster k f).isle i = s.isle i := rfl
@[simp] theorem State.modCore_isle (k : Nat) (f : Core → Core) (i : Nat) : (s.modCore k f).isle i = s.isle i := rfl
@[simp] theorem State.modEngine_isle (k : Nat) (f : Engine → Engine) (i : Nat) : (s.modEngine k f).isle i = s.isle i := rfl
@[simp] theorem State.modLink_isle (k : Nat) (f : Link → Link) (i : Nat) : (s.modLink k f).isle i = s.isle i := rfl
@[simp] theorem State.modAxis_isle (k : Nat) (f : Axis → Axis) (i : Nat) : (s.modAxis k f).isle i = s.isle i := rfl
@[simp] theorem State.modBoot_isle (f : BootSt → BootSt) (i : Nat) : (s.modBoot f).isle i = s.isle i := rfl
@[simp] theorem State.modBootPort_isle (k : Nat) (f : BootPort → BootPort) (i : Nat) : (s.modBootPort k f).isle i = s.isle i := rfl
@[simp] theorem State.modMbox_isle (k : Nat) (f : Mbox → Mbox) (i : Nat) : (s.modMbox k f).isle i = s.isle i := rfl
@[simp] theorem State.modPower_isle (f : PowerSt → PowerSt) (i : Nat) : (s.modPower f).isle i = s.isle i := rfl
@[simp] theorem State.modMem_isle (f : MemSt → MemSt) (i : Nat) : (s.modMem f).isle i = s.isle i := rfl
@[simp] theorem State.modRoute_isle (f : RouteSt → RouteSt) (i : Nat) : (s.modRoute f).isle i = s.isle i := rfl
@[simp] theorem State.modCheck_isle (f : CheckSt → CheckSt) (i : Nat) : (s.modCheck f).isle i = s.isle i := rfl
@[simp] theorem State.modTime_isle (f : TimeSt → TimeSt) (i : Nat) : (s.modTime f).isle i = s.isle i := rfl
@[simp] theorem State.modLedger_isle (f : Ledger → Ledger) (i : Nat) : (s.modLedger f).isle i = s.isle i := rfl
@[simp] theorem State.modFlash_isle (f : Flash → Flash) (i : Nat) : (s.modFlash f).isle i = s.isle i := rfl
@[simp] theorem State.modCmd_isle (k : Nat) (f : Cmd → Cmd) (i : Nat) : (s.modCmd k f).isle i = s.isle i := rfl
@[simp] theorem State.emit_isle (e : Emission) (i : Nat) : (s.emit e).isle i = s.isle i := rfl
@[simp] theorem State.bumpFree_isle (i : Nat) : (s.bumpFree).isle i = s.isle i := rfl
@[simp] theorem State.count_isle (k n : Nat) (i : Nat) : (s.count k n).isle i = s.isle i := rfl
@[simp] theorem State.modPav_self (k : Nat) (f : Pav → Pav) : (s.modPav k f).pav k = (s.pav k).map f := by
  unfold State.modPav State.pav
  cases h : tfind s.pavs k with
  | none => simpa using h
  | some v => simp
@[simp] theorem State.modPav_ne {k j : Nat} (f : Pav → Pav) (h : j ≠ k) : (s.modPav k f).pav j = s.pav j := by
  unfold State.modPav State.pav
  cases hv : tfind s.pavs k with
  | none => rfl
  | some v => simp [h]
@[simp] theorem State.modRing_pav (k : Nat) (f : RingSet → RingSet) (i : Nat) : (s.modRing k f).pav i = s.pav i := rfl
@[simp] theorem State.modPort_pav (k : Nat) (f : PortSt → PortSt) (i : Nat) : (s.modPort k f).pav i = s.pav i := rfl
@[simp] theorem State.modCluster_pav (k : Nat) (f : Cluster → Cluster) (i : Nat) : (s.modCluster k f).pav i = s.pav i := rfl
@[simp] theorem State.modCore_pav (k : Nat) (f : Core → Core) (i : Nat) : (s.modCore k f).pav i = s.pav i := rfl
@[simp] theorem State.modEngine_pav (k : Nat) (f : Engine → Engine) (i : Nat) : (s.modEngine k f).pav i = s.pav i := rfl
@[simp] theorem State.modLink_pav (k : Nat) (f : Link → Link) (i : Nat) : (s.modLink k f).pav i = s.pav i := rfl
@[simp] theorem State.modAxis_pav (k : Nat) (f : Axis → Axis) (i : Nat) : (s.modAxis k f).pav i = s.pav i := rfl
@[simp] theorem State.modIsle_pav (k : Nat) (f : Isle → Isle) (i : Nat) : (s.modIsle k f).pav i = s.pav i := rfl
@[simp] theorem State.modBoot_pav (f : BootSt → BootSt) (i : Nat) : (s.modBoot f).pav i = s.pav i := rfl
@[simp] theorem State.modBootPort_pav (k : Nat) (f : BootPort → BootPort) (i : Nat) : (s.modBootPort k f).pav i = s.pav i := rfl
@[simp] theorem State.modMbox_pav (k : Nat) (f : Mbox → Mbox) (i : Nat) : (s.modMbox k f).pav i = s.pav i := rfl
@[simp] theorem State.modPower_pav (f : PowerSt → PowerSt) (i : Nat) : (s.modPower f).pav i = s.pav i := rfl
@[simp] theorem State.modMem_pav (f : MemSt → MemSt) (i : Nat) : (s.modMem f).pav i = s.pav i := rfl
@[simp] theorem State.modRoute_pav (f : RouteSt → RouteSt) (i : Nat) : (s.modRoute f).pav i = s.pav i := rfl
@[simp] theorem State.modCheck_pav (f : CheckSt → CheckSt) (i : Nat) : (s.modCheck f).pav i = s.pav i := rfl
@[simp] theorem State.modTime_pav (f : TimeSt → TimeSt) (i : Nat) : (s.modTime f).pav i = s.pav i := rfl
@[simp] theorem State.modLedger_pav (f : Ledger → Ledger) (i : Nat) : (s.modLedger f).pav i = s.pav i := rfl
@[simp] theorem State.modFlash_pav (f : Flash → Flash) (i : Nat) : (s.modFlash f).pav i = s.pav i := rfl
@[simp] theorem State.modCmd_pav (k : Nat) (f : Cmd → Cmd) (i : Nat) : (s.modCmd k f).pav i = s.pav i := rfl
@[simp] theorem State.emit_pav (e : Emission) (i : Nat) : (s.emit e).pav i = s.pav i := rfl
@[simp] theorem State.bumpFree_pav (i : Nat) : (s.bumpFree).pav i = s.pav i := rfl
@[simp] theorem State.count_pav (k n : Nat) (i : Nat) : (s.count k n).pav i = s.pav i := rfl
@[simp] theorem State.modRing_cmd (k : Nat) (f : RingSet → RingSet) (i : Nat) : (s.modRing k f).cmd i = s.cmd i := rfl
@[simp] theorem State.modPort_cmd (k : Nat) (f : PortSt → PortSt) (i : Nat) : (s.modPort k f).cmd i = s.cmd i := rfl
@[simp] theorem State.modPav_cmd (k : Nat) (f : Pav → Pav) (i : Nat) : (s.modPav k f).cmd i = s.cmd i := rfl
@[simp] theorem State.modCluster_cmd (k : Nat) (f : Cluster → Cluster) (i : Nat) : (s.modCluster k f).cmd i = s.cmd i := rfl
@[simp] theorem State.modCore_cmd (k : Nat) (f : Core → Core) (i : Nat) : (s.modCore k f).cmd i = s.cmd i := rfl
@[simp] theorem State.modEngine_cmd (k : Nat) (f : Engine → Engine) (i : Nat) : (s.modEngine k f).cmd i = s.cmd i := rfl
@[simp] theorem State.modLink_cmd (k : Nat) (f : Link → Link) (i : Nat) : (s.modLink k f).cmd i = s.cmd i := rfl
@[simp] theorem State.modAxis_cmd (k : Nat) (f : Axis → Axis) (i : Nat) : (s.modAxis k f).cmd i = s.cmd i := rfl
@[simp] theorem State.modIsle_cmd (k : Nat) (f : Isle → Isle) (i : Nat) : (s.modIsle k f).cmd i = s.cmd i := rfl
@[simp] theorem State.modBoot_cmd (f : BootSt → BootSt) (i : Nat) : (s.modBoot f).cmd i = s.cmd i := rfl
@[simp] theorem State.modBootPort_cmd (k : Nat) (f : BootPort → BootPort) (i : Nat) : (s.modBootPort k f).cmd i = s.cmd i := rfl
@[simp] theorem State.modMbox_cmd (k : Nat) (f : Mbox → Mbox) (i : Nat) : (s.modMbox k f).cmd i = s.cmd i := rfl
@[simp] theorem State.modPower_cmd (f : PowerSt → PowerSt) (i : Nat) : (s.modPower f).cmd i = s.cmd i := rfl
@[simp] theorem State.modMem_cmd (f : MemSt → MemSt) (i : Nat) : (s.modMem f).cmd i = s.cmd i := rfl
@[simp] theorem State.modRoute_cmd (f : RouteSt → RouteSt) (i : Nat) : (s.modRoute f).cmd i = s.cmd i := rfl
@[simp] theorem State.modCheck_cmd (f : CheckSt → CheckSt) (i : Nat) : (s.modCheck f).cmd i = s.cmd i := rfl
@[simp] theorem State.modTime_cmd (f : TimeSt → TimeSt) (i : Nat) : (s.modTime f).cmd i = s.cmd i := rfl
@[simp] theorem State.modLedger_cmd (f : Ledger → Ledger) (i : Nat) : (s.modLedger f).cmd i = s.cmd i := rfl
@[simp] theorem State.modFlash_cmd (f : Flash → Flash) (i : Nat) : (s.modFlash f).cmd i = s.cmd i := rfl
@[simp] theorem State.emit_cmd (e : Emission) (i : Nat) : (s.emit e).cmd i = s.cmd i := rfl
@[simp] theorem State.bumpFree_cmd (i : Nat) : (s.bumpFree).cmd i = s.cmd i := rfl
@[simp] theorem State.count_cmd (k n : Nat) (i : Nat) : (s.count k n).cmd i = s.cmd i := rfl
@[simp] theorem State.modRing_now (k : Nat) (f : RingSet → RingSet) : (s.modRing k f).now = s.now := rfl
@[simp] theorem State.modRing_clock (k : Nat) (f : RingSet → RingSet) : (s.modRing k f).clock = s.clock := rfl
@[simp] theorem State.modPort_now (k : Nat) (f : PortSt → PortSt) : (s.modPort k f).now = s.now := rfl
@[simp] theorem State.modPort_clock (k : Nat) (f : PortSt → PortSt) : (s.modPort k f).clock = s.clock := rfl
@[simp] theorem State.modPav_now (k : Nat) (f : Pav → Pav) : (s.modPav k f).now = s.now := rfl
@[simp] theorem State.modPav_clock (k : Nat) (f : Pav → Pav) : (s.modPav k f).clock = s.clock := rfl
@[simp] theorem State.modCluster_now (k : Nat) (f : Cluster → Cluster) : (s.modCluster k f).now = s.now := rfl
@[simp] theorem State.modCluster_clock (k : Nat) (f : Cluster → Cluster) : (s.modCluster k f).clock = s.clock := rfl
@[simp] theorem State.modCore_now (k : Nat) (f : Core → Core) : (s.modCore k f).now = s.now := rfl
@[simp] theorem State.modCore_clock (k : Nat) (f : Core → Core) : (s.modCore k f).clock = s.clock := rfl
@[simp] theorem State.modEngine_now (k : Nat) (f : Engine → Engine) : (s.modEngine k f).now = s.now := rfl
@[simp] theorem State.modEngine_clock (k : Nat) (f : Engine → Engine) : (s.modEngine k f).clock = s.clock := rfl
@[simp] theorem State.modLink_now (k : Nat) (f : Link → Link) : (s.modLink k f).now = s.now := rfl
@[simp] theorem State.modLink_clock (k : Nat) (f : Link → Link) : (s.modLink k f).clock = s.clock := rfl
@[simp] theorem State.modAxis_now (k : Nat) (f : Axis → Axis) : (s.modAxis k f).now = s.now := rfl
@[simp] theorem State.modAxis_clock (k : Nat) (f : Axis → Axis) : (s.modAxis k f).clock = s.clock := rfl
@[simp] theorem State.modIsle_now (k : Nat) (f : Isle → Isle) : (s.modIsle k f).now = s.now := rfl
@[simp] theorem State.modIsle_clock (k : Nat) (f : Isle → Isle) : (s.modIsle k f).clock = s.clock := rfl
@[simp] theorem State.modBoot_now (f : BootSt → BootSt) : (s.modBoot f).now = s.now := rfl
@[simp] theorem State.modBoot_clock (f : BootSt → BootSt) : (s.modBoot f).clock = s.clock := rfl
@[simp] theorem State.modBootPort_now (k : Nat) (f : BootPort → BootPort) : (s.modBootPort k f).now = s.now := rfl
@[simp] theorem State.modBootPort_clock (k : Nat) (f : BootPort → BootPort) : (s.modBootPort k f).clock = s.clock := rfl
@[simp] theorem State.modMbox_now (k : Nat) (f : Mbox → Mbox) : (s.modMbox k f).now = s.now := rfl
@[simp] theorem State.modMbox_clock (k : Nat) (f : Mbox → Mbox) : (s.modMbox k f).clock = s.clock := rfl
@[simp] theorem State.modPower_now (f : PowerSt → PowerSt) : (s.modPower f).now = s.now := rfl
@[simp] theorem State.modPower_clock (f : PowerSt → PowerSt) : (s.modPower f).clock = s.clock := rfl
@[simp] theorem State.modMem_now (f : MemSt → MemSt) : (s.modMem f).now = s.now := rfl
@[simp] theorem State.modMem_clock (f : MemSt → MemSt) : (s.modMem f).clock = s.clock := rfl
@[simp] theorem State.modRoute_now (f : RouteSt → RouteSt) : (s.modRoute f).now = s.now := rfl
@[simp] theorem State.modRoute_clock (f : RouteSt → RouteSt) : (s.modRoute f).clock = s.clock := rfl
@[simp] theorem State.modCheck_now (f : CheckSt → CheckSt) : (s.modCheck f).now = s.now := rfl
@[simp] theorem State.modCheck_clock (f : CheckSt → CheckSt) : (s.modCheck f).clock = s.clock := rfl
@[simp] theorem State.modLedger_now (f : Ledger → Ledger) : (s.modLedger f).now = s.now := rfl
@[simp] theorem State.modLedger_clock (f : Ledger → Ledger) : (s.modLedger f).clock = s.clock := rfl
@[simp] theorem State.modFlash_now (f : Flash → Flash) : (s.modFlash f).now = s.now := rfl
@[simp] theorem State.modFlash_clock (f : Flash → Flash) : (s.modFlash f).clock = s.clock := rfl
@[simp] theorem State.modCmd_now (k : Nat) (f : Cmd → Cmd) : (s.modCmd k f).now = s.now := rfl
@[simp] theorem State.modCmd_clock (k : Nat) (f : Cmd → Cmd) : (s.modCmd k f).clock = s.clock := rfl
@[simp] theorem State.emit_now (e : Emission) : (s.emit e).now = s.now := rfl
@[simp] theorem State.emit_clock (e : Emission) : (s.emit e).clock = s.clock := rfl
@[simp] theorem State.bumpFree_now : (s.bumpFree).now = s.now := rfl
@[simp] theorem State.bumpFree_clock : (s.bumpFree).clock = s.clock := rfl
@[simp] theorem State.count_now (k n : Nat) : (s.count k n).now = s.now := rfl
@[simp] theorem State.count_clock (k n : Nat) : (s.count k n).clock = s.clock := rfl

end Sys2Proof.Machine
end

