-- ==== Sys2Proof/Laws/Ops.lean ====
section
/-! SUPPORT. What the shared operations can do: which fields memory, ring, event and completion operations leave, that
they keep memory in canonical form, and what the start of a command does. -/

namespace Sys2Proof.Machine

/-! ### Footprints -/

/-- The state but for what posting an event may change: memory, rings, counters and logs. -/
def State.quiet (s : State) : State := { s with mem := {}, rings := [], ctrs := [], modLog := {}, pavLogs := [] }
/-- The state but for what completing a command may change: also the outstanding commands, the pavilions, whose memory
gives back a ring set, and the host, to which the last mirror of a released ring set goes. -/
def State.still (s : State) : State :=
  { s.quiet with cmds := [], idleWait := [], pavs := [], out := [], host0 := [], host1 := [] }

theorem State.still_of_quiet {s t : State} (h : t.quiet = s.quiet) : t.still = s.still := by
  unfold State.still; rw [h]

theorem State.quiet_modMem (s : State) (f : MemSt → MemSt) : (s.modMem f).quiet = s.quiet := rfl
theorem State.quiet_modRing (s : State) (k : Nat) (f : RingSet → RingSet) : (s.modRing k f).quiet = s.quiet := rfl
theorem State.quiet_count (s : State) (k n : Nat) : (s.count k n).quiet = s.quiet := rfl
theorem State.quiet_writeMem (s : State) (a : Nat) (l : List Byte) : (s.writeMem a l).quiet = s.quiet := by
  unfold State.writeMem; split <;> rfl
theorem State.quiet_zeroMem (s : State) (a n : Nat) : (s.zeroMem a n).quiet = s.quiet := rfl

theorem State.quiet_ringEvent (s : State) (k : Nat) (e : Event) : (s.ringEvent k e).quiet = s.quiet := by
  unfold State.ringEvent
  dsimp only
  split
  · rfl
  · split
    · rfl
    · rw [State.quiet_modRing, State.quiet_writeMem]

theorem State.quiet_logEvent (s : State) (e : Event) : (s.logEvent e).quiet = s.quiet := by
  unfold State.logEvent
  dsimp only
  split <;> split <;> rfl

theorem State.quiet_postTo (s : State) (ks : List Nat) (e : Event) : (s.postTo ks e).quiet = s.quiet :=
  (forEach_keep (fun s k => State.quiet_ringEvent s k e) ks _).trans (State.quiet_logEvent s e)
theorem State.quiet_postModule (s : State) (code sev place : Nat) (d : List Byte) :
    (s.postModule code sev place d).quiet = s.quiet := State.quiet_postTo ..
theorem State.quiet_postPav (s : State) (p code sev place : Nat) (d : List Byte) :
    (s.postPav p code sev place d).quiet = s.quiet := State.quiet_postTo ..
theorem State.quiet_postRing (s : State) (k code sev : Nat) (d : List Byte) :
    (s.postRing k code sev d).quiet = s.quiet := State.quiet_postTo ..
theorem State.quiet_postOwner (s : State) (o : Option Nat) (code sev place : Nat) (d : List Byte) :
    (s.postOwner o code sev place d).quiet = s.quiet := by
  unfold State.postOwner; split
  · exact State.quiet_postPav ..
  · exact State.quiet_postModule ..

theorem State.quiet_cqWrite (s : State) (k : Nat) (n : Bool) (tag st d : Nat) (l : List Byte) :
    (s.cqWrite k n tag st d l).quiet = s.quiet := by
  unfold State.cqWrite; rw [State.quiet_modRing, State.quiet_writeMem]

theorem State.quiet_recordNotes (s : State) (c : Cmd) (l : List Nat) : (s.recordNotes c l).quiet = s.quiet :=
  forEach_keep (fun s _ => State.quiet_logEvent s _) l s

theorem State.still_modPav (s : State) (p : Nat) (f : Pav → Pav) : (s.modPav p f).still = s.still := rfl
theorem State.still_modCmd (s : State) (id : Nat) (f : Cmd → Cmd) : (s.modCmd id f).still = s.still := rfl
theorem State.still_started (s : State) (c : Cmd) : (s.started c).still = s.still := rfl

theorem State.still_finalEntry (s : State) (c : Cmd) (st d : Nat) (l : List Byte) :
    (s.finalEntry c st d l).still = s.still := by
  unfold State.finalEntry
  dsimp only
  split
  · rfl
  · rw [State.still_of_quiet (State.quiet_modRing ..), State.still_of_quiet (State.quiet_cqWrite ..)]; rfl

theorem State.still_freeRing (s : State) (k : Nat) : (s.freeRing k).still = s.still := by
  unfold State.freeRing
  dsimp only
  split <;> split <;> rfl

theorem State.still_enterCloseHold (s : State) (k : Nat) : (s.enterCloseHold k).still = s.still := rfl
theorem State.still_hostWrite (s : State) (q a : Nat) (l : List Byte) : (s.hostWrite q a l).still = s.still := by
  unfold State.hostWrite; split <;> rfl
theorem State.still_writeMirror (s : State) (k : Nat) : (s.writeMirror k).still = s.still := by
  unfold State.writeMirror; exact State.still_hostWrite ..
theorem State.still_endHold (s : State) (k : Nat) : (s.endHold k).still = s.still := by
  unfold State.endHold
  dsimp only
  split
  · rw [State.still_writeMirror]; rfl
  · rfl

theorem State.still_closeCheck (s : State) (k : Nat) : (s.closeCheck k).still = s.still := by
  unfold State.closeCheck
  dsimp only
  have hd : ∀ t : State, t.still = s.still →
      (if ((t.ring k).draining && t.outstanding k == 0) = true then ((t.enterCloseHold k).endHold k).freeRing k
        else t).still = s.still := fun t ht => by
    split
    · rw [State.still_freeRing, State.still_endHold, State.still_enterCloseHold, ht]
    · exact ht
  apply hd
  split
  · rfl
  · split
    · rw [State.still_enterCloseHold, State.still_finalEntry]
    · rfl

/-- Completing a command changes nothing but memory, its ring, the logs, the outstanding commands, the memory of the
pavilion that a freed ring set returns, and the host's mirror of a ring set that it releases. -/
theorem State.still_complete (s : State) (c : Cmd) (st d : Nat) (l : List Byte) : (s.complete c st d l).still = s.still := by
  unfold State.complete; rw [State.still_closeCheck, State.still_finalEntry]

theorem State.still_finish (s : State) (c : Cmd) (l : List Byte) (d low : Nat) : (s.finish c l d low).still = s.still := by
  unfold State.finish
  split
  · exact State.still_complete ..
  · rw [State.still_complete, State.still_of_quiet (State.quiet_recordNotes ..)]
theorem State.still_reject (s : State) (c : Cmd) (r : Rej) : (s.reject c r).still = s.still := State.still_complete ..
theorem State.still_fail (s : State) (c : Cmd) (st place low : Nat) (l : List Byte) :
    (s.fail c st place low l).still = s.still := State.still_complete ..
theorem State.still_abort (s : State) (c : Cmd) (st target : Nat) (x : Option Cmd) :
    (s.abort c st target x).still = s.still := State.still_complete ..

/-! ### The canonical form of memory (log 1) -/

/-- A state with the same memories has them in canonical form. -/
theorem State.memWf_congr {s t : State} (hm : t.mem.cells = s.mem.cells) (h0 : t.host0 = s.host0) (h1 : t.host1 = s.host1)
    (h : s.memWf = true) : t.memWf = true := by
  simpa [State.memWf, hm, h0, h1] using h

theorem State.memWf_mem {s : State} (h : s.memWf = true) : cellsWf s.mem.cells = true := by
  simp only [State.memWf, Bool.and_eq_true] at h; exact h.1.1

/-- Another device memory in canonical form. -/
theorem State.memWf_modMem {s : State} {f : MemSt → MemSt} (h : s.memWf = true) (hf : cellsWf (f s.mem).cells = true) :
    (s.modMem f).memWf = true := by
  simp only [State.memWf, Bool.and_eq_true] at h ⊢; exact ⟨⟨hf, h.1.2⟩, h.2⟩

theorem foldl_cells {f : List Host.Cell → Byte × Nat → List Host.Cell} (hf : ∀ m e, cellsWf m = true → cellsWf (f m e) = true)
    (l : List (Byte × Nat)) {m : List Host.Cell} (h : cellsWf m = true) : cellsWf (l.foldl f m) = true := by
  induction l generalizing m with
  | nil => exact h
  | cons e l ih => exact ih (hf m e h)

theorem State.memWf_writeMem {s : State} (a : Nat) (l : List Byte) (h : s.memWf = true) : (s.writeMem a l).memWf = true := by
  unfold State.writeMem
  split
  · refine State.memWf_modMem h (foldl_cells (fun m e hm => ?_) _ (State.memWf_mem h))
    split
    · exact hm
    · exact cellsWf_cellPut _ _ hm
  · exact State.memWf_modMem h (cellsWf_cellsPut _ _ (State.memWf_mem h))

theorem State.memWf_zeroMem {s : State} (a n : Nat) (h : s.memWf = true) : (s.zeroMem a n).memWf = true :=
  State.memWf_modMem h (cellsWf_cellsZero _ _ (State.memWf_mem h))

theorem State.memWf_hostWrite {s : State} (q a : Nat) (l : List Byte) (h : s.memWf = true) : (s.hostWrite q a l).memWf = true := by
  simp only [State.memWf, Bool.and_eq_true] at h
  unfold State.hostWrite
  split
  · simp [State.memWf, State.emit, h.1.1, h.2, cellsWf_cellsPut _ _ h.1.2]
  · simp [State.memWf, State.emit, h.1.1, h.1.2, cellsWf_cellsPut _ _ h.2]

theorem State.memWf_modRing {s : State} (k : Nat) (f : RingSet → RingSet) (h : s.memWf = true) : (s.modRing k f).memWf = true := h
theorem State.memWf_modPav {s : State} (p : Nat) (f : Pav → Pav) (h : s.memWf = true) : (s.modPav p f).memWf = true := h

theorem State.memWf_ringEvent {s : State} (k : Nat) (e : Event) (h : s.memWf = true) : (s.ringEvent k e).memWf = true := by
  unfold State.ringEvent
  dsimp only
  split
  · exact h
  · split
    · exact h
    · exact State.memWf_modRing _ _ (State.memWf_writeMem _ _ h)

theorem State.memWf_logEvent {s : State} (e : Event) (h : s.memWf = true) : (s.logEvent e).memWf = true := by
  unfold State.logEvent
  dsimp only
  split <;> split <;> exact h

theorem State.memWf_postTo {s : State} (ks : List Nat) (e : Event) (h : s.memWf = true) : (s.postTo ks e).memWf = true :=
  forEach_inv (P := fun s : State => s.memWf = true) (fun _ _ h => State.memWf_ringEvent _ _ h) _ _ (State.memWf_logEvent _ h)
theorem State.memWf_postModule {s : State} (code sev place : Nat) (d : List Byte) (h : s.memWf = true) :
    (s.postModule code sev place d).memWf = true := State.memWf_postTo _ _ h
theorem State.memWf_postPav {s : State} (p code sev place : Nat) (d : List Byte) (h : s.memWf = true) :
    (s.postPav p code sev place d).memWf = true := State.memWf_postTo _ _ h
theorem State.memWf_postRing {s : State} (k code sev : Nat) (d : List Byte) (h : s.memWf = true) :
    (s.postRing k code sev d).memWf = true := State.memWf_postTo _ _ h
theorem State.memWf_postOwner {s : State} (o : Option Nat) (code sev place : Nat) (d : List Byte) (h : s.memWf = true) :
    (s.postOwner o code sev place d).memWf = true := by
  unfold State.postOwner; split
  · exact State.memWf_postPav _ _ _ _ _ h
  · exact State.memWf_postModule _ _ _ _ h

theorem State.memWf_sendMsix {s : State} (q fn v : Nat) (h : s.memWf = true) : (s.sendMsix q fn v).memWf = true := by
  unfold State.sendMsix
  dsimp only
  split
  · exact h
  · split <;> exact h

theorem State.memWf_cqWrite {s : State} (k : Nat) (n : Bool) (tag st d : Nat) (l : List Byte) (h : s.memWf = true) :
    (s.cqWrite k n tag st d l).memWf = true := by
  unfold State.cqWrite; exact State.memWf_modRing _ _ (State.memWf_writeMem _ _ h)

theorem State.memWf_finalEntry {s : State} (c : Cmd) (st d : Nat) (l : List Byte) (h : s.memWf = true) :
    (s.finalEntry c st d l).memWf = true := by
  unfold State.finalEntry
  dsimp only
  split
  · exact h
  · exact State.memWf_modRing _ _ (State.memWf_cqWrite _ _ _ _ _ _ h)

theorem State.memWf_freeRing {s : State} (k : Nat) (h : s.memWf = true) : (s.freeRing k).memWf = true := by
  unfold State.freeRing
  dsimp only
  have h' : ({ s with cmds := (s.cmds.filter fun c =>
      !(c.key == k && (c.phase != .started || c.opcode == 0x0002) && !c.orphan)).map fun (c : Cmd) =>
        if c.key == k then { c with orphan := true } else c } : State).memWf = true := h
  have h2 := State.memWf_zeroMem (s.ring k).base (ringBytes + stagingBytes) h'
  split <;> split <;> first | exact h2 | exact h'

theorem State.memWf_writeMirror {s : State} (k : Nat) (h : s.memWf = true) : (s.writeMirror k).memWf = true := by
  unfold State.writeMirror; exact State.memWf_modRing _ _ (State.memWf_hostWrite _ _ _ h)
theorem State.memWf_endHold {s : State} (k : Nat) (h : s.memWf = true) : (s.endHold k).memWf = true := by
  have hr : (s.releaseHold k).memWf = true := State.memWf_modRing _ _ (State.memWf_zeroMem _ _ h)
  unfold State.endHold
  dsimp only
  split
  · exact State.memWf_writeMirror _ hr
  · exact hr

theorem State.memWf_closeCheck {s : State} (k : Nat) (h : s.memWf = true) : (s.closeCheck k).memWf = true := by
  unfold State.closeCheck
  dsimp only
  have hd : ∀ t : State, t.memWf = true →
      (if ((t.ring k).draining && t.outstanding k == 0) = true then ((t.enterCloseHold k).endHold k).freeRing k
        else t).memWf = true := fun t ht => by
    split
    · exact State.memWf_freeRing _ (State.memWf_endHold _ (State.memWf_modRing _ _ ht))
    · exact ht
  apply hd
  split
  · exact h
  · split
    · exact State.memWf_modRing _ _ (State.memWf_finalEntry _ _ _ _ h)
    · exact h

theorem State.memWf_complete {s : State} (c : Cmd) (st d : Nat) (l : List Byte) (h : s.memWf = true) :
    (s.complete c st d l).memWf = true := State.memWf_closeCheck _ (State.memWf_finalEntry _ _ _ _ h)

theorem State.memWf_finish {s : State} (c : Cmd) (l : List Byte) (d low : Nat) (h : s.memWf = true) :
    (s.finish c l d low).memWf = true := by
  unfold State.finish
  split
  · exact State.memWf_complete _ _ _ _ h
  · refine State.memWf_complete _ _ _ _ ?_
    exact forEach_inv (P := fun s : State => s.memWf = true) (fun _ _ h => State.memWf_logEvent _ h) _ _ h
theorem State.memWf_reject {s : State} (c : Cmd) (r : Rej) (h : s.memWf = true) : (s.reject c r).memWf = true :=
  State.memWf_complete _ _ _ _ h
theorem State.memWf_fail {s : State} (c : Cmd) (st place low : Nat) (l : List Byte) (h : s.memWf = true) :
    (s.fail c st place low l).memWf = true := State.memWf_complete _ _ _ _ h
theorem State.memWf_abort {s : State} (c : Cmd) (st target : Nat) (x : Option Cmd) (h : s.memWf = true) :
    (s.abort c st target x).memWf = true := State.memWf_complete _ _ _ _ h
theorem State.memWf_deferCmd {s : State} (c : Cmd) (b : Bool) (h : s.memWf = true) : (s.deferCmd c b).memWf = true := by
  unfold State.deferCmd
  dsimp only
  have h2 := State.memWf_cqWrite c.key c.notify c.tag 0x0400
    (s.cmds.filter fun x => x.phase == .deferred && x.pavilion == c.pavilion).length [] h
  generalize s.cqWrite c.key c.notify c.tag 0x0400
    (s.cmds.filter fun x => x.phase == .deferred && x.pavilion == c.pavilion).length [] = x at h2 ⊢
  exact h2

theorem State.memWf_forCmds {s : State} (f : Cmd → Bool) {g : State → Cmd → State}
    (hg : ∀ s c, s.memWf = true → (g s c).memWf = true) (h : s.memWf = true) : (s.forCmds f g).memWf = true := by
  refine forEach_inv (P := fun s : State => s.memWf = true) (fun s id hs => ?_) _ _ h
  split
  · exact hg _ _ hs
  · exact hs
theorem State.memWf_abortAll {s : State} (f : Cmd → Bool) (st target : Nat) (x : Option Cmd) (h : s.memWf = true) :
    (s.abortAll f st target x).memWf = true := State.memWf_forCmds f (fun _ _ h => State.memWf_abort _ _ _ _ h) h

theorem State.memWf_listPage {s : State} (r : RetRec) (h : s.memWf = true) : (s.listPage r).memWf = true := by
  unfold State.listPage
  dsimp only
  split
  · split
    · exact h
    · exact State.memWf_postModule _ _ _ _ h
  · exact h
theorem State.memWf_retirePage {s : State} (a cause : Nat) (h : s.memWf = true) : (s.retirePage a cause).memWf = true := by
  unfold State.retirePage
  dsimp only
  split
  · exact h
  · refine State.memWf_postOwner _ _ _ _ _ (State.memWf_listPage _ ?_)
    split <;> exact h
theorem State.memWf_corrected {s : State} (a : Nat) (h : s.memWf = true) : (s.corrected a).memWf = true := by
  unfold State.corrected
  dsimp only
  split
  · exact h
  · split
    · exact h
    · exact State.memWf_congr rfl rfl rfl (State.memWf_listPage _ h)
/-- What a read meets leaves every byte as it is. -/
theorem State.memWf_meet {s : State} (errs : MemErrors) (reads : Nat → Bool) (h : s.memWf = true) :
    (s.meet errs reads).memWf = true := by
  refine forEach_inv (P := fun s : State => s.memWf = true) (fun s e hs => ?_) _ _ h
  dsimp only
  split
  · exact hs
  · split
    · exact State.memWf_corrected _ hs
    · exact hs
theorem State.memWf_memError {s : State} (w kind : Nat) (h : s.memWf = true) : (s.memError w kind).memWf = true := by
  unfold State.memError
  exact State.memWf_postOwner _ _ _ _ _ (State.memWf_retirePage _ _ h)
theorem State.memWf_failMemory {s : State} (c : Cmd) (w : Nat) (h : s.memWf = true) : (s.failMemory c w).memWf = true :=
  State.memWf_fail _ _ _ _ _ (State.memWf_memError _ _ h)

/-! ### Device memory -/

/-- A write into pages that are not retired reads back, and leaves every other byte. -/
theorem State.writeMem_spec {s : State} (a : Nat) (l : List Byte) (h : s.memWf = true)
    (hr : (s.mem.retired.any fun p => overlaps p 4096 a l.length) = false) :
    (s.writeMem a l).readMem a l.length = l
      ∧ ∀ x, x < a ∨ a + l.length ≤ x → cellGet (s.writeMem a l).mem.cells x = cellGet s.mem.cells x := by
  have hc : (s.writeMem a l).mem.cells = cellsPut s.mem.cells a l := by simp [State.writeMem, hr, State.modMem]
  refine ⟨?_, fun x hx => ?_⟩
  · rw [State.readMem, hc]; exact cellsGet_cellsPut_self a l (State.memWf_mem h)
  · rw [hc]; exact cellGet_cellsPut_outside (State.memWf_mem h) hx

/-- A zeroed range reads as zero, and every other byte is as it was. -/
theorem State.zeroMem_spec (s : State) (a n x : Nat) :
    cellGet (s.zeroMem a n).mem.cells x = if a ≤ x ∧ x < a + n then 0 else cellGet s.mem.cells x :=
  cellGet_cellsZero s.mem.cells a n x

/-! ### The start of a command -/

/-- A due command does what its body answers. -/
theorem State.startCmd_ok {s t : State} {id op : Nat} {c : Cmd} {body : State → Cmd → Chk State} (h : s.due id op c)
    (hb : body s c = .ok t) : s.startCmd id op body = t := by
  obtain ⟨h1, h2, h3, h4, h5⟩ := h
  have hl : (if (c.phase == .deferred && !s.idleWait.contains c.serial) = true then none else s.deadlineCheck c) = none := by
    rcases h5 with h5 | h5
    · rw [if_pos h5]
    · split
      · rfl
      · exact h5
  simp only [State.startCmd, h1, h2, h3, h4, hb, bne_self_eq_false, Bool.not_true, Bool.or_self, Bool.false_eq_true, if_false]
  rw [hl]

/-- A due command whose body rejects it is deferred where the rejection and DEFER_OK allow it, and else rejected, or fails
where an uncorrectable code word stands behind the rejection. -/
theorem State.startCmd_error {s : State} {id op : Nat} {c : Cmd} {body : State → Cmd → Chk State} {r : Rej}
    (h : s.due id op c) (hb : body s c = .error r) :
    s.startCmd id op body = if (r.onCondition && s.idleWait.contains c.serial) = true then s
      else if s.defers c r = true then s.deferCmd c r.onCondition
      else match r.bad with
        | some w => s.failMemory c w
        | none => s.reject c r := by
  obtain ⟨h1, h2, h3, h4, h5⟩ := h
  have hl : (if (c.phase == .deferred && !s.idleWait.contains c.serial) = true then none else s.deadlineCheck c) = none := by
    rcases h5 with h5 | h5
    · rw [if_pos h5]
    · split
      · rfl
      · exact h5
  simp only [State.startCmd, h1, h2, h3, h4, hb, bne_self_eq_false, Bool.not_true, Bool.or_self, Bool.false_eq_true, if_false]
  rw [hl]
  cases r.bad <;> rfl

/-- A command that may not start, or that is not there, starts nothing (log 4). -/
theorem State.startCmd_idle {s : State} {id op : Nat} {body : State → Cmd → Chk State}
    (h : ∀ c, s.cmd id = some c → c.opcode ≠ op ∨ s.mayStart c = false) : s.startCmd id op body = s := by
  unfold State.startCmd
  split
  · rfl
  · next c hc =>
    rcases h c hc with h | h
    · simp [h]
    · simp [h]

/-- Memory stays in canonical form when the body keeps it. -/
theorem State.memWf_startCmd {s : State} {id op : Nat} {body : State → Cmd → Chk State}
    (hb : ∀ c t, body s c = .ok t → t.memWf = true) (h : s.memWf = true) : (s.startCmd id op body).memWf = true := by
  unfold State.startCmd
  split
  · exact h
  · next c hc =>
    split
    · exact h
    · split
      · exact State.memWf_reject _ _ h
      · dsimp only
        split
        · next t ht =>
          split
          · exact State.memWf_reject _ _ h
          · exact hb c t ht
        · split
          · exact h
          · split
            · exact State.memWf_deferCmd _ _ h
            · split
              · exact State.memWf_reject _ _ h
              · exact State.memWf_failMemory _ _ h
              · exact State.memWf_reject _ _ h

/-! ### The step -/

/-- A step never stops where no command of the block does. -/
theorem step_of_pending {s : State} {c : Instr} {l : List Instr} (h : s.pending = c :: l) :
    step s = exec c { s with pending := l } := by
  simp only [step, h]

end Sys2Proof.Machine
end

