-- ==== Sys2Proof/Tests/Slice0.lean ====
section
/-! SUPPORT. The model's own tests: ill-formed commands, and for each statement states and operands that meet the
hypotheses of its clauses, most at a boundary, with what the command then does. Expected values are worked out by hand
from the rules that the statement names. -/

namespace Sys2Proof.Tests

open Sys2Proof Sys2Proof.Machine

set_option Elab.async false

/-! ### Helpers -/

def pf0 : FnRef := { port := 0, fn := 0 }
def vf1 : FnRef := { port := 0, fn := 1 }

/-- The state that a command answers. -/
def out (i : Instr) (s : State) : State := match exec i s with
  | .next t => t
  | _ => s

/-- An open ring set at the second GiB of HBM3E, with the smallest rings. -/
def ring0 : RingSet :=
  { enable := true, ready := true, isOpen := true, eqLog2 := 6, cqLog2 := 7, sqLog2 := 6, base := gib
    staging := gib + stagingOffset }
/-- A module in stage 9 with every role up, building time at 1000, and an open session on physical function 0. -/
def up : State :=
  { boot := { stage := 9, fwRunning := true, standbyReady := true, hasIdentity := true, loaded := true }
    power := { pwrGood := true }, time := { state := 4, btime := 1000, localNs := 1000, elapsed := 1000 }, rings := [(0, ring0)]
    ports := [(0, { cfgReady := true, vfEnable := true, numVfs := 8 }), (1, { cfgReady := true })]
    clusters := (List.range 32).map fun c => (c, { inService := true }) }
/-- A command that was read, of the module as a whole. -/
def cmdOf (op : Nat) (params : List Nat) : Cmd :=
  { serial := 1, port := 0, fn := 0, slot := 0, opcode := op, tag := 5, pavilion := 0xF, target := 0, deadline := 0
    paramRef := 0, expert := false, fence := false, deferOk := false, notify := false, params := params, hot := false
    reserved := 2 }
def with_ (s : State) (c : Cmd) : State := { s with cmds := [c] }
/-- Whether the command is due. -/
def isDue (s : State) (op : Nat) (c : Cmd) : Bool := decide (s.due 1 op c)
/-- A training pavilion of cluster 0 with memory of both tiers. -/
def pav0 : Pav :=
  { role := 1, homePort := 0, partition := 7, clusters := [0], hbm := [(0, 4), (0, 5)], lpddr := [(0, 0)], dstore := [] }
def up1 : State := { up with pavs := [(0, pav0)] }

/-! ### Well-formedness -/

/-- An empty BAR2 write and one past the aperture are not well formed. -/
theorem test_wf_bar2 : Instr.wf (.bar2Write pf0 0 [] false) = false
    ∧ Instr.wf (.bar2Write pf0 0x10000000 [0] false) = false
    ∧ Instr.wf (.bar2Write pf0 0 [0] false) = true := by decide

/-! ### The queue, doorbells and ring sets -/

theorem test_step_front : step { up with pending := [.moduleBeat, .counterFoldA] }
    = exec .moduleBeat { up with pending := [.counterFoldA] } := rfl
/-- At a rate of −10⁹ ppb building time stands; at 0 it gains the nanosecond. -/
theorem test_idle : (match step { up with time := { up.time with ratePpb := -1000000000 } } with
      | .next t => t.time.btime == 1000 && t.time.localNs == 1001
      | _ => false) = true
    ∧ (match step State.reset with | .next t => t.time.btime == 0 && t.time.localNs == 1 | _ => false) = true := by
  decide +kernel

/-- R63: 63 new slots fit in a ring of 64, an index of 64 does not. -/
theorem test_sqDb : ((out (.sqDb pf0 63 .full) up).ring 0).sqTail = 63 ∧ ((out (.sqDb pf0 64 .full) up).ring 0).sqTail = 0
    ∧ (out (.sqDb pf0 64 .full) up).modLog.next = 1 := by decide +kernel
theorem test_cqDb :
    let s := up.modRing 0 fun g => { g with cqTail := 3, tags := [{ tag := 9, index := 1 }, { tag := 8, index := 2 }] }
    ((out (.cqDb pf0 2 .full) s).ring 0).tags = [{ tag := 8, index := 2 }] ∧ ((out (.cqDb pf0 3 .full) s).ring 0).tags = []
    ∧ ((out (.cqDb pf0 4 .full) s).ring 0).cqHead = 0 := by decide +kernel
theorem test_eqDb : let s := up.modRing 0 fun g => { g with eqTail := 3 }
    ((out (.eqDb pf0 3 .full) s).ring 0).eqHead = 3 ∧ ((out (.eqDb pf0 4 .full) s).ring 0).eqHead = 0
    ∧ (out (.eqDb vf1 4 .full) s) = s := by decide +kernel

/-- R65, R66: the mirror, its refresh at 99 ms and the end of a coalescing hold. -/
theorem test_mirror :
    let s := up.modRing 0 fun g => { g with dirty := true, mirrorAddr := 64, held := 1, coalUs := 1 }
    s.mirrorDue 0 = true ∧ s.memWf = true ∧ ((out (.mirrorWrite pf0) s).ring 0).mirrorSeq = 1
    ∧ ((out (.coalesceTimeout pf0) s).ring 0).held = 0
    ∧ ((out (.mirrorRefresh pf0) { (s.modRing 0 fun g => { g with dirty := false }) with
        time := { s.time with localNs := 99000000, elapsed := 99000000 } }).ring 0).mirrorSeq = 1 := by decide +kernel

/-- R57, R90: a ring set is allocated with the sizes asked for, and freed. -/
theorem test_ringset :
    let s := { up with rings := [] }
    let t := out (.ringsetCfgEnable pf0 6 7 6) s
    s.roleUp 0 = true ∧ (s.allocRing 0 0).isSome = true ∧ (t.ring 0).ready = true ∧ (t.ring 0).cqLog2 = 7
    ∧ ((out (.ringsetCfgDisable ⟨pf0, 6, 7, 6⟩) { up with rings := [(0, { ring0 with isOpen := false })] }).ring 0).enable = false := by
  decide +kernel
/-- R57, R90: the five errors, and ENABLE = 0 in an open session: with no command left the ring set goes, a started one keeps
it draining. -/
theorem test_ringsetErrors :
    let free := { up1 with rings := [] }
    let e := fun (r : FnRef) (n : BitVec 4) (s : State) => ((out (.ringsetCfgEnable r n 7 6) s).ring (fnKey r)).error
    let busy := with_ up { cmdOf 0x0103 [] with phase := .started }
    let gone := out (.ringsetCfgDisable ⟨pf0, 6, 7, 6⟩) (with_ up (cmdOf 0x0103 []))
    e pf0 6 up = 5 ∧ e pf0 6 { free with boot := { free.boot with stage := 8 } } = 2 ∧ e vf1 6 { up with rings := [] } = 3
    ∧ e pf0 5 free = 1 ∧ e vf1 6 { free with pavs := [(0, { pav0 with hbm := [] })] } = 4
    ∧ (gone.ring 0).ready = false ∧ (gone.ring 0).enable = false ∧ gone.cmds = []
    ∧ ((out (.ringsetCfgDisable ⟨pf0, 6, 7, 6⟩) busy).ring 0).draining = true := by decide +kernel

/-- R58, R59. -/
theorem test_ringOpen :
    let c := cmdOf 0x0001 [64, 0x3F3F]
    let s := (with_ up c).modRing 0 fun g => { g with isOpen := false }
    isDue s 0x0001 c = true ∧ ((out (.ringOpen 1) s).ring 0).epoch = 1 ∧ ((out (.ringOpen 1) s).ring 0).eqVector = 63
    ∧ (out (.ringOpen 1) s).cmd 1 = none := by decide +kernel
theorem test_ringClose :
    let c := cmdOf 0x0002 []
    let s := (with_ up c).modRing 0 fun g => { g with closing := some 1 }
    let two : State := { s with cmds := [c, { cmdOf 0x0103 [] with serial := 2 }] }
    ((out (.ringClose 1) s).ring 0).closeHold = true ∧ (out (.ringClose 1) s).cmd 1 = none
    ∧ (out (.ringClose 1) two).cmd 1 = some { c with phase := .started, startedAt := 1000 }
    ∧ (out (.ringClose 1) { two with cmds := [{ cmdOf 0x0002 [1] with expert := true }, { cmdOf 0x0103 [] with serial := 2 }] }).cmd 2
      = none := by decide +kernel

/-- R81, R87, R88: at 2.5 s the host is late, at 5 s it is lost. -/
theorem test_heartbeat :
    let c := cmdOf 0x0003 []
    isDue (with_ up c) 0x0003 c = true ∧ ((out (.heartbeat 1) (with_ up c)).port 0).lastBeat = 1000
    ∧ ((out (.hostHeartbeat pf0) up).port 0).lastBeat = 1000 ∧ out (.hostHeartbeat vf1) up = up := by decide +kernel
theorem test_silence :
    let s : State := { up with time := { up.time with btime := 5000000000, localNs := 5000000000, elapsed := 5000000000 }, beatAt := 4900000000 }
    2500000000 ≤ s.silence 0 ∧ ((out (.heartbeatLate 0) s).port 0).latePosted = true ∧ ((out (.hostLost 0) s).port 0).lost = true
    ∧ (out .moduleBeat s).beat = 1 := by decide +kernel

/-- R64, R73: one slot is read and its command becomes outstanding; a slot with an unknown opcode is rejected. -/
theorem test_commandRead :
    let s := up.modRing 0 fun g => { g with sqTail := 1 }
    let hb : State := s.writeMem gib (leBytes 8 (3 * 2 ^ 48 + 5 * 2 ^ 32))
    s.mayRead 0 = true ∧ s.badRead gib 256 = none ∧ ((out (.commandRead pf0) s).ring 0).sqHead = 1
    ∧ (out (.commandRead pf0) s).cmds = [] ∧ ((out (.commandRead pf0) s).ring 0).cqTail = 1
    ∧ hb.mayRead 0 = true := by decide +kernel
/-- R84: the first deferred command comes to its start at the boundary. -/
theorem test_deferred :
    let c := { cmdOf 0x0304 [0] with pavilion := 0, phase := .deferred }
    let s := with_ up1 c
    (s.dueDeferred 0) = [c] ∧ ((out (.deferredCommandStart 0) s).cmd 1) = some { c with atBoundary := true }
    ∧ ((out (.deferredCommandStart 0) (with_ up1 { c with deadline := 999 })).cmd 1) = none := by decide +kernel
/-- R71: the entry written at CQ_TAIL. -/
theorem test_completion :
    let c := cmdOf 0x0003 []
    let t := (with_ up c).complete c 0 0 []
    up.memWf = true ∧ t.readMem (gib + cqOffset) 64 = completionBytes 5 0 0 1000 [] ∧ t.cmd 1 = none := by decide +kernel

/-! ### The host's view of a function -/

/-- R461: 256 bytes at the end of the submission ring are written and read; the reserved space after it reads as 0. -/
theorem test_bar2 :
    let t := out (.bar2Write pf0 0x3FFE [7, 9] false) up
    up.live pf0 ∧ (up.ring 0).writable 0x3FFF = true ∧ (up.ring 0).writable 0x4000 = false
    ∧ up.partialBad (gib + 0x3FFE) 2 = none ∧ up.badRead gib 4 = none
    ∧ cellsGet t.mem.cells (gib + 0x3FFE) 2 = [7, 9] ∧ (out (.bar2Read pf0 0x3FFF ⟨2, []⟩) t).out = [.readData 0 0 [9, 0]] := by
  decide +kernel
theorem test_bar2_refused :
    let s := { up with rings := [] }
    (out (.bar2Write pf0 0 [1] true) up).out = [.poisonedReceived 0 0] ∧ 256 * mib < 0xFFFFFFF + [1, 2].length
    ∧ out (.bar2Write pf0 0xFFFFFFF [1, 2] false) up = up.discardWrite pf0
    ∧ s.live pf0 ∧ (s.ring 0).ready = false ∧ out (.bar2Write pf0 0 [1] false) s = s
    ∧ (out (.bar2Read pf0 0 ⟨4, []⟩) s).out = [.readData 0 0 [0, 0, 0, 0]]
    ∧ (out (.bar2Read pf0 0 ⟨4, [(gib, 3)]⟩) up).out = [.completerAbort 0 0] := by decide +kernel

/-- R461, R90, R465: halves of a register, the last word of the mailbox buffer, and the last vector. -/
theorem test_registerWrite :
    let s := up.modPort 0 fun p => { p with msixOn := [0], vecOpen := [(0, 63)], vecPending := [(0, 63)] }
    ((out (.registerWrite pf0 0x0020 0x1 .high) (out (.registerWrite pf0 0x0020 0x2 .low) up)).bootPort 0).bundleAddr
      = 0x100000002
    ∧ field ((out (.registerWrite pf0 0x1FF8 0x1122334455667788 .full) up).mbox 0).out 0xFF8 8 = 0x1122334455667788
    ∧ ((out (.registerWrite pf0 (0x18008 + 16 * 63) 0x100000000 .full) s).port 0).vecOpen = []
    ∧ ((out (.registerWrite pf0 0x3000 0x2400020001 .full) up).mbox 0).curReq = 2
    ∧ ((out (.registerWrite pf0 0x3000 0x2400020001 .full) up).mbox 0).curLen = 36
    ∧ ((out (.registerWrite pf0 0x3000 1 .full) (up.modMbox 0 fun m => { m with busy := true })).mbox 0).result = 4
    ∧ s.canSend 0 0 = true
    ∧ (out (.msixUnmask pf0 63) (s.modPort 0 fun p => { p with vecOpen := [] })).out = [.msix 0 0 63 0 0]
    ∧ ((out (.registerWrite pf0 (0x18000 + 16 * 63) 0xFEE00000 .full) s).port 0).message 0 0 63 = .msix 0 0 63 0xFEE00000 0
    ∧ ((out (.registerWrite pf0 (0x18008 + 16 * 63) 0x141 .low) s).port 0).message 0 0 63 = .msix 0 0 63 0 0x141 := by decide +kernel

/-- R459: eight virtual functions with ARI, seven without; a smaller number frees the ring set above it. -/
theorem test_vf :
    let s := { up with rings := [(0, ring0), (2, ring0)] }
    ((out (.vfEnable 0 9) up).port 0).numVfs = 8
    ∧ ((out (.vfEnable 0 9) (up.modPort 0 fun p => { p with ari := false })).port 0).numVfs = 7
    ∧ ((out (.vfDisable 0 1) s).ring 2).enable = false ∧ ((out (.vfDisable 0 1) s).ring 0).enable = true
    ∧ ((out (.vfDisable 0 0) s).port 0).vfEnable = false := by decide +kernel
theorem test_d3hot :
    let s := out (.d3hotEntry pf0) up
    (s.port 0).d3 = [0] ∧ (out (.bar2Read pf0 0 ⟨4, []⟩) s).out = [.unsupported 0 0]
    ∧ ((out (.d0Return pf0) s).port 0).d3 = [] ∧ ((out (.d0Return pf0) s).ring 0).isOpen = true
    ∧ ((out (.portConfigReady 1) up).port 1).cfgReady = true := by decide +kernel

/-- R90, R91: FRESET of an engine of cluster 0, of no unit (status 0x0107), of the scheduler core (0xFFFF); and ESTOP. -/
theorem test_freset :
    let s := { up1 with engines := [(3, { stalled := true })] }
    let st := fun x => ((out (.freset pf0 x) s).ring 0).frStatus
    s.fresetRej 0 0x4003 = none ∧ s.fresetRej 0 0xD000 = some 0x0107 ∧ st 0x4003 = 0 ∧ st 0xD000 = 0x0107
    ∧ st 0xB002 = 0xFFFF ∧ (out (.freset pf0 0x4003) s).engine 3 = {} := by decide +kernel
theorem test_estop : ((out (.estop pf0 0xE5E5) up1).pav 0).map (·.stopped) = some true
    ∧ out (.estop pf0 0xE5E4) up1 = up1 ∧ ((out (.estop vf1 0xE5E5) up1).pav 0).map (·.stopped) = some true := by
  decide +kernel

/-- R467, R414. -/
theorem test_portResets :
    let s := { up1 with rings := [(0, ring0), (1, ring0)] }
    s.present 0 1 = true ∧ ((out (.perst 0) s).ring 1).ready = false ∧ ((out (.hotReset 0) s).port 0).numVfs = 0
    ∧ ((out (.pfFlr 0) s).ring 0).ready = false ∧ ((out (.vfFlr 0 0) s).ring 1).ready = false
    ∧ ((out (.vfFlr 0 0) s).ring 0).ready = true := by decide +kernel

/-! ### Power, start and identity -/

/-- R472 to R475: the bounds of the input voltage. -/
theorem test_power :
    (out (.powerUp 39000) State.reset) = State.reset ∧ (out (.powerUp 39001) State.reset).boot.stage = 1
    ∧ (out .resetNAssert up1).pavs = [] ∧ (out .resetNAssert up1).power.resetN = false
    ∧ (out (.inputBelowStop 36999) up).boot.stage = 0 ∧ out (.inputBelowStop 37000) up = up
    ∧ (out (.inputOvervoltage 62001) up).power.overVolt = true := by decide +kernel
/-- R489: at 39,999 mV for 100 ms. -/
theorem test_evInput :
    let t := out (.evInput 39999) up
    let u := { t with time := { t.time with localNs := 100001000, elapsed := 100001000 } }
    t.power.inputBadSince = some 1000 ∧ (out (.evInput 39999) u).modLog.next = 1
    ∧ (out (.evInput 39999) t).modLog.next = 0 ∧ (out (.evInput 40000) u).power.inputBadSince = none := by decide +kernel

/-- The module in a stage of its start, loading at port 0. -/
def booting (n : Nat) : State :=
  { boot := { stage := n, hasIdentity := true, loadPort := some 0, ports := [(0, { busy := true })] }
    power := { pwrGood := true } }

/-- R28, R431: Hub W passes exactly at 200 ms; at the timeout Hub E leads. -/
theorem test_leadHub :
    let s : State := { boot := { stage := 1, hubTested := [(1, true)] }, time := { localNs := 200000000, elapsed := 200000000 } }
    (out (.hubSelftest 0 true) s).boot.leadHub = 0
    ∧ (out (.hubSelftest 0 true) { s with time := { localNs := 200000001, elapsed := 200000001 } }).boot.leadHub = 1
    ∧ (out .leadHubTimeout s).boot.leadHub = 1 ∧ (out .leadHubTimeout s).boot.stage = 2 := by decide +kernel
theorem test_identity :
    let s : State := { boot := { stage := 2 } }
    (out (.identityDerive 0 .ok) s).boot.stage = 3 ∧ (out (.identityDerive 0 .ok) s).flash.starts.count = 1
    ∧ ((out (.identityDerive 0 .keyMismatch) s).bootPort 1).error = 0x000B := by decide +kernel

/-- R439 to R442: the smallest bundle, the end of its pull, and ABANDON. -/
theorem test_load :
    let s : State := { boot := { stage := 3, hasIdentity := true, ports := [(0, { bundleAddr := 4096, bundleBytes := 256 })] } }
    let t := out (.load 0) s
    t.out = [.hostRead 0 0 4096 256] ∧ t.boot.loadPort = some 0 ∧ (t.bootPort 0).busy = true
    ∧ (out .bundlePullDone (t.modBootPort 0 fun b => { b with bytesDone := 256 })).boot.stage = 4
    ∧ ((out (.abandon 0) t).bootPort 0).error = 0x000E ∧ (out (.abandon 0) t).boot.loadPort = none := by decide +kernel
/-- R435: a bundle of 256 zeros has no good header. -/
theorem test_bundleVerify :
    let s := (booting 4).modBootPort 0 fun b => { b with bundleBytes := 256 }
    (match verifyBundle (s.readMem (dieStoreAddr 0) 256) with | .error e => e == 3 | _ => false) = true
    ∧ (out .bundleVerify s).boot.stage = 3 ∧ ((out .bundleVerify s).bootPort 0).error = 3 := by decide +kernel

/-- A bundle that keeps core 4 of each cluster as its store-only core and disables cluster 1. -/
def bundle0 : Bundle :=
  { bytes := 256, label := 0, digest := 0, images := [], capW := 6000, coreSelftest := false, rateLog2 := 12, withhold := 0
    sectionApplied := false, clusterDisable := 2, storeOnly := List.replicate 32 4 }
theorem test_stages :
    let s7 := (booting 7).modBoot fun b => { b with bundle := some bundle0 }
    let s8 := { booting 8 with axes := (List.range 3).map fun a => (a, { loopAt := some 0 }) }
    (out .powerFirmwareStart (booting 5)).boot.stage = 6
    ∧ (out (.memoryTrained 7) (booting 6)).boot.stage = 7 ∧ (out (.memoryTrained 7) (booting 6)).route.lostStacks = [0, 1, 2]
    ∧ (out (.memoryTrained 15) (booting 6)).boot.stage = 3 ∧ ((out (.memoryTrained 15) (booting 6)).bootPort 0).error = 0x000C
    ∧ (out (.configApply []) s7).power.capW = 6000 ∧ ((out (.configApply []) s7).cluster 1).inService = false
    ∧ ((out (.configApply []) s7).cluster 0).inService = true
    ∧ (out .moduleReady s8).boot.stage = 9
    ∧ ((out .startTimeout { booting 8 with time := { localNs := 90000000000, elapsed := 90000000000 } }).bootPort 0).error = 0x000D := by decide +kernel

/-- A request that GO has started, of 36 bytes with OFFSET 6. -/
def boxed (req : Nat) : State :=
  up.modMbox 0 fun m => { m with busy := true, curReq := req, curLen := 36, curOut := leBytes 4 6 }
/-- R443, R444: START_LOG at its last byte, which is STAGE. -/
theorem test_startLog :
    let s := { boxed 3 with flash := { starts := { stage := 9 } } }
    s.mboxReady 0 3 = true ∧ ((out (.mboxStartLog 0) s).mbox 0).inp = [9] ∧ ((out (.mboxStartLog 0) s).mbox 0).respLen = 1
    ∧ ((out (.mboxStartLog 0) s).mbox 0).done = true := by decide +kernel
theorem test_mailbox :
    let s := (boxed 2).modMbox 0 fun m => { m with nonce := some (slice m.curOut 4 32), report := [1, 2, 3, 4, 5, 6, 7] }
    (boxed 1).mboxReady 0 1 = true ∧ (boxed 2).mboxReady 0 2 = true ∧ (boxed 2).boot.attestBlocked = false
    ∧ ((boxed 2).mbox 0).nonce = none ∧ 6 < identityObject.length
    ∧ 6 < ((boxed 2).signedReport ((boxed 2).reportBody (slice ((boxed 2).mbox 0).curOut 4 32) none false)).length
    ∧ ((out (.mboxAttest 0) s).mbox 0).inp = [7] := by decide +kernel

/-- R446, R447: buffers in the staging area. -/
theorem test_security :
    let a := gib + stagingOffset
    let at_ := cmdOf 0x0B01 [1, 2, 3, 4, a]
    let ig := cmdOf 0x0B02 [a]
    isDue (with_ up at_) 0x0B01 at_ = true ∧ (with_ up at_).badRange 0 0 a 65536 = none
    ∧ isDue (with_ up ig) 0x0B02 ig = true ∧ identityObject.length ≤ 65536
    ∧ (up.signedReport (up.reportBody (pack [(8, 1), (8, 2), (8, 3), (8, 4)]) none false)).length ≤ 65536 := by decide +kernel
/-- R451, R452: bytes of FW_STATUS's result; a cluster control core; the lead scheduler core, core 2 of Hub W. -/
theorem test_firmware :
    let fs := cmdOf 0x0C01 []
    let fx := { cmdOf 0x0C01 [gib + stagingOffset] with expert := true }
    let cc := { cmdOf 0x0C02 [] with target := 0xB010 }
    let hub := { cmdOf 0x0C02 [] with target := 0xB002 }
    let give := { cmdOf 0x0C02 [1] with target := 0xB002, expert := true }
    isDue (with_ up fs) 0x0C01 fs = true ∧ isDue (with_ up fx) 0x0C01 fx = true
    ∧ (out (.fwStatus 1) (with_ up fs)).readMem (gib + cqOffset + 16) 5 = [9, 0, 0, 0, 0]
    ∧ (with_ up fx).badRange 0 0 (gib + stagingOffset) 256 = none ∧ (out (.fwStatus 1) (with_ up fx)).cmd 1 = none
    ∧ isDue (with_ up cc) 0x0C02 cc = true ∧ (out (.coreRestart 1) (with_ up cc)).cmd 1 = none
    ∧ (out (.coreRestart 1) (with_ up hub)).boot.coreDown = [2] ∧ isDue (with_ up give) 0x0C02 give = true
    ∧ (out (.coreRestart 1) (with_ up give)).boot.roleHub = [0, 0, 1] := by decide +kernel

/-- R30, R86: the standby takes over once; with none left the role has none to take it. -/
theorem test_takeover :
    let s := up.modBoot fun b => { b with ccRunning := [31] }
    up.mayFail 0 = true ∧ up.mayFail 1 = true ∧ up.mayFail 2 = true
    ∧ (out .schedulerTakeover up).boot.roleHub = [0, 0, 1] ∧ (out .powerManagementTakeover up).boot.roleHub = [0, 1, 0]
    ∧ (out .securityTakeover up).boot.roleHub = [1, 0, 0] ∧ (out (.standbyCoreFailure 2) up).standbyUp 2 = false
    ∧ (out (.clusterControlRestart 31) s).boot.restarts = 1
    ∧ (out (.firmwareCoreRestarted 2) (out .schedulerTakeover up)).boot.coreDown = [] := by decide +kernel

/-! ### Clocks, power and cooling -/

/-- R39 to R41: island 0, a core island of 1,500 MHz; its ceiling falls by a sixteenth of that at 100 °C and
rises below 97 °C. -/
theorem test_islands :
    let at_ := up.modIsle 0 fun x => { x with therm16 := 24000 }
    let low := out (.thermalCeilingLower 0 100) { at_ with time := { up.time with localNs := 50000, elapsed := 50000 } }
    (up.isle 0).stepDue 50000 50000 = true ∧ (low.isle 0).therm16 = 22500
    ∧ ((out (.thermalCeilingLower 0 99) up).isle 0).therm16 = (up.isle 0).therm16
    ∧ (low.isle 0).therm16 < 16 * (low.isle 0).targetMhz ∧ (low.isle 0).stepDue 250000 200000 = true
    ∧ ((out (.thermalCeilingRaise 0 96) { low with time := { up.time with localNs := 250000, elapsed := 250000 } }).isle 0).therm16
        = 24000
    ∧ ((out (.frequencyChange 0) low).isle 0).run16 = (low.isle 0).therm16
    ∧ ((out (.islandTargetSet 0 (rangeMhz 0).2) up).isle 0).targetMhz = (rangeMhz 0).2
    ∧ ((out (.droopDetect 0 8) up).isle 0).drooping = true
    ∧ ((out (.droopEnd 0 16) (out (.droopDetect 0 8) up)).isle 0).drooping = false := by decide +kernel

/-- R477: a cap of 3,000 W now, 2,999 W never, and one that waits until 2,000. -/
theorem test_powerCap :
    let c := cmdOf 0x0A01 [3000]
    let d := cmdOf 0x0A01 [2999]
    let e := { cmdOf 0x0A01 [3000, 2000] with expert := true }
    let s := out (.powerCap 1) (with_ up e)
    let t := out .capTakeEffect { s with time := { s.time with btime := 2000 } }
    isDue (with_ up c) 0x0A01 c = true ∧ isDue (with_ up e) 0x0A01 e = true
    ∧ (out (.powerCap 1) (with_ up c)).power.capW = 3000 ∧ (out (.powerCap 1) (with_ up d)).power.capW = 7200
    ∧ s.power.pendingCaps.length = 1 ∧ s.power.capW = 7200 ∧ t.power.capW = 3000 ∧ t.power.pendingCaps = [] := by
  decide +kernel
/-- R476: a draw of 641 W of a budget of 640 W, and 1 ms at 608 W, which is 5% below. -/
theorem test_monitor :
    let hot := out (.powerMonitorSample 0 641) up
    let s := { hot with power := { hot.power with units := [(0, { belowSince := some 0 })] }, time := { up.time with localNs := 1000000, elapsed := 1000000 } }
    (out (.powerBudgetDivision 2080) up).power.dieBudget = 640 ∧ (hot.isle 0).cap16 = (up.isle 0).cap16 - nominalMhz 0
    ∧ 0 ∈ monitorIsles 0 ∧ (hot.isle 0).cap16 < 16 * (rangeMhz 0).2
    ∧ ((out (.powerMonitorSample 0 608) s).isle 0).cap16 = (up.isle 0).cap16
    ∧ ((out (.powerMonitorSample 0 609) s).unitTemp 0).belowSince = none := by decide +kernel

/-- R480 to R483, at the bounds of each. -/
theorem test_cooling :
    let s := { up with power := { up.power with lowFlowSince := some 0 }, time := { up.time with localNs := 10000000000, elapsed := 10000000000 } }
    (out (.dieShutdown 0 115) up).power.shut = [0] ∧ (out (.dieShutdown 0 114) up).power.shut = []
    ∧ ((out (.dieShutdown 0 115) up).cluster 3).inService = false
    ∧ (out (.hbmOvertemp 31 106) up).power.hbmStopped = [31] ∧ (out (.hbmOvertemp 31 105) up).power.hbmStopped = []
    ∧ (out (.hbmTemperatureFall 31 99) (out (.hbmOvertemp 31 106) up)).power.hbmStopped = []
    ∧ (out (.coolantLowFlow 699) up).power.lowFlowSince = some 1000 ∧ (out (.coolantLowFlow 699) s).modLog.next = 1
    ∧ (out (.coolantLowFlow 700) s).power.lowFlowSince = none
    ∧ (out (.coolantInletTemperature 401) up).power.inletHigh = true
    ∧ (out (.thermalHistoryWrite 5000 6000) { up with time := { up.time with localNs := 3600000000000, elapsed := 3600000000000 } }).power.history.length = 1
    ∧ (out (.smbusRead 0) State.reset).out = [.smbus none] ∧ (out (.smbusRead 0) up).out.length = 1 := by decide +kernel
theorem test_thermalStatus :
    let c := cmdOf 0x0A02 []
    let e := { cmdOf 0x0A02 [gib + stagingOffset, 1] with expert := true }
    isDue (with_ up c) 0x0A02 c = true ∧ isDue (with_ up e) 0x0A02 e = true ∧ (out (.thermalStatus 1) (with_ up e)).cmd 1 = none
    ∧ (out (.thermalStatus 1) (with_ up c)).readMem (gib + cqOffset + 16) 2 = leBytes 2 54000
    ∧ (with_ up e).badRange 0 0 (gib + stagingOffset) 2656 = none := by decide +kernel

/-! ### Links, bridles, routes and time -/

/-- Axis 0 open with both its links up. -/
def linked : State :=
  { up with
    links := [(0, { state := 2, recvSeq := 7, nbId := 9, inUse := 1, peerMask := 0xFFFFFFFF }), (3, { state := 2 })]
    axes := [(0, { isOpen := true, loopAt := some 0 })] }
def flit0 : Flit := { fseq := 7, crcOk := true, ack := 0, replayFrom := none, idle := true }
/-- An active plane of DEVICE_ID 5 that reaches 6 through port 3, accepting 9 on every slot. -/
def plane0 : Plane :=
  { epoch := 2, selfId := 5, accept := List.replicate 48 9
    entries := [(5, { port := 6, dateline := false, partition := 0xFFF, level2 := false }),
      (6, { port := 3, dateline := true, partition := 7, level2 := false })] }
def routed : State := { linked with route := { active := some plane0 } }
def pkt (dest hops : Nat) : Pkt :=
  { dest := dest, src := 9, partition := 7, hops := hops, plane := false, vc := false, len := 1, type := 4, payload := [] }

/-- A packet to 6 that waits for a port from 0 ns on. -/
def wait0 : Waiting := { what := .packet 0 (pkt 6 3), cls := 3, flow := 0, partition := 7, left := 2, since := 0 }

/-- R322, R323. -/
theorem test_flits :
    let s := linked.modLink 0 fun k => { k with replays := 16 }
    ((out (.flitReceive 0 flit0) linked).link 0).recvSeq = 8
    ∧ (out (.flitReceive 0 { flit0 with crcOk := false }) linked).out = [.replayRequest 0 7]
    ∧ ((out (.replayLimit 0) s).link 0).state = 0 ∧ ((out (.replayLimit 0) linked).link 0).state = 2
    ∧ ((out (.linkIdleTimeout 0) { linked with time := { up.time with localNs := 100000, elapsed := 100000 } }).link 0).state = 0 := by
  decide +kernel
/-- R322, R353: the peer asks for the stream from FSEQ 6 on, and a packet of control goes first. -/
theorem test_replay :
    let e := fun (h : Nat) => Emission.packet 0 (pkt 6 h)
    let s := linked.modLink 0 fun k => { k with replay := [(5, e 1), (6, e 2)], queue := [] }
    (out (.flitReceive 0 { flit0 with replayFrom := some 6 }) s).out = [e 2]
    ∧ ({ queue := [wait0, { wait0 with cls := 1 }] } : Link).nextServed = some 1 := by decide +kernel
/-- R332: delivered here, forwarded with one hop left, and dropped without a plane of its parity. -/
theorem test_packets :
    let s : State := { up1 with links := routed.links, axes := routed.axes, route := routed.route }
    let q := (linked.modLink 0 fun k => { k with state := 0, queue := [wait0] })
    (out (.packetArrive 0 (pkt 5 1)) s).out = [.delivered (pkt 5 1)]
    ∧ (out (.packetArrive 0 (pkt 6 2)) s).out = [.packet 3 { pkt 6 1 with vc := true }]
    ∧ (out (.packetArrive 0 (pkt 6 1)) s).out = []
    ∧ s.planeFor true = none ∧ (out (.packetArrive 0 { pkt 5 1 with plane := true }) s).out = []
    ∧ ((out (.packetQueueTimeout 0) { q with time := { up.time with localNs := 2000000, elapsed := 2000000 } }).link 0).queue = [] := by
  decide +kernel
/-- R332, R336: no entry, another partition, no pavilion of the partition, a way back to the link it came by. -/
theorem test_packetsDropped :
    let count := fun (i : Nat) (k : Pkt) (s : State) => (tget (out (.packetArrive 0 k) s).ctrs (ctrId (placeLink 0) 7 i) {}).raw
    let back := { routed with route := { active := some { plane0 with
      entries := [(6, { port := 0, dateline := false, partition := 7, level2 := false })] } } }
    count 8 (pkt 4 3) routed = 1 ∧ count 6 { pkt 6 3 with partition := 8 } routed = 1 ∧ count 7 (pkt 5 3) routed = 1
    ∧ count 8 (pkt 6 3) back = 1 ∧ count 5 (pkt 6 3) { routed with route := { routed.route with fences := [7] } } = 1 := by
  decide +kernel

/-- R324, R325: the last lane of axis 0. -/
theorem test_lanes :
    let gone := out (.laneErrorRate 0 31 65) linked
    let at_ := { gone with time := { up.time with localNs := 30000001000, elapsed := 30000001000 } }
    let tested := out (.laneRecalibrate 0 31) at_
    linked.laneLive 0 31 = true ∧ ((gone.link 0).lane 31).retired = true
    ∧ ((out (.laneErrorRate 0 31 64) linked).link 0).lane 31 = {}
    ∧ (((out (.laneLossOfSignal 0 31) linked).link 0).lane 31).retired = true
    ∧ ((tested.link 0).lane 31).testing = true
    ∧ (((out (.laneTestDone 0 31 0 4) tested).link 0).lane 31).retired = false
    ∧ (((out (.laneTestDone 0 31 0 5) tested).link 0).lane 31).retired = true
    ∧ ((out (.laneMask 0 3) linked).link 0).pendingMask = some (3, 263) ∧ ((out (.laneMask 0 0) linked).link 0).state = 0
    ∧ ((out (.laneSwitch 0) (out (.laneMask 0 3) linked)).link 0).inUse = 3 := by decide +kernel

/-- What the neighbour 9 on the minus port of axis 0 sends. -/
def train0 : TrainRec :=
  { identityDigest := 0, grantCode := 0, time := 0, laneMask := 3, routeEpoch := 2, deviceId := 9, level := 2, axis := 0
    dirPlus := true, joining := false, loopback := false }
/-- R326 to R329, R343: link 0 faces the plus port of its neighbour or not. -/
theorem test_training :
    let down := routed.modLink 0 fun k => { k with state := 0 }
    let tr := routed.modLink 0 fun k => { k with state := 1 }
    let quar := routed.modLink 0 fun k => { k with state := 3 }
    let t := { quar with time := { up.time with localNs := 1000000000, elapsed := 1000000000 } }
    let g := routed.modLink 0 fun k => { k with grant := some { code := 1, joiner := 9, digest := 0, until_ := 1000 } }
    ((out (.linkRetrain 0) down).link 0).state = 1
    ∧ (out (.trainingRecordSend 0) tr).out.length = 1
    ∧ (tr.trainFault 0 train0).isNone = !(tr.trainFault 0 { train0 with dirPlus := false }).isNone
    ∧ (let ok := if (tr.trainFault 0 train0).isNone then train0 else { train0 with dirPlus := false }
       ((out (.trainingRecord 0 ok) tr).link 0).state = 2 ∧ ((out (.trainingRecord 0 ok) tr).link 0).level = 2
       ∧ ((out (.trainingRecord 0 { ok with dirPlus := !ok.dirPlus }) tr).link 0).reason = 2
       ∧ ((out (.trainingRecord 0 { ok with axis := 1 }) tr).link 0).state = 3)
    ∧ ((out (.quarantineRetry 0) t).link 0).state = 1 ∧ ((out (.grantExpire 0) g).link 0).grant = none := by decide +kernel

/-- A join on axis 1, its bridle closed and its self-test fresh. -/
def joining : State :=
  { with_ routed (cmdOf 0x0702 []) with
    axes := [(1, { loopAt := some 0, join := some { cmd := 1, form := false, epoch := 2, minusCode := 1, plusCode := 1
                                                    trainNs := 1000000000, limit := 5000 } })] }
/-- R26, R338, R342, R343. -/
theorem test_bridles :
    let s := routed
    let late := { joining with time := { up.time with localNs := 5000, elapsed := 5000 } }
    let aside := s.modRoute fun r => { r with stepAside := some (1, 1, 1000) }
    let test := joining.modAxis 1 fun x => { x with loopTest := some 0 }
    ((out (.bridleOpen 1) joining).link 4).state = 1
    ∧ ((out (.bridleOpen 1) (joining.modBoot fun b => { b with stage := 10, everOpened := [0, 2] })).modLog.ring.map (·.2.code)).contains 0x0C01
    ∧ ((out (.bridleClose 0 .powerLoss) (s.modPower fun p => { p with pwrGood := false })).link 3).state = 4
    ∧ ((out (.bridleClose 0 .reset) (s.modPower fun p => { p with resetN := false })).axis 0).isOpen = false
    ∧ ((out (.bridleClose 0 .forwarding) (s.modRoute fun r => { r with noForward := [2] })).axis 0).isOpen = false
    ∧ ((out (.bridleClose 0 .stepAside) aside).axis 0).isOpen = false
    ∧ ((out (.bridleClose 1 .joinFailed) (joining.modLink 4 fun k => { k with state := 3 })).cmd 1) = none
    ∧ (out (.joinTimeout 1) late).cmd 1 = none ∧ (out (.joinTimeout 1) joining).cmd 1 ≠ none
    ∧ ((out (.loopbackDone 1 true) test).axis 1).loopAt = some 1000 ∧ ((out (.loopbackDone 1 false) test).axis 1).join = none
    ∧ ((out (.hubForwardFail 2) s).axis 0).isOpen = false := by decide +kernel
theorem test_stepAside :
    let c := cmdOf 0x0710 []
    let e := { cmdOf 0x0710 [2, 2000] with expert := true }
    let t := out (.bridleStepAside 1) (with_ routed e)
    isDue (with_ routed c) 0x0710 c = true ∧ isDue (with_ routed e) 0x0710 e = true
    ∧ ((out (.bridleStepAside 1) (with_ routed c)).axis 0).isOpen = false
    ∧ t.route.stepAside = some (1, 2, 2000)
    ∧ ((out .bridleStepAsideAt { t with time := { t.time with btime := 2000 } }).axis 0).isOpen = true
    ∧ (out .bridleStepAsideAt { t with time := { t.time with btime := 2000 } }).cmd 1 = none := by decide +kernel

/-- R330, R341, R343, R348. -/
theorem test_joinCommands :
    let grant := { cmdOf 0x0702 [2 * 4096 + 5 * 256, 9, 0, 0, 0, 0, 600000 * 2 ^ 32] with expert := true }
    let take := cmdOf 0x0702 [4 * 4096, 0, 0, 0]
    let join := cmdOf 0x0702 [4096 + 2, 1, 1, 2 * 2 ^ 32]
    let wire := cmdOf 0x0703 [2]
    let look := { cmdOf 0x0701 [] with target := 0x5000 }
    let all := { cmdOf 0x0701 [gib + stagingOffset] with expert := true }
    isDue (with_ routed grant) 0x0702 grant = true
    ∧ (((out (.linkJoin 1) (with_ routed grant)).link 5).grant.map (·.until_)) = some 600000001000
    ∧ isDue (with_ routed take) 0x0702 take = true ∧ (out (.linkJoin 1) (with_ routed take)).cmd 1 = none
    ∧ isDue (with_ routed join) 0x0702 join = true
    ∧ (((out (.linkJoin 1) (with_ routed join)).axis 2).join.map (·.trainNs)) = some 1000000000
    ∧ ((out (.linkJoin 1) (with_ routed join)).axis 2).loopTest = some 1000
    ∧ isDue (with_ routed wire) 0x0703 wire = true ∧ (out (.acceptWiring 1) (with_ routed wire)).cmd 1 = none
    ∧ isDue (with_ routed look) 0x0701 look = true ∧ (out (.linkStatus 1) (with_ routed look)).cmd 1 = none
    ∧ isDue (with_ routed all) 0x0701 all = true ∧ (out (.linkStatus 1) (with_ routed all)).cmd 1 = none := by decide +kernel

/-- R334, R335: epoch 3 in the shadow. -/
theorem test_swap :
    let c := cmdOf 0x0502 [3 * 2 ^ 32]
    let e := { cmdOf 0x0502 [3 * 2 ^ 32, 1000] with expert := true }
    let x := { cmdOf 0x0502 [3 * 2 ^ 32 + 1, 0] with expert := true, serial := 2 }
    let sh := routed.modRoute fun r => { r with shadow := some { plane0 with epoch := 3 } }
    let armed := out (.routeSwap 1) (with_ sh e)
    isDue (with_ sh c) 0x0502 c = true ∧ isDue (with_ sh e) 0x0502 e = true
    ∧ (out (.routeSwap 1) (with_ sh c)).route.active.map (·.epoch) = some 3
    ∧ (out (.routeSwap 1) (with_ sh c)).route.old = true
    ∧ (out (.routeSwap 1) (with_ sh c)).route.shadow.map (·.epoch) = some 2
    ∧ armed.route.pendingSwap = some (1, 1000) ∧ (out .routeSwapTakeEffect armed).route.active.map (·.epoch) = some 3
    ∧ (out (.routeSwap 2) { armed with cmds := armed.cmds ++ [x] }).route.pendingSwap = none
    ∧ (out .oldPlaneExpire { out (.routeSwap 1) (with_ sh c) with time := { up.time with localNs := 1001000, elapsed := 1001000 } }).route.old = false := by
  decide +kernel

/-- A plane of 12,800 devices, and 128 bytes that merge nothing into it under epoch 3. -/
def planeFull : Plane := { plane0 with
  entries := (List.range routeDevices).map fun i => (i, { port := if i = 5 then 6 else 3, dateline := false, partition := 0xFFF, level2 := false }) }
def merge3 : List Byte :=
  let a := pack ([(4, 0x45545552), (2, 0), (2, 5), (4, 128), (4, 3)] ++ List.replicate 48 (2, 9))
  -- the digest is that of an independent SHAKE256
  a ++ List.replicate (112 - a.length) 0 ++ leBytes 16 63489271944654159689598052738517412859
/-- R333: the smallest plane object. -/
theorem test_routeLoad :
    let c := { cmdOf 0x0501 [gib + stagingOffset, 128, 2 ^ 32] with expert := true }
    let s := (with_ (routed.modRoute fun r => { r with active := some planeFull }) c).writeMem (gib + stagingOffset) merge3
    isDue s 0x0501 c = true ∧ ((out (.routeLoad 1) s).route.shadow.map (·.epoch)) = some 3 := by decide +kernel

/-- R337: the fence of partition 7, now and at 2,000. -/
theorem test_fence :
    let c := cmdOf 0x0510 [7]
    let e := { cmdOf 0x0510 [7, 2000] with expert := true }
    let t := out (.fenceSet 1) (with_ up1 e)
    isDue (with_ up1 c) 0x0510 c = true ∧ isDue (with_ up1 e) 0x0510 e = true
    ∧ (out (.fenceSet 1) (with_ up1 c)).route.fences = [7] ∧ ((out (.fenceSet 1) (with_ up1 c)).pav 0).map (·.fenced) = some true
    ∧ t.route.fences = [] ∧ (out .fenceTakeEffect { t with time := { t.time with btime := 2000 } }).route.fences = [7]
    ∧ ((out (.fenceSet 1) (with_ { up1 with links := [(3, { state := 2, queue := [wait0] })] } c)).link 3).queue = []
    ∧ ((out (.fenceSet 1) (with_ up1 { e with params := [7 + 2 ^ 18, 0] })).pav 0).map (·.fenced) = some false
    ∧ (out (.fenceSet 1) (with_ { up1 with route := { fences := [7] } } (cmdOf 0x0510 [7 + 2 ^ 16]))).route.fences = [] := by
  decide +kernel

/-- A module that hears root 3 with one hop on link 0. -/
def heard : State :=
  { linked with time := { state := 1, btime := 1000, localNs := 1000000000, elapsed := 1000000000, rootId := 3, hops := 2, parent := some 0, goodSince := 0
                          links := [(0, { heard := true, measured := true, rootId := 3, rootPrio := 1, nbHops := 1, nbState := 2
                                          nbId := 9, seqAt := 1000000000 })] } }
def sync0 : TimeSyncMsg :=
  { tSend := 5000, tEcho := 0, tDwell := 0, rootSeq := 1, rootId := 3, rootPrio := 1, hops := 1, sendFrac := 0, echoFrac := 0, state := 2 }
/-- R363 to R366. -/
theorem test_time :
    let silent := { heard with links := [] }
    let other := { heard with time := { heard.time with rootId := 4 } }
    let fresh := { linked with time := { localNs := 1000, elapsed := 1000 } }
    (out (.timeSyncSend 0) heard).out.length = 1 ∧ (out (.timeSync 0 sync0) fresh).time.state ≠ 0
    ∧ heard.upstream = [0] ∧ (out .timeLock heard).time.state = 2
    ∧ silent.bestOffer = none ∧ (out .rootLost silent).time.state = 3
    ∧ other.bestOffer = some 0 ∧ (out .rootLost other).time.rootId = 3
    ∧ silent.upstream = [] ∧ (out .timeHoldover silent).time.state = 3 := by decide +kernel
theorem test_timeCommands :
    let s0 := { up with time := { localNs := 1000, elapsed := 1000 } }
    let root := { cmdOf 0x0803 [1, 77] with expert := true }
    let st := cmdOf 0x0801 []
    let sx := { cmdOf 0x0801 [gib + stagingOffset] with expert := true }
    let ba := { cmdOf 0x0802 [5000] with pavilion := 0 }
    let bx := { cmdOf 0x0802 [0, 0, 1] with pavilion := 0, expert := true, serial := 2 }
    let armed := out (.barrierAt 1) (with_ up1 ba)
    isDue (with_ s0 root) 0x0803 root = true ∧ (out (.timeRoot 1) (with_ s0 root)).time.state = 4
    ∧ (out (.timeRoot 1) (with_ s0 root)).time.btime = 77
    ∧ isDue (with_ up st) 0x0801 st = true ∧ isDue (with_ up sx) 0x0801 sx = true
    ∧ (out (.timeStatus 1) (with_ up sx)).cmd 1 = none
    ∧ isDue (with_ up1 ba) 0x0802 ba = true ∧ ((armed.pav 0).bind (·.barrier)).map (·.at_) = some 5000
    ∧ ((out (.barrierAt 2) { armed with cmds := armed.cmds ++ [bx] }).pav 0).bind (·.barrier) = none := by decide +kernel

/-! ### Movers and memory -/

/-- Granule 4 of die 0 and granule 0 of Hub W, both of pavilion 0. -/
def hb : Nat := 4 * gib
def lp : Nat := 2 ^ 48
/-- The words of a COPY of one row of n bytes. -/
def copyWords (src dst n : Nat) : List Nat := [1, 0, 2 ^ 32 + 1, n, 0, 0, dst, src]
def desc (src dst n : Nat) : Desc := parseDesc (leNat ((copyWords src dst n).flatMap (leBytes 8)))
def of0 (op : Nat) (ps : List Nat) : Cmd := { cmdOf op ps with pavilion := 0 }
/-- A started MOVE with a job of these descriptors on core 0. -/
def moving (ds : List Desc) : State :=
  { with_ up1 { of0 0x0201 [] with phase := .started } with
    moves := [{ cmd := 1, descs := ds, mover := 0, clusters := [0] }] }

/-- R235, R238 to R240. -/
theorem test_moveCommands :
    let mv := of0 0x0201 (copyWords hb (hb + 64) 64)
    let mx := { of0 0x0201 [hb, 1, 0] with expert := true }
    let s := (with_ up1 mx).writeMem hb ((copyWords hb (hb + 64) 64).flatMap (leBytes 8))
    let of := of0 0x0202 [hb, 4096]
    let ox := { of0 0x0202 [hb, 4096, lp, 0] with expert := true }
    let rs := of0 0x0203 [lp, hb, 4096]
    let rz := of0 0x0203 [lp, hb, 0]
    up1.moverFor (up1.moverClusters mv 0) = some 0
    ∧ isDue (with_ up1 mv) 0x0201 mv = true ∧ (out (.move 1) (with_ up1 mv)).moves.map (·.descs) = [[desc hb (hb + 64) 64]]
    ∧ isDue s 0x0201 mx = true ∧ (out (.move 1) s).moves.map (·.descs) = [[desc hb (hb + 64) 64]]
    ∧ isDue (with_ up1 of) 0x0202 of = true ∧ (out (.offload 1) (with_ up1 of)).moves.map (fun j => j.descs.map (·.dst)) = [[lp]]
    ∧ isDue (with_ up1 ox) 0x0202 ox = true ∧ (out (.offload 1) (with_ up1 ox)).moves.length = 1
    ∧ isDue (with_ up1 rs) 0x0203 rs = true ∧ (out (.restore 1) (with_ up1 rs)).moves.length = 1
    ∧ isDue (with_ up1 rz) 0x0203 rz = true ∧ (out (.restore 1) (with_ up1 rz)).cmd 1 = none := by decide +kernel

/-- R236: the first of two descriptors moves 64 bytes and ends; the only one ends its command. -/
theorem test_descriptor :
    let d := desc hb (hb + 64) 64
    let s := (moving [d, d]).writeMem hb [5, 6]
    let t := out (.descriptorStart 1 ⟨0, []⟩) s
    s.descStalled d = false ∧ d.dstRows = [(hb + 64, 64)] ∧ s.descBad d = none
    ∧ cellsGet t.mem.cells (hb + 64) 2 = [5, 6] ∧ (t.job 1).map (·.finished) = some [0]
    ∧ (out (.descriptorStart 1 ⟨0, []⟩) (moving [d])).cmd 1 = none
    ∧ (out (.descriptorStart 1 ⟨0, [(hb, 3)]⟩) (moving [d, d])).cmd 1 = none := by decide +kernel
/-- R462, R463: a host-side source of 64 bytes is requested and placed; 50 ms of silence end the command. -/
theorem test_hostPiece :
    let d := { desc 0 hb 64 with hostSrc := true }
    let s := out (.descriptorStart 1 ⟨0, []⟩) (moving [d])
    let e := { desc 4032 hb 128 with hostSrc := true }
    let two := out (.descriptorStart 1 ⟨0, []⟩) (moving [e])
    let late := { s with time := { s.time with localNs := 60000000, elapsed := 60000000, btime := 60000000 } }
    s.out = [.hostRead 0 0 0 64] ∧ (s.job 1).map (·.waiting) = some [(0, 0, 0)]
    ∧ cellsGet (out (.hostCompletion 0 0 (.ok [1, 2])) two).mem.cells hb 3 = [1, 2, 0]
    ∧ ((out (.hostCompletion 0 0 (.ok [1, 2])) two).job 1).isSome = true
    ∧ (out (.hostCompletion 0 7 .abort) up).out = [.unexpectedCompletion 0]
    ∧ (out (.completionTimeout 0 0) late).cmd 1 = none := by decide +kernel
theorem test_descriptorTimeout :
    let s := { moving [desc hb (hb + 64) 64] with time := { up.time with btime := 50000000, elapsed := 50000000 } }
    (out (.descriptorTimeout 1) { s with moves := s.moves.map fun j => { j with started := [0] } }).cmd 1 = none := by
  decide +kernel
/-- R441: a piece of the bundle; an error ends the load. -/
theorem test_bundlePiece :
    let s := (booting 3).modPort 0 fun p => { p with requests := [(4, none, 4096, 64, 0)] }
    let t := out (.hostCompletion 0 4 (.ok [9, 8])) (s.modBootPort 0 fun b => { b with bundleBytes := 256 })
    (t.bootPort 0).bytesDone = 64 ∧ cellsGet t.mem.cells (dieStoreAddr 0) 2 = [9, 8]
    ∧ ((out (.hostCompletion 0 4 .poisoned) s).bootPort 0).error = 2
    ∧ ((out (.completionTimeout 0 4) { s with time := { localNs := 50000000, elapsed := 50000000 } }).bootPort 0).error = 2 := by decide +kernel

def ret (a st : Nat) : RetRec := { address := a, time := 0, place := 0, cause := 3, state := st, corrections := 8 }
/-- R222, R223, R226, R288: a correction, a page retired, a ledger record made unreadable, the eighth correction. -/
theorem test_memoryErrors :
    let p := up.placeOfAddr hb
    let led := 4 * 2 ^ 48 + 0x2800000
    let s := up.modMem fun m => { m with corrections := [(hb, { count := 8, times := [1, 2, 3, 4, 5, 6, 7, 8] })] }
    ((tget (out (.patrolScrub p [(hb, 1)]) up).mem.corrections hb {}).count) = 1
    ∧ (out (.patrolScrub p [(hb + 65, 2)]) up).mem.retired = [hb]
    ∧ inLedgerSlice led = true ∧ inLedgerSlice (led - 1) = false ∧ up.mapped led 1 = true
    ∧ (out (.patrolScrub (up.placeOfAddr led) [(led, 3)]) up).ledger.unreadable = [0]
    ∧ 8 ≤ ((tget s.mem.corrections hb {}).times.filter fun t => decide (s.now < t + 86400000000000)).length
    ∧ (out .retirementRecordWrite (up.modMem fun m => { m with toFlash := [ret hb 1] })).flash.retire = [ret hb 1] := by
  decide +kernel
/-- R229, R230: both commands in their basic form; a page of the pool to repair. -/
theorem test_memoryCommands :
    let rep := cmdOf 0x0210 []
    let lst := cmdOf 0x0211 [gib + stagingOffset, 2 ^ 32]
    let s := { up with flash := { retire := [ret hb 1] } }
    isDue (with_ s rep) 0x0210 rep = true ∧ (with_ s rep).retireList.length = 1
    ∧ isDue (with_ s lst) 0x0211 lst = true ∧ (out (.memRetireList 1) (with_ s lst)).cmd 1 = none
    ∧ field ((out (.memRetireList 1) (with_ s lst)).readMem (gib + cqOffset + 16) 8) 0 4 = 1 := by decide +kernel

/-! ### Pavilions -/

/-- R407 to R410: one cluster and one granule of each kind; the re-arming of a stopped pavilion; DESTROY; STATUS. -/
theorem test_pavilionCommands :
    let cr := of0 0x0101 [2 ^ 32 + 7 * 2 ^ 20 + 2 ^ 18 + 2, 2 ^ 32 + 2 ^ 16]
    let cx := { of0 0x0101 [2 ^ 32 + 7 * 2 ^ 20 + 2 ^ 18, 0, 2, 0] with expert := true }
    let arm := of0 0x0101 []
    let de := of0 0x0102 []
    let st := of0 0x0103 []
    let stopped := up1.modPav 0 fun v => { v with stopped := true }
    let v := (out (.pavilionCreate 1) (with_ up cr)).pav 0
    isDue (with_ up cr) 0x0101 cr = true ∧ v.map (·.hbm) = some [(0, 2), (0, 3)] ∧ v.map (·.lpddr) = some [(0, 0)]
    ∧ v.map (·.dstore) = some [(0, 0)] ∧ v.map (·.role) = some 1
    ∧ isDue (with_ up cx) 0x0101 cx = true ∧ ((out (.pavilionCreate 1) (with_ up cx)).pav 0).map (·.hbm) = some [(0, 2), (0, 3)]
    ∧ isDue (with_ stopped arm) 0x0101 arm = true
    ∧ ((out (.pavilionCreate 1) (with_ stopped arm)).pav 0).map (·.stopped) = some false
    ∧ isDue (with_ up1 de) 0x0102 de = true ∧ (with_ up1 de).destroyWaits de = false
    ∧ (out (.pavilionDestroy 1) (with_ up1 de)).pavs = []
    ∧ isDue (with_ up1 st) 0x0103 st = true ∧ (out (.pavilionStatus 1) (with_ up1 st)).cmd 1 = none := by decide +kernel
/-- R413, R414. -/
theorem test_functionReset :
    let fr := { of0 0x0110 [] with target := 0x1000 }
    let lr := { cmdOf 0x0110 [] with target := 0x5000 }
    let s := up1.modPav 0 fun v => { v with stopped := true, data := [{ handle := 0, tensor := 1, slice := 0 }] }
    let t := (linked.modLink 0 fun k => { k with queue := [wait0] })
    isDue (with_ s fr) 0x0110 fr = true ∧ (s.pav 0).bind (·.abortReason) ≠ none
    ∧ ((out (.functionReset 1) (with_ s fr)).pav 0).map (fun v => (v.stopped, v.data)) = some (false, [])
    ∧ (out (.functionReset 1) (with_ s fr)).cmd 1 = none
    ∧ isDue (with_ t lr) 0x0110 lr = true ∧ ((out (.functionReset 1) (with_ t lr)).link 0).queue = []
    ∧ ((out (.functionReset 1) (with_ t lr)).link 0).state = 0 := by decide +kernel
/-- R411, R420: one of two clusters to another pavilion; a parked pavilion of a lost host. -/
theorem test_lendAdopt :
    let a := { pav0 with clusters := [0, 4], hbm := [(0, 4), (0, 5), (1, 4), (1, 5)] }
    let b := { pav0 with clusters := [8], hbm := [(2, 4)], lpddr := [], partition := 8 }
    let le := of0 0x0120 [16, 1]
    let pool := of0 0x0120 [16, 15]
    let s := { up with pavs := [(0, a), (1, b)] }
    let ad := { of0 0x0121 [] with port := 1 }
    let p := { (up1.modPav 0 fun v => { v with parked := true }).modPort 0 fun q => { q with lost := true } with
      rings := [(0, ring0), (9, ring0)], cmds := [ad] }
    let t := out (.pavilionLend 1) (with_ s le)
    isDue (with_ s le) 0x0120 le = true ∧ (t.pav 0).map (·.clusters) = some [0] ∧ (t.pav 1).map (·.clusters) = some [4, 8]
    ∧ (t.pav 0).map (·.capacityDue) = some true ∧ isDue (with_ s pool) 0x0120 pool = true
    ∧ ((out (.pavilionLend 1) (with_ s pool)).pav 0).map (·.clusters) = some [0]
    ∧ isDue p 0x0121 ad = true ∧ ((out (.pavilionAdopt 1) p).pav 0).map (fun v => (v.homePort, v.parked)) = some (1, false) := by
  decide +kernel

/-! ### Programs -/

/-- An unscaled binary32 tensor of 32 × 32 tiles that every slice shares. -/
def ten (d0 d1 : Nat) : Tensor :=
  { nullTensor with dims := [d0, d1, 1, 1], format := 8, rank := 2, kind := 1, tileRowsLog2 := 5, tileColsLog2 := 5 }
def op0 (code o a b c args : Nat) : Op := { nullOp with code := code, out := o, a := a, b := b, c := c, args := args }
/-- Tensors 1 to 4 of 2 × 2, 5 of 2, 6 of 1 × 2, 7 to 9 of 1 × 33, 10 of 1; the token needs one signal. -/
def img (ops : List Op) : Image :=
  { digest := 0, programId := 7, features := 0, sliceCount := 1, level := 3
    tensors := [nullTensor, ten 2 2, ten 2 2, ten 2 2, ten 2 2, ten 2 1, ten 1 2, ten 1 33, ten 1 33, ten 1 33, ten 1 1]
    ops := ops, tokens := [(false, 0), (true, 1)] }
def han (g : Image) : Handle := { image := g, addr := hb, bytes := 232, clusterMask := 0, mode := 0 }
/-- 1, 2, 3, 4 in binary32. -/
def f1 : Nat := 0x3F800000
def f2 : Nat := 0x40000000
def f3 : Nat := 0x40400000
def f4 : Nat := 0x40800000
def codes0 (l : List Nat) : Tbl Nat := (List.range l.length).zip l
def data0 (i : Nat) (l : List Nat) : TensorData := { handle := 0, tensor := i, slice := 0, codes := codes0 l, zero := true }
/-- Pavilion 0 with a loaded program, and with a run of it. -/
def loaded (ops : List Op) : State :=
  { up with pavs := [(0, { pav0 with
    handles := [(0, han (img ops))]
    data := [data0 1 [f1, f2, f3, f4], data0 2 [f1, f2, f3, f4], data0 4 [], data0 5 [f1, f1], data0 6 [f1, f1], data0 7 [],
      data0 8 [f1], data0 10 [f1]] })] }
def run0 : Run := { cmd := 1, handle := 0, isStep := true, stepsAsked := 2 }
def stepCmd : Cmd := { of0 0x0401 [2 * 2 ^ 32] with phase := .started }
def running (ops : List Op) (f : Run → Run := id) : State :=
  (with_ (loaded ops) stepCmd).modPav 0 fun v => { v with run := some (f run0) }
def tile0 (op : Nat) : TileRef := { op := op, slice := 0, d3 := 0, d2 := 0, row := 0, col := 0 }
/-- The first tile of operation 0 in flight. -/
def flying (o : Op) : State := running [o, op0 0x5F 0 0 0 0 0] fun r => { r with
  inflight := [{ tile := tile0 0, startedAt := 0 }], startedOps := [0] }
def theRun (s : State) : Option Run := (s.runOf 0).map (·.2.1)
def codesOf (s : State) (i : Nat) : List Nat := (((s.pav 0).map fun v => (v.contents 0 i 0).codes).getD []).map (·.2)

/-- R96 to R118: an image of one tensor, one STEP_MARK and one token, 232 bytes with the digest of an independent
SHAKE256. -/
def imageBytes : List Byte :=
  pack [(4, 0x5043544C), (1, 3)] ++ List.replicate 63 0 ++ pack ([232, 1, 128, 1, 192, 1, 224, 1, 0].map fun x => (4, x))
    ++ pack [(8, 7), (16, 170659289752947647962563020479275782558)] ++ List.replicate 95 0 ++ [0x5F] ++ List.replicate 8 0
theorem test_programLoad :
    let c := of0 0x0301 [hb + 8192, 232]
    let s := (with_ up1 c).writeMem (hb + 8192) imageBytes
    let t := out (.programLoad 1) s
    isDue s 0x0301 c = true ∧ t.cmd 1 = none ∧ (t.pav 0).map (fun v => v.handles.map (·.1)) = some [0]
    ∧ cellsGet t.mem.cells hb 5 = [0x4C, 0x54, 0x43, 0x50, 3] := by decide +kernel
/-- R118, R182. -/
theorem test_programUnload :
    let un := of0 0x0304 [0]
    let fo := of0 0xF001 [256]
    let s := loaded [op0 0x5F 0 0 0 0 0]
    isDue (with_ s un) 0x0304 un = true ∧ ((out (.programUnload 1) (with_ s un)).pav 0).map (·.handles) = some []
    ∧ isDue (with_ s fo) 0xF001 fo = true
    ∧ ((out (.forerunnerNumerics 1) (with_ s fo)).pav 0).map (fun v => v.handles.map (·.2.mode)) = some [1] := by decide +kernel
/-- R119, R123, R257: COUNT 0 is one iteration or step; PROGRAM_STOP at once and at the step's end. -/
theorem test_runStop :
    let pr := of0 0x0302 [0]
    let sr := of0 0x0401 [0]
    let st := { of0 0x0303 [0] with serial := 2 }
    let sx := { of0 0x0303 [1] with serial := 2, expert := true }
    let s := loaded [op0 0x5F 0 0 0 0 0]
    let r := running [op0 0x5F 0 0 0 0 0]
    let both := fun (c : Cmd) => { r with cmds := [stepCmd, c] }
    isDue (with_ s pr) 0x0302 pr = true
    ∧ (theRun (out (.programRun 1) (with_ s pr))).map (fun r => (r.isStep, r.iterations)) = some (false, 1)
    ∧ isDue (with_ s sr) 0x0401 sr = true
    ∧ (theRun (out (.stepRun 1) (with_ s sr))).map (fun r => (r.isStep, r.stepsAsked)) = some (true, 1)
    ∧ isDue (with_ s { st with serial := 1 }) 0x0303 { st with serial := 1 } = true
    ∧ (theRun (out (.programStop 2) (both st))).isNone = true ∧ (out (.programStop 2) (both st)).cmd 2 = none
    ∧ (theRun (out (.programStop 2) (both sx))).map (·.stopAtStep) = some (some (2, 0)) := by decide +kernel

/-- R108, R110: the first tile of ELEMENTWISE; a token that one signal reaches. -/
theorem test_tileStart :
    let s := running [op0 0x10 3 1 2 0 (0x20 * 2 ^ 120), op0 0x5F 0 0 0 0 0]
    let t := out (.tileStart 0 (tile0 0)) s
    (s.runOf 0).map (fun x => s.tileReady x.1 x.2.1 x.2.2 (tile0 0) && s.firstReady x.1 x.2.1 x.2.2 (tile0 0)) = some true
    ∧ (theRun t).map (fun r => r.inflight.map (·.tile)) = some [tile0 0]
    ∧ out (.tileStart 0 { tile0 0 with row := 1 }) s = s := by decide +kernel
theorem test_tokens :
    let s := running [{ nullOp with code := 0x51, signal := 1 }, { nullOp with code := 0x50, wait := 1 }, op0 0x5F 0 0 0 0 0]
    let t := out (.signalToken 0 0) s
    (theRun t).map (fun r => (r.finished, r.tokens)) = some ([0], [(1, 1)])
    ∧ out (.waitToken 0 1) s = s ∧ (theRun (out (.waitToken 0 1) t)).map (·.finished) = some [0, 1] := by decide +kernel
/-- R84, R260: with a deferred command the step's boundary waits for it. -/
theorem test_stepMark :
    let d := { of0 0x0304 [1] with serial := 2, phase := .deferred }
    let s := running [op0 0x5F 0 0 0 0 0]
    let t := out (.stepMark 0 0) { s with cmds := s.cmds ++ [d] }
    (theRun t).map (fun r => (r.phase, r.stepsDone, r.first)) = some (1, 1, 0) := by decide +kernel
/-- R121, R370. -/
theorem test_progress :
    let s := running [op0 0x5F 0 0 0 0 0] fun r => { r with progressMs := 100 }
    let b := (running [op0 0x5F 0 0 0 0 0] fun r => { r with phase := 2 }).modPav 0 fun v => { v with
      barrier := some { cmd := 9, at_ := 1000, period := 0, count := 1, skipLate := false } }
    (theRun (out (.progressTimeout 0) { s with time := { s.time with btime := 100000000, elapsed := 100000000 } })).isNone = true
    ∧ (theRun (out (.progressTimeout 0) { s with time := { s.time with btime := 99999999, elapsed := 99999999 } })).isSome = true
    ∧ (theRun (out (.barrierInstant 0) b)).map (·.phase) = some 0 := by decide +kernel

/-! ### The engines and the program's tiles -/

def pass0 (b : Fin 2) : PassRef := { tile := tile0 0, block := 0, stitch := 0, eng := 0, bank := b }
/-- R126 to R149: [[1, 2], [3, 4]] squared is [[7, 10], [15, 22]]. -/
theorem test_matmul :
    let s := flying (op0 1 3 1 2 0 0)
    let t := out (.matmul 0 ⟨(pass0 0), [], 0⟩) s
    let u := out (.shadowLoadDone 0) t
    (s.flying 0 1 (tile0 0)).isSome = true ∧ s.badTile 0 (tile0 0) = none
    ∧ (t.engine 0).stalled = true ∧ (t.engine 0).shadow = [(0, 0, f1), (0, 1, f2), (1, 0, f3), (1, 1, f4)]
    ∧ (u.engine 0).stalled = false ∧ (u.engine 0).current = (t.engine 0).shadow
    ∧ (tfind (u.engine 0).banks 0).map (fun b => (b.complete, b.rows)) = some (true, [0, 1])
    ∧ (u.engine 0).entries = [(0, [0x40E00000, 0x41200000]), (1, [0x41700000, 0x41B00000])]
    ∧ codesOf (out (.bankDrain 0 0) u) 3 = [0x40E00000, 0x41200000, 0x41700000, 0x41B00000]
    ∧ ((out (.bankDrain 0 0) u).engine 0).banks = [] := by decide +kernel
/-- A pass of a tile of pavilion 1 in bank 1, complete and not drained. -/
def other0 : Bank := { pav := 1, pass := pass0 1, stitches := 1, complete := true }
/-- R150, R143: a busy engine streams at once, into the bank that alternates; an accumulator that cannot be corrected ends
its bank. -/
theorem test_wgrad :
    let s := flying (op0 2 3 1 2 0 0)
    let t := out (.matmulWgrad 0 ⟨(pass0 0), [], 0⟩) s
    let busy := s.modEngine 0 fun e => { e with banks := [(1, other0)] }
    let u := out (.matmulWgrad 0 ⟨(pass0 0), [], 0⟩) busy
    (s.flying 0 2 (tile0 0)).isSome = true ∧ (t.engine 0).stalled = true
    ∧ (busy.engine 0).takes 0 false = true ∧ (busy.engine 0).takes 1 false = false ∧ (busy.engine 0).takes 0 true = false
    ∧ (u.engine 0).entries = [(0, [0x40E00000, 0x41200000]), (1, [0x41700000, 0x41B00000])] ∧ (u.engine 0).nextBank = 1
    ∧ (tfind ((out (.accUncorrectable 0 1) busy).engine 0).banks 1) = none := by decide +kernel
/-- R130, R132: a pass of three sweeps on a busy engine stalls for its second loading, and streams when the load is done; one
that has loaded before it is asked for streams at once. -/
theorem test_loadings :
    let s := (flying (op0 1 3 1 2 0 (2 ^ 92))).modEngine 0 fun e => { e with banks := [(1, other0)] }
    let pass := Instr.matmul 0 ⟨pass0 0, [], 0⟩
    let one := out pass s
    let loads := fun (s : State) => (tfind (s.engine 0).banks 0).map fun b => (b.loads, b.complete)
    loads one = some (1, false) ∧ ((out pass one).engine 0).stalled = true ∧ loads (out (.shadowLoadDone 0) (out pass one)) = some (2, false)
    ∧ ((out (.shadowLoadDone 0) one).engine 0).shadowReady = true ∧ loads (out pass (out (.shadowLoadDone 0) one)) = some (2, false) := by
  decide +kernel
/-- R151, R224: a pass that its mask leaves without rows is skipped, and an operand meets a word that cannot be
read. -/
theorem test_passEnds :
    let masked := flying (op0 2 3 1 2 4 0)
    let fixed := (flying (op0 1 3 1 2 0 0)).modPav 0 fun v => { v with handles := v.handles.map fun h => (h.1, { h.2 with
      constants := [(1, hb + 8192, 16)]
      image := { h.2.image with tensors := h.2.image.tensors.set 1 { ten 2 2 with kind := 5, bindAddr := hb + 8192 } } }) }
    ((out (.matmulWgrad 0 ⟨pass0 0, [], 0⟩) masked).engine 0).banks = []
    ∧ (theRun (out (.matmulWgrad 0 ⟨pass0 0, [], 0⟩) masked)).map (·.finished) = some [0]
    ∧ fixed.badTile 0 (tile0 0) = none
    ∧ (fixed.meetTiles 0 [tile0 0] [(hb + 8192, 3)]).badTile 0 (tile0 0) = some (hb + 8192) := by decide +kernel
def bank0 (st : Nat) : Bank :=
  { pav := 0, pass := { pass0 0 with stitch := st }, tiles := [(tile0 0, 0)], rows := [0, 1], cols := 2, stitches := 2
    complete := true }
def holding (s : State) (e st : Nat) : State :=
  s.modEngine e fun g => { g with banks := [(0, bank0 st)], entries := [(0, [f1, f1]), (1, [f1, f2])] }
/-- R147, R188: stitch 1 of two is drained raw and added to stitch 0. -/
def raw1 : State := out (.bankDrain 0 0) (holding (flying (op0 1 3 1 2 0 0)) 0 1)
def raw2 : State := out (.stitchAdd 2 0) (holding raw1 2 0)
theorem test_rawDrain : raw1.stitches.map (fun y => (y.stitch, y.rows, y.cluster)) = [(1, [(0, [f1, f1]), (1, [f1, f2])], 0)]
    ∧ (raw1.engine 0).banks = [] := by decide +kernel
theorem test_stitchAdd : (tfind (raw2.engine 2).banks 0).map (·.added) = some 1
    ∧ (raw2.engine 2).entries = [(0, [f2, f2]), (1, [f2, f4])] ∧ (out (.bankDrain 2 0) raw2).stitches.length = 0 := by
  decide +kernel
/-- R145, R197: a held sum that cannot be read goes, and a second uncorrectable error within 1 s fails the core. -/
theorem test_engineErrors :
    let s := holding raw1 2 0
    let bad := s.modMem fun m => { m with bad := s.stitches.map fun y => y.addr }
    let hot := (holding (flying (op0 1 3 1 2 0 0)) 0 0).modEngine 0 fun g => { g with lastBad := some 999 }
    (out (.stitchAdd 2 0) bad).stitches = [] ∧ ((out (.stitchAdd 2 0) bad).cluster 0).stitchBad = some 1000
    ∧ ((out (.accUncorrectable 0 0) hot).core 0).failed = true ∧ ((out (.accUncorrectable 0 0) hot).engine 0).banks = [] := by
  decide +kernel

/-- What an operation of code k leaves in OUT, and whether it has finished. -/
def ran (f : Fin 8 → TileRef → Instr) (o : Op) : List Nat × Option (List Nat) :=
  let t := out (f 0 (tile0 0)) (flying o)
  (codesOf t o.out, (theRun t).map (·.finished))
/-- R201, R205: sums of elements and along DIM0. -/
theorem test_elementwise : ran .elementwise (op0 0x10 3 1 2 0 (0x20 * 2 ^ 120)) = ([f2, f4, 0x40C00000, 0x41000000], some [0])
    ∧ ran .reduce (op0 0x11 6 1 0 0 0) = ([f3, 0x40E00000], some [0]) := by decide +kernel
/-- R206, R209: LayerNorm of two equal values is 0; softmax of them is one half. -/
theorem test_rows : ran .normFwd (op0 0x18 3 4 5 0 (f1 * 2 ^ 92)) = ([0, 0, 0, 0], some [0])
    ∧ ran .softmaxFwd (op0 0x1A 3 4 0 0 (f1 * 2 ^ 96)) = ([0x3F000000, 0x3F000000, 0x3F000000, 0x3F000000], some [0])
    ∧ (ran .softmaxBwd (op0 0x1B 3 1 4 0 (f1 * 2 ^ 96))).2 = some [0] := by decide +kernel
/-- R208: the first of two tiles of NORM_BWD. -/
theorem test_normBwd : let s := flying (op0 0x19 9 7 10 8 (f1 * 2 ^ 92))
    (theRun (out (.normBwd 0 (tile0 0)) s)).map (fun r => (r.done, r.inflight.length)) = some ([tile0 0], 0)
    ∧ (codesOf (out (.normBwd 0 (tile0 0)) s) 9).length = 32 := by decide +kernel
/-- R208: the last tile of NORM_BWD. -/
theorem test_normBwdLast :
    let last := { tile0 0 with row := 1 }
    let s := (flying (op0 0x19 9 7 10 8 (f1 * 2 ^ 92))).modRun 0 fun r => { r with
      done := [tile0 0], inflight := [{ tile := last, startedAt := 0 }] }
    (theRun (out (.normBwd 0 last) s)).map (·.finished) = some [0] := by decide +kernel
/-- R211: two buffers of one tie group. -/
theorem test_tieSum :
    let g := img [op0 0x32 3 1 0 0 0, op0 0x5F 0 0 0 0 0]
    let tie := fun (t : Tensor) (u : Nat) => { t with kind := 3, tieGroup := 1, tieUse := u, sliceDim := 6 }
    let h := han { g with tensors := [nullTensor, tie (ten 2 2) 0, tie (ten 2 2) 1, { ten 2 2 with kind := 3, sliceDim := 6 }] }
    let s := (flying (op0 0x32 3 1 0 0 0)).modPav 0 fun v => { v with handles := [(0, h)] }
    codesOf (out (.tieSum 0 (tile0 0)) s) 3 = [f2, f4, 0x40C00000, 0x41000000] := by decide +kernel
/-- R234, R243: a window of 1 × 1 copies; OFFLOAD and RESTORE of a tile finish. -/
theorem test_moverTiles :
    let w := op0 0x20 3 1 0 0 (2 ^ 112 + 2 ^ 96 + 2 ^ 88 + 2 ^ 80 + 2 ^ 56 + 2 ^ 48)
    (ran .windowGather w).2 = some [0] ∧ (ran .offloadOp (op0 0x38 0 1 0 0 0)).2 = some [0]
    ∧ (ran (fun p t => .restoreOp p ⟨t, []⟩) (op0 0x39 3 0 0 0 0)).2 = some [0] := by decide +kernel
/-- R243: an offloaded tile lies in LPDDR5X and leaves its tensor; it comes back with every bit, and a word of it may not be
readable. -/
theorem test_offload :
    let t := out (.offloadOp 0 (tile0 0)) (flying (op0 0x38 0 1 0 0 0))
    let offs := fun (s : State) => ((s.pav 0).map (·.offTiles)).getD []
    let s := (flying (op0 0x39 1 0 0 0 0)).modPav 0 fun v => { v with offTiles := offs t, data := [] }
    let u := { s with mem := t.mem }
    (offs t).map (fun o => o.ranges.map (·.2)) = [[16]] ∧ codesOf t 1 = []
    ∧ codesOf (out (.restoreOp 0 ⟨tile0 0, []⟩) u) 1 = [f1, f2, f3, f4] ∧ offs (out (.restoreOp 0 ⟨tile0 0, []⟩) u) = []
    ∧ (u.meet [(lp, 3)] fun w => overlaps w (codeWord w) lp 16).badRead lp 16 = some lp := by decide +kernel

/-! ### The shard ledger -/

/-- A layout of one position, this module's, and one shard of a 2 × 2 parameter. -/
def lay0 : Layout :=
  { bytes := [1, 2], job := 1, epoch := 2, sliceCount := 1, holders := [{ pav := 0, device := 5, firstSlice := 0 }]
    map := [{ initAddr := 0, pieceRows := 2, pieces := 1, cols := 2, layer := 0, tensor := 1, cls := 2, form := 0
              slotTier := false, gradTier := false }]
    perDie := 1, base := 0 }
/-- Shard 0, reduced, with its slots at page 16 and its gradients at page 32 of granule 4. -/
def rec0 : Rec :=
  { slotPage := hb / 4096 + 16, gradPage := hb / 4096 + 32, length := 4, cols := 2, tensor := 1, valid := true, cls := 2
    state := 2, gradNext := true }
/-- Tensors 1 PARAMETER, 2 its GRADIENT, 3 the hyper-parameters; UPDATE of 1. -/
def upd : Image :=
  { img [op0 0x40 0 1 2 0 (3 * 2 ^ 112), op0 0x5F 0 0 0 0 0] with
    tensors := [nullTensor, { ten 2 2 with kind := 2, sharded := true, cls := 2, format := 6 },
      { ten 2 2 with kind := 3, sharded := true, owner := 1 }, { ten 64 1 with kind := 5, format := 10, bindAddr := hb }] }
def vL : Pav := { pav0 with handles := [(0, { han upd with constants := [(3, hb, 64)] })], reshape := { active := some lay0 } }
/-- Pavilion 0 with shard 0, without and with a run. -/
def led (v : Pav) (r : Rec) : State :=
  { up with pavs := [(0, v)], route := { active := some plane0 }, ledger := { recs := [(0, r)] } }
def ledRun (v : Pav) (r : Rec) : State := with_ (led { v with run := some run0 } r) stepCmd
def recStaged : Rec := { rec0 with staged := true, state := 3, sealSeq := 1 }
def seal0 : Sealing := { seq := 1, todo := [0] }

/-- R272, R276: staging leaves the current slot current. -/
theorem test_update :
    let t := out (.update 0 0 0) (ledRun vL rec0)
    (t.shard 0).staged = true ∧ (t.shard 0).state = 3 ∧ (t.shard 0).cur = false ∧ (t.shard 0).sealSeq = 1 := by decide +kernel
/-- R281, R282: the seal of the running step, and that of a started SHARD_UPDATE. -/
theorem test_seal :
    let c := { of0 0x0410 [0] with phase := .started }
    (((out (.sealWrite 0) (ledRun vL recStaged)).pav 0).bind (·.sealing)) = some seal0
    ∧ (((out (.sealWrite 0) (with_ (led vL recStaged) c)).pav 0).bind (·.sealing)).map (·.cmd) = some (some 1) := by
  decide +kernel
/-- R283: the only staged shard commits and DONE is written; the UPDATE finishes. -/
theorem test_commit :
    let t := out (.shardCommit 0 0) (ledRun { vL with sealing := some seal0, stepSeq := 1 } recStaged)
    (t.shard 0).cur = true ∧ (t.shard 0).version = 1 ∧ (t.shard 0).staged = false ∧ ((t.pav 0).bind (·.sealing)) = none
    ∧ (theRun t).map (·.finished) = some [0] := by decide +kernel
/-- R285: an interrupted seal is rolled forward; a stopped pavilion's is not. -/
theorem test_rollForward :
    let v := { vL with sealing := some { seal0 with halted := true }, stepSeq := 1 }
    (((out (.rollForward 0) (led v recStaged)).pav 0).bind (·.sealing)) = none
    ∧ ((out (.rollForward 0) (led v recStaged)).shard 0).version = 1
    ∧ out (.rollForward 0) (led { v with stopped := true } recStaged) = led { v with stopped := true } recStaged := by
  decide +kernel

/-- R291: the reduced shard 0 with hyper-parameters at the granule's start; expert: a list and its gradients. -/
theorem test_shardUpdate :
    let c := of0 0x0410 [0, hb]
    let e := { of0 0x0410 [hb + 64, hb, hb + 256, 2 ^ 32] with expert := true }
    isDue (with_ (led vL rec0) c) 0x0410 c = true ∧ isDue (with_ (led vL rec0) e) 0x0410 e = true
    ∧ ((out (.shardUpdate 1) (with_ (led vL rec0) c)).shard 0).staged = true
    ∧ ((out (.shardUpdate 1) (with_ (led vL { rec0 with state := 4 }) e)).shard 0).staged = true := by decide +kernel
/-- R292: a record, and the four kinds of the expert form. -/
theorem test_ledgerQuery :
    let c := of0 0x0418 [0]
    let e := fun (k : Nat) => { of0 0x0418 [hb, 2 ^ 32, k * 2 ^ 56] with expert := true }
    let s := led { vL with journal := [(0, { stepSeq := 0, sealTime := 0, programId := 7, stagedCount := 0, opIndex := 0, state := 2, kind := 0 })] } rec0
    isDue (with_ s c) 0x0418 c = true ∧ (out (.ledgerQuery 1) (with_ s c)).cmd 1 = none
    ∧ ([0, 1, 2, 3].all fun k => isDue (with_ s (e k)) 0x0418 (e k) && ((out (.ledgerQuery 1) (with_ s (e k))).cmd 1).isNone) = true := by
  decide +kernel
/-- R293: FORWARD, CLEAR, REDIGEST's condition, FREEZE and UNFREEZE. -/
theorem test_ledgerRepair :
    let c := of0 0x0419 []
    let e := fun (a : Nat) => { of0 0x0419 [a, 0] with expert := true }
    let sealed := led { vL with sealing := some { seal0 with halted := true }, stepSeq := 1 } recStaged
    isDue (with_ sealed c) 0x0419 c = true ∧ ((out (.ledgerRepair 1) (with_ sealed c)).shard 0).version = 1
    ∧ ((out (.ledgerRepair 1) (with_ (led vL recStaged) (e 2))).shard 0).staged = false
    ∧ ((out (.ledgerRepair 1) (with_ (led vL rec0) (e 6))).shard 0).frozen = true
    ∧ ((out (.ledgerRepair 1) (with_ (led vL { rec0 with frozen := true }) (e 7))).shard 0).frozen = false
    ∧ isDue (with_ (led vL rec0) (e 5)) 0x0419 (e 5) = true := by decide +kernel
/-- R288, R293: the journal entry of the coming step reads in neither copy: the staged shards count as sealed. -/
theorem test_sealedAnyway :
    let c := of0 0x0419 []
    let s := with_ { led vL recStaged with power := { pwrGood := true, shut := [0] } } c
    isDue s 0x0419 c = true ∧ s.sealedAnyway 0 = [0] := by decide +kernel
/-- R293: REVERT of the committed step 1. -/
theorem test_revert :
    let c := { of0 0x0419 [3, 0] with expert := true }
    let v := { vL with
      stepSeq := 1
      journal := [(1, { stepSeq := 1, sealTime := 0, programId := 7, stagedCount := 1, opIndex := 1, state := 2, kind := 0 })] }
    let s := with_ (led v { rec0 with state := 4, cur := true, version := 1, sealSeq := 1, gradCur := true }) c
    isDue s 0x0419 c = true ∧ ((out (.ledgerRepair 1) s).shard 0).version = 0 ∧ ((out (.ledgerRepair 1) s).shard 0).cur = false
    ∧ ((out (.ledgerRepair 1) s).shard 0).state = 2 := by decide +kernel
/-- R280, R293: REWRITE of a record over a slot of zeros, with the digest of an independent SHAKE256. -/
theorem test_rewrite :
    let r := { rec0 with state := 0, gradNext := false, digest := 114268687748811223277491640801709736057 }
    let c := { of0 0x0419 ([4, 0] ++ words 8 (recBytes r)) with expert := true }
    let s := with_ (led vL { r with damaged := true }) c
    isDue s 0x0419 c = true ∧ ((out (.ledgerRepair 1) s).shard 0).damaged = false := by decide +kernel

/-! ### Reshape -/

/-- The layout block of `lay0`, with the digest of an independent SHAKE256. -/
def layBytes : List Byte :=
  leBytes 48 0x10000000200000001000000800000004000000060000100010000400000000000000000000000000154534C50
    ++ leBytes 16 257708468270419960095971168246647146666 ++ leBytes 8 (5 * 2 ^ 32) ++ List.replicate 24 0
    ++ leBytes 32 (2 * 2 ^ 160 + 2 ^ 128 + 2 * 2 ^ 104 + 2 ^ 76 + 2 * 2 ^ 74)
def lay1 : Layout := { lay0 with bytes := layBytes }
/-- The same block with EPOCH 1, and with EPOCH 3 and module 6 as its holder. -/
def layFirst : List Byte :=
  leBytes 48 0x10000000100000001000000800000004000000060000100010000400000000000000000000000000154534C50
    ++ leBytes 16 105101275904258148904456013457996434916 ++ layBytes.drop 64
def layAway : List Byte :=
  leBytes 48 0x10000000300000001000000800000004000000060000100010000400000000000000000000000000154534C50
    ++ leBytes 16 119305039994277297699671136980832714981 ++ leBytes 8 (6 * 2 ^ 32) ++ layBytes.drop 72
/-- R298, R307: the fields of the block. -/
theorem test_layout : (match parseLayout layBytes 128 5 0 with | .ok l => decide (l = lay1) | _ => false) = true := by decide +kernel
/-- R304: the module without shards waits for shard 0. -/
theorem test_reshapeBegin :
    let c := of0 0x0430 [hb, 128]
    let s := (with_ (led { vL with reshape := {} } {}) c).writeMem hb layBytes
    isDue s 0x0430 c = true ∧ ((out (.reshapeBegin 1) s).pav 0).map (fun v => (v.reshape.state, v.reshape.expect)) = some (1, [0])
    := by decide +kernel
/-- Module 6 speaks level 2 only. -/
def levelOf2 (s : State) : State := s.modRoute fun r => { r with active := r.active.map fun (p : Plane) => { p with
  entries := tset p.entries 6 { port := 0, dateline := false, partition := 0xFFF, level2 := true } } }
/-- R301, R305, R316, R327: a first layout creates its shards and is ready; a shard that leaves is sent and waits for its
acknowledgement; one for a module of level 2 ends the command. -/
theorem test_reshapeMoves :
    let c := of0 0x0430 [hb, 128]
    let make := (with_ (led { vL with reshape := {} } {}) c).writeMem hb layFirst
    let away := (with_ (led { vL with reshape := { active := some lay1 } } { rec0 with state := 4 }) c).writeMem hb layAway
    let of := fun (s : State) => ((out (.reshapeBegin 1) s).pav 0).map fun v => (v.reshape.state, v.reshape.unacked)
    of make = some (2, []) ∧ ((out (.reshapeBegin 1) make).shard 0).migrating = true ∧ (out (.reshapeBegin 1) make).cmd 1 = none
    ∧ of away = some (1, [0]) ∧ ((out (.reshapeBegin 1) away).shard 0).migrating = true
    ∧ (out (.reshapeBegin 1) away).cmd 1 ≠ none ∧ (out (.reshapeBegin 1) (levelOf2 away)).cmd 1 = none
    ∧ of (levelOf2 away) = some (1, [0]) := by decide +kernel
def vOpen : Pav := { pav0 with reshape := { state := 1, pending := some lay0, cmd := some 1, expect := [0], unacked := [7], transferMs := 1000 } }
def opened : State := with_ (led vOpen {}) { of0 0x0430 [hb, 128] with phase := .started }
/-- R305, R306: shard 0 arrives with an intact digest; acknowledgements; the timeout. -/
theorem test_arrival :
    let m : ShardMsg := { src := 6, srcPav := 0, rcd := { rec0 with digest := 114268687748811223277491640801709736057 }
                          slot := List.replicate 24 0, other := [], grad := [], hyper := [] }
    let t := out (.shardArrival 0 m) opened
    (t.pav 0).map (fun v => v.reshape.arrived) = some [0] ∧ (t.shard 0).valid = true := by decide +kernel
theorem test_transfer :
    let late := { opened with time := { up.time with btime := 1000000000, elapsed := 1000000000 } }
    ((out (.reshapeShardAck 0 7 true) opened).pav 0).map (fun v => v.reshape.unacked) = some []
    ∧ out (.reshapeShardAck 0 7 false) opened = opened.sendShards 0 lay0 false [7]
    ∧ (out (.reshapeTransferTimeout 0) late).cmd 1 = none := by decide +kernel
/-- R308 to R311, R313. -/
theorem test_reshapeEnd :
    let ready := { vL with reshape := { state := 2, pending := some { lay0 with epoch := 3 }, active := some lay0 } }
    let doneV := { vL with reshape := { state := 3, previous := some lay0, active := some { lay0 with epoch := 3 } } }
    let co := of0 0x0431 [3 * 2 ^ 32]
    let cx := { of0 0x0431 [3 * 2 ^ 32, 1000] with expert := true }
    let ab := of0 0x0432 []
    let re := of0 0x0433 [3 * 2 ^ 32]
    let lq := of0 0x0434 []
    let lx := { of0 0x0434 [hb, 0] with expert := true }
    let epoch := fun (s : State) => (s.pav 0).bind fun v => v.reshape.active.map (·.epoch)
    let armed := out (.reshapeCommit 1) (with_ (led ready rec0) cx)
    isDue (with_ (led ready rec0) co) 0x0431 co = true ∧ epoch (out (.reshapeCommit 1) (with_ (led ready rec0) co)) = some 3
    ∧ isDue (with_ (led ready rec0) cx) 0x0431 cx = true ∧ epoch armed = some 2 ∧ epoch (out (.reshapeCommitAt 0) armed) = some 3
    ∧ isDue (with_ (led doneV rec0) ab) 0x0432 ab = true ∧ epoch (out (.reshapeAbort 1) (with_ (led doneV rec0) ab)) = some 2
    ∧ isDue (with_ (led doneV rec0) re) 0x0433 re = true
    ∧ ((out (.reshapeRelease 1) (with_ (led doneV { rec0 with migrating := true }) re)).shard 0).valid = false
    ∧ isDue (with_ (led vL rec0) lq) 0x0434 lq = true ∧ (out (.layoutQuery 1) (with_ (led vL rec0) lq)).cmd 1 = none
    ∧ isDue (with_ (led vL rec0) lx) 0x0434 lx = true ∧ (out (.layoutQuery 1) (with_ (led vL rec0) lx)).cmd 1 = none := by
  decide +kernel

/-! ### Collectives -/

/-- Two positions, devices 6 and 5, of 16 shards; this module is the second. -/
def lay2 : Layout :=
  { lay0 with
    sliceCount := 2, perDie := 2, holders := [{ pav := 0, device := 6, firstSlice := 0 }, { pav := 0, device := 5, firstSlice := 1 }]
    map := [{ initAddr := 0, pieceRows := 1, pieces := 16, cols := 2, layer := 0, tensor := 1, cls := 2, form := 0
              slotTier := false, gradTier := false }] }
/-- Operation 0 reduces tensor 3, per slice, into the sharded gradient 2; operation 1 gathers tensor 1 into 4. -/
def collImg : Image :=
  { img [op0 0x31 2 3 0 0 0, op0 0x30 4 1 0 0 0, op0 0x5F 0 0 0 0 0] with
    sliceCount := 2
    tensors := [nullTensor, { ten 2 16 with kind := 2, sharded := true, cls := 2, format := 6 },
      { ten 2 16 with kind := 3, sharded := true, owner := 1 }, { ten 2 16 with kind := 3, sliceDim := 6 }, { ten 2 16 with format := 6 }] }
def vC : Pav := { pav0 with handles := [(0, han collImg)], reshape := { active := some lay2 }, run := some { run0 with progressMs := 100 } }
def collS (v : Pav) : State :=
  { with_ (led v {}) stepCmd with
    ledger := { recs := (List.range 8).map fun k => (131072 * k + 1, { rec0 with length := 2, shardId := 131072 * k + 1 }) }
    links := linked.links, axes := linked.axes }
def coll0 : Coll := { op := 0, reduce := true, startedAt := 0, lastMsg := 0 }
def msg0 : CollMsg :=
  { src := 6, job := 1, epoch := 2, opIndex := 0, jobStep := 0, shard := 1, stripe := 0, elemOffset := 0, nextSlice := 1, data := [f1, f1] }
/-- R251, R355, R358: the gather does not start before the reduction; position 1 waits for the chain; the gather sends its
eight shards and waits for the others. -/
theorem test_collStart :
    let t := out (.reduceScatter 0 0) (collS vC)
    let begun := (collS vC).modRun 0 fun r => { r with startedOps := [0] }
    out (.gatherShards 0 1) (collS vC) = collS vC
    ∧ ((t.pav 0).map (·.colls)) = some [{ coll0 with startedAt := 1000, lastMsg := 1000 }] ∧ (t.shard 1).state = 1
    ∧ ((((out (.gatherShards 0 1) begun).pav 0).map fun v => v.colls.map fun c => (c.op, c.reduce, c.done)) = some [(1, false, false)]) := by
  decide +kernel
/-- R354, R356, R361: a running sum is folded and passed to the shard's holder, a message of the next step is held, an
acknowledgement returns credit, and COLL_ABORT or 100 ms of silence end the run. -/
theorem test_collMessages :
    let s := collS { vC with colls := [coll0], data := [{ handle := 0, tensor := 3, slice := 1, zero := true }] }
    let gs := collS { vC with colls := [{ coll0 with op := 1, reduce := false }] }
    let un := collS { vC with colls := [{ coll0 with unacked := [(6, 1, 0, 40)] }] }
    let folded := fun (s : State) => (s.coll 0 0).map fun c => c.folded.length
    folded (out (.chainSum 0 msg0) s) = some 1
    ∧ ((out (.chainResult 0 { msg0 with shard := 1 }) s).coll 0 0).map (fun c => c.placed.length) = some 1
    ∧ ((out (.gatherPiece 0 { msg0 with opIndex := 1, shard := 0, data := [0x3F80, 0x3F80] }) gs).coll 0 1).map (fun c => c.placed.length) = some 1
    ∧ ((out (.chainSum 0 { msg0 with jobStep := 1 }) s).pav 0).map (fun v => v.held.length) = some 1
    ∧ ((out (.collAck 0 msg0) un).coll 0 0).map (fun c => c.unacked.length) = some 0
    ∧ (theRun (out (.collAbort 0 msg0) s)).isNone = true
    ∧ (theRun (out (.collectiveTimeout 0 0) { s with time := { up.time with btime := 100000000, elapsed := 100000000 } })).isNone = true := by
  decide +kernel
/-- R309, R355, R357: the first position starts the chains; a stripe of another hand-over is passed on; a message of another
EPOCH ends a started operation and is answered and held for one that is not; a COLL_ABORT ends an operation as it starts; a
fenced partition takes no message. -/
theorem test_collOthers :
    let here := { lay2 with holders := [{ pav := 0, device := 5, firstSlice := 0 }, { pav := 0, device := 6, firstSlice := 1 }] }
    let s := collS vC
    let on := collS { vC with colls := [coll0] }
    let t := out (.reduceScatter 0 0) (collS { vC with reshape := { active := some here }, data := [{ handle := 0, tensor := 3, slice := 0, zero := true }] })
    let held := fun (s : State) => (s.pav 0).map fun v => v.held.length
    ((t.coll 0 0).map fun c => (c.folded.length, c.outbox.length + c.unacked.length, c.done)) = some (16, 16, false)
    ∧ s.relayTo lay2 0x20 { msg0 with stripe := 1, nextSlice := 0 } = some 6
    ∧ held (out (.chainSum 0 { msg0 with stripe := 1, nextSlice := 0 }) s) = some 0
    ∧ (theRun (out (.chainSum 0 { msg0 with epoch := 3 }) on)).isNone = true
    ∧ held (out (.chainSum 0 { msg0 with epoch := 3 }) s) = some 1 ∧ held (out (.chainSum 0 msg0) s) = some 1
    ∧ held (out (.collAbort 0 msg0) (out (.chainSum 0 msg0) s)) = some 1
    ∧ (theRun (out (.reduceScatter 0 0) (out (.collAbort 0 msg0) s))).isNone = true
    ∧ out (.chainSum 0 msg0) { s with route := { s.route with fences := [vC.partition] } } = { s with route := { s.route with fences := [vC.partition] } } := by
  decide +kernel


/-! ### Twins -/

/-- Pavilion 0 with shard 0 and its twin 6. -/
def vTwin (f : TwinSt → TwinSt) : Pav := { vL with twin := f { state := 2, id := 6, pav := 0 } }
def recP : Rec := { rec0 with state := 0, gradNext := false, paired := true }
/-- R378: an identity, a matching offer. -/
def offer0 : PairOffer := { id := 6, pav := 0, partition := 7, job := some 1, digest := 77, time := 0 }
theorem test_twinPair :
    let c := of0 0x0601 [6]
    let v := { pav0 with reshape := { active := some lay0 } }
    let state := fun (s : State) => (out (.twinPair 1) s).twin 0
    isDue (with_ (led v {}) c) 0x0601 c = true ∧ 0 < (led v {}).room v 1 ∧ (state (with_ (led v {}) c)).state = 1
    ∧ (state (with_ (led v {}) c)).fullEvery = 64
    ∧ (state (with_ (led { v with twin := { offer := some offer0 } } {}) c)).state = 2
    ∧ (state (with_ (led { v with twin := { offer := some offer0 } } {}) c)).digest = 77 := by decide +kernel
/-- R376, R389: UNPAIR of a pair and of kept mirrors, and RESTORE of the layout's one shard. -/
theorem test_twinUnpair :
    let c := of0 0x0602 []
    let kept := { pav0 with twin := { mirrors := [(9, { rcd := recP, slotPage := 0, gradPage := 0 })] } }
    isDue (with_ (led (vTwin id) recP) c) 0x0602 c = true
    ∧ ((out (.twinUnpair 1) (with_ (led (vTwin id) recP) c)).twin 0).state = 0
    ∧ ((out (.twinUnpair 1) (with_ (led (vTwin id) recP) c)).shard 0).paired = false
    ∧ ((out (.twinUnpair 1) (with_ (led kept {}) c)).twin 0).mirrors = [] := by decide +kernel
theorem test_twinRestore :
    let c := of0 0x0603 [6, hb, 128]
    let s := (with_ (led pav0 {}) c).writeMem hb layBytes
    isDue s 0x0603 c = true ∧ ((out (.twinRestore 1) s).twin 0).restore = some { cmd := 1, id := 6, pav := 0 } := by
  decide +kernel
/-- R385, R388. -/
theorem test_twinCommands :
    let c := of0 0x0610 []
    let d := of0 0x0611 [0]
    let e := { of0 0x0611 [2 * 2 ^ 56] with expert := true }
    let dis := vTwin fun t => { t with disagree := [{ shard := 0, version := 0, mirror := false, hold := true }] }
    isDue (with_ (led (vTwin id) recP) c) 0x0610 c = true
    ∧ (out (.digestCompare 1) (levelOf2 (with_ (led (vTwin id) recP) c))).cmd 1 = none
    ∧ ((out (.digestCompare 1) (with_ (led (vTwin id) recP) c)).twin 0).compare.map (·.last) = some 255
    ∧ isDue (with_ (led (vTwin id) recP) d) 0x0611 d = true
    ∧ ((out (.disagreeResolve 1) (with_ (led (vTwin id) recP) d)).twin 0).disagree.map (·.action) = [1]
    ∧ ((out (.disagreeResolve 1) (with_ (led dis recP) e)).twin 0).disagree.map (·.action) = [2] := by decide +kernel

/-- R379, R381: sending, seeding, acknowledgement and the first repetition. -/
theorem test_mirrorSend :
    let pend := led (vTwin id) { recP with mirrorPending := true }
    let sent := fun (n : Nat) => vTwin fun t => { t with outstanding := [(0, n, 0)] }
    ((out (.mirrorSend 0 0) pend).twin 0).outstanding = [(0, 0, 1000)]
    ∧ ((out (.twinSeed 0 0) (led (vTwin id) { recP with paired := false })).twin 0).seeding = [0]
    ∧ ((out (.mirrorAck 0 0 0) (led (sent 0) { recP with paired := false })).shard 0).paired = true
    ∧ ((out (.mirrorAck 0 0 5) (led (sent 0) { recP with version := 6, twinVersion := 4 })).shard 0).twinVersion = 5
    ∧ ((out (.mirrorAck 0 0 6) (led (sent 0) { recP with version := 6, migrating := true })).shard 0).twinVersion = 6
    ∧ ((out (.mirrorRetry 0 0) (led (sent 0) recP)).twin 0).outstanding = [(0, 1, 1000)] := by decide +kernel
/-- R382: suspension at exactly 10 s, and the end of it. -/
theorem test_suspend :
    let s := { led (vTwin fun t => { t with outstanding := [(0, 0, 0)] }) recP with
      time := { up.time with btime := 10000000000, localNs := 10000000000, elapsed := 10000000000 } }
    s.clock = 10000000000 ∧ ((out (.twinSuspend 0) s).twin 0).state = 3 ∧ ((out (.twinSuspend 0) s).shard 0).paired = false
    ∧ ((out (.twinControl 0 .alive) (led (vTwin fun t => { t with state := 3 }) recP)).twin 0).state = 2 := by decide +kernel
/-- R379: mirror data for which there is no LPDDR5X is asked for again. -/
theorem test_mirrorData :
    let m : ShardMsg := { src := 6, srcPav := 0, rcd := recP, slot := List.replicate 24 0, other := [], grad := [], hyper := [] }
    let s := led { vTwin id with lpddr := [] } {}
    s.fromTwin 0 6 0 = true ∧ (s.takeMirror 0 m).2 = none ∧ (out (.mirrorData 0 m) s).pavs = s.pavs := by decide +kernel
/-- R383, R384: a comparison begins, agrees with the mirror's digests, and the mirror side answers. -/
theorem test_digests :
    let open_ : OpenCmp := { forCmd := false, full := false, seq := 3, groups := [(0, 5)], shards := [] }
    let m : DigestMsg := { src := 6, srcPav := 0, full := false, ofMine := true, seq := 3, groups := [(0, 5)], shards := [] }
    ((out (.digestComparison 0) (led (vTwin fun t => { t with due := some (3, false) }) recP)).twin 0).openCmp.map
      (fun o => (o.seq, o.groups.map (·.1))) = some (3, [0])
    ∧ compareDigests ([(0, 5)], []) ([(0, 5)], []) = ([], [])
    ∧ ((out (.twinDigest 0 m) (led (vTwin fun t => { t with openCmp := some open_ }) recP)).twin 0).openCmp = none
    ∧ compareDigests ((led (vTwin id) recP).digestsOf 0 true false (fun _ => false) []) ([], []) = ([], [])
    ∧ (out (.twinDigest 0 { m with ofMine := false, groups := [] }) (led (vTwin id) recP)).pavs
      = (led (vTwin id) recP).pavs := by decide +kernel
/-- R378, R380, R386: an offer, a timeout at exactly 60 s, and a disagreement that a checker works on. -/
theorem test_twinRest :
    let asked := { with_ (led (vTwin fun t => { t with state := 1, cmd := some 1 }) recP) (of0 0x0601 []) with
      time := { up.time with btime := 60000000000, localNs := 60000000000, elapsed := 60000000000 } }
    let d : Disagree := { shard := 0, version := 0, mirror := false, hold := false }
    ((out (.twinControl 0 (.pair 6 0 7 none 77 0)) (led pav0 {})).twin 0).offer.map (·.digest) = some 77
    ∧ ((out (.twinPairTimeout 0) asked).twin 0).state = 0 ∧ (out (.twinPairTimeout 0) asked).cmd 1 = none
    ∧ ((led (vTwin fun t => { t with disagree := [d] }) recP).twin 0).disagree.find? (fun d => d.shard == 0 && !d.hold) = some d
    ∧ (led (vTwin id) recP).anyChecker = true := by decide +kernel

/-! ### Checking, health and self-test -/

/-- R17, R25: active core 0 of cluster 0 fails; the checker begins for it; the stand-in ends. -/
theorem test_coreFailure :
    let t := out (.coreFailure 0 1) up1
    (t.core 0).failed = true ∧ (t.cluster 0).failedCore = some 0
    ∧ (up1.modCluster 0 fun k => { k with failedCore := some 0 }).checkerWorks 0 = true
    ∧ (out (.dieBridgeFailure 9) up1).route.bridgesDown = [9] := by decide +kernel
theorem test_standinEnd :
    let s := ((up1.modCluster 0 fun k => { k with standin := some 0, failedCore := some 0 }).modCore 0 fun k => { k with
      failed := true, passed := true })
    ((out (.standinEnd 0) s).cluster 0).standin = none ∧ ((out (.standinEnd 0) s).core 0).failed = false := by decide +kernel

/-- A sampled tile of 1 + 2 → 3, stored right, and with element (1, 1) wrong. -/
def sample0 (last : Nat) : Sample :=
  { tile := tile0 0, cluster := 0, place := 2, finishedAt := 0, clockAt := 0, initial := []
    stored := [(0, f2), (1, f4), (1024, 0x40C00000), (1025, last)] }
def sampled (x : Sample) : State := (flying (op0 0x10 3 1 2 0 (0x20 * 2 ^ 120))).modPav 0 fun v => { v with samples := [x] }
def samplesOf (s : State) : List Sample := ((s.pav 0).map (·.samples)).getD []
theorem test_checkRun :
    samplesOf (out (.checkRun 0 (tile0 0)) (sampled (sample0 0x41000000))) = []
    ∧ (out (.checkRun 0 (tile0 0)) (sampled (sample0 0x41000000))).check.written = 0
    ∧ (sampled (sample0 f1)).arbiters 0 0 = []
    ∧ (out (.checkRun 0 (tile0 0)) (sampled (sample0 f1))).check.written = 1
    ∧ ((samplesOf (out (.checkRun 0 (tile0 0)) ((sampled (sample0 f1)).modPav 0 fun v => { v with clusters := [0, 1] }))).map
      (·.excess)) = [some (1, 1025, 0x41000000 ^^^ f1)] := by decide +kernel
/-- R391, R393: dropped at exactly 1 ms, and an arbiter of cluster 1. -/
theorem test_arbiter :
    let late := { sampled (sample0 0x41000000) with time := { up.time with btime := 1000000, localNs := 1000000, elapsed := 1000000 } }
    let two := (sampled { sample0 f1 with excess := some (1, 1025, 0x41000000 ^^^ f1) }).modPav 0 fun v => { v with clusters := [0, 1] }
    samplesOf (out (.checkDrop 0 (tile0 0)) late) = [] ∧ ((out (.checkDrop 0 (tile0 0)) late).cluster 0).skipped = [1000000]
    ∧ (two.arbiters 0 0).contains 1 = true
    ∧ (out (.arbiterCheck 1 (tile0 0)) two).check.stickyEvidence.map (fun w => bits w 107 104) = some 1 := by decide +kernel
/-- R397 to R400. -/
theorem test_health :
    let c := fun (op : Nat) (ps : List Nat) => cmdOf op ps
    let rate := { c 0x0620 [16] with target := 0x2003 }
    let rep := { c 0x0910 [hb] with expert := true }
    let prob := c 0x0911 [1]
    isDue (with_ up1 rate) 0x0620 rate = true
    ∧ ((out (.checkRateSet 1) (with_ up1 rate)).cluster 3).rateLog2 = 16
    ∧ ((out (.checkRateSet 1) (with_ up1 { of0 0x0620 [6] with target := 0 })).cluster 0).rateLog2 = 6
    ∧ isDue (with_ up1 rep) 0x0910 rep = true ∧ isDue (with_ up1 (c 0x0910 [])) 0x0910 (c 0x0910 []) = true
    ∧ (out (.healthReport 1) (with_ up1 (c 0x0910 []))).cmd 1 = none ∧ (out (.healthReport 1) (with_ up1 rep)).cmd 1 = none
    ∧ (out .healthScoreUpdate { up1 with check := { facts := [(0, 0)] } }).check.score = 850
    ∧ isDue (with_ up1 prob) 0x0911 prob = true ∧ (out (.probationSet 1) (with_ up1 prob)).check.probation = true
    ∧ (out .probationExpire { up1 with check := { probation := true, probEnd := 1000 } }).check.probation = false := by
  decide +kernel
/-- R421 to R424. -/
theorem test_selftest :
    let b := cmdOf 0x0901 []
    let f := { cmdOf 0x0901 [1] with expert := true, target := 0x2007 }
    let lo := { cmdOf 0x0901 [2] with expert := true, target := 0x5001 }
    isDue (with_ up1 b) 0x0901 b = true ∧ (out (.selftestRun 1 []) (with_ up1 b)).cmd 1 = none
    ∧ isDue (with_ up1 f) 0x0901 f = true ∧ ((out (.selftestRun 1 []) (with_ up1 f)).cluster 7).selfTested = true
    ∧ ((out (.selftestRun 1 []) (with_ up1 f)).core 42).passed = true
    ∧ ((out (.selftestRun 1 [42]) (with_ up1 f)).core 42).retired = true ∧ ((out (.selftestRun 1 [42]) (with_ up1 f)).core 43).passed = true
    ∧ isDue (with_ up1 lo) 0x0901 lo = true ∧ ((out (.selftestRun 1 []) (with_ up1 lo)).axis 1).loopAt = some 1000
    ∧ ((out (.selftestRun 1 [0x5001]) (with_ up1 lo)).axis 1).loopAt = none := by decide +kernel
theorem test_calibrate :
    let c := fun (t : Nat) => { cmdOf 0x0902 [] with target := t }
    let s := { up1 with pavs := [(0, { pav0 with role := 0 })] }
    ([0x6000, 0x7000, 0x5000].all fun t => isDue (with_ s (c t)) 0x0902 (c t)
      && ((out (.calibrate 1 0) (with_ s (c t))).cmd 1).isNone) = true := by decide +kernel

/-! ### Counters and logs -/

/-- R491, R493: a fold wraps at 48 bits; a counter is lost after more than 86,400 s. -/
theorem test_folds :
    let id := ctrId 0 8 0
    let s := { up1 with ctrs := [(id, { raw := 1, last := BitVec.ofNat 48 (2 ^ 48 - 1), total := 5 })]
                        time := { up.time with btime := 599000000000, localNs := 599000000000, elapsed := 599000000000 } }
    let late := { up1 with time := { up.time with localNs := 86400000000001, elapsed := 86400000000001 } }
    (tget (out .counterFoldA s).ctrs id {}).total = 7 ∧ ctrExists id = true ∧ classB id = false
    ∧ (tget (out (.evCounterLost id) late).ctrs id {}).lost = true := by decide +kernel
/-- R498, R499: port 0's five counters, and one entry of the module's log. -/
theorem test_reads :
    let c := { cmdOf 0x0D01 [hb] with target := 0x1000 }
    let l := cmdOf 0x0D02 [hb, 2 ^ 32]
    isDue (with_ up1 c) 0x0D01 c = true ∧ up1.ctrScope c 0 = (List.range 5).map (ctrId 0 8)
    ∧ (out (.countersRead 1) (with_ up1 c)).cmd 1 = none
    ∧ isDue (with_ up1 l) 0x0D02 l = true ∧ (out (.logRead 1) (with_ up1 l)).cmd 1 = none := by decide +kernel

/-! ### Accesses and ceilings that change nothing -/

/-- R55: the completion ring ignores a host write; R41: no step at 99 and at 97 degrees. -/
theorem test_ignored :
    (up.ring 0).writable 0x100000 = false ∧ (out (.bar2Write pf0 0x100000 [1] false) up).mem = up.mem
    ∧ ((out (.thermalCeilingLower 0 99) up).isle 0).therm16 = 25600
    ∧ ((out (.thermalCeilingRaise 0 97) (up.modIsle 0 fun x => { x with therm16 := 22500 })).isle 0).therm16 = 22500 := by
  decide +kernel

/-! ### The whole machine -/

/-- R475 and the canonical form of memory at reset. -/
theorem test_reset : State.reset.memWf = true ∧ State.reset.queueWf = true ∧ State.reset.boot.stage = 0 := by decide +kernel

end Sys2Proof.Tests
end

section
/-! PROOFS. O11: the registers of BAR0 and the MSI-X table of BAR4 take what is written (R6, R90, R441, R443, R465). -/

namespace Sys2Proof.Machine

/-! ### Byte strings (R4) -/

@[simp] theorem leBytes_length (n x : Nat) : (leBytes n x).length = n := by
  induction n generalizing x with
  | zero => rfl
  | succ n ih => simp [leBytes, ih]

@[simp] theorem slice_length (l : List Byte) (o n : Nat) : (slice l o n).length = n := by
  simp only [slice, List.length_append, List.length_replicate, List.length_take]
  omega

theorem leNat_lt (l : List Byte) : leNat l < 256 ^ l.length := by
  induction l with
  | nil => simp [leNat]
  | cons b l ih =>
    have hb := b.isLt
    simp only [leNat, List.length_cons, Nat.pow_succ]
    omega

/-- A number that fits comes back from its bytes. -/
theorem leNat_leBytes {n x : Nat} (h : x < 256 ^ n) : leNat (leBytes n x) = x := by
  induction n generalizing x with
  | zero =>
    obtain rfl : x = 0 := by simpa using h
    rfl
  | succ n ih =>
    have hq : x / 256 < 256 ^ n := by rw [Nat.pow_succ] at h; omega
    simp only [leBytes, leNat, ih hq, BitVec.toNat_ofNat]
    omega

theorem field_lt (l : List Byte) (o n : Nat) : field l o n < 256 ^ n := by
  simpa [field] using leNat_lt (slice l o n)

theorem slice_append_mid (a w b : List Byte) : slice (a ++ w ++ b) a.length w.length = w := by
  simp [slice]

/-- A field that is written in the middle of a string reads as written. -/
theorem field_append_leBytes (a b : List Byte) {n x : Nat} (h : x < 256 ^ n) :
    field (a ++ leBytes n x ++ b) a.length n = x := by
  have hs := slice_append_mid a (leBytes n x) b
  rw [leBytes_length] at hs
  rw [field, hs, leNat_leBytes h]

/-- A number cut to the bits [hi:lo] fits in them. -/
theorem bits_lt (x hi lo : Nat) : bits x hi lo < 2 ^ (hi + 1 - lo) := Nat.mod_lt _ (Nat.two_pow_pos _)

theorem mergeHalf_lt {old v : Nat} (h : Half) (ho : old < 2 ^ 64) (hv : v < 2 ^ 64) : mergeHalf old v h < 2 ^ 64 := by
  cases h <;> simp only [mergeHalf] <;> omega

/-! ### The units of the boot state, read back -/

@[simp] theorem State.modBootPort_bootPort (s : State) (q : Nat) (f : BootPort → BootPort) :
    (s.modBootPort q f).bootPort q = f (s.bootPort q) := by simp [State.modBootPort, State.modBoot, State.bootPort]
@[simp] theorem State.modMbox_mbox (s : State) (q : Nat) (f : Mbox → Mbox) :
    (s.modMbox q f).mbox q = f (s.mbox q) := by simp [State.modMbox, State.modBoot, State.mbox]

/-! ### The registers of the boot group (R90) -/

section
variable {s : State} {r : FnRef} {v : W64} {h : Half} (hl : s.live r) (hfn : r.fn.val = 0)
include hl hfn

theorem registerWrite_bundleAddr : exec (.registerWrite r 0x0020 v h) s
    = .next (s.modBootPort r.port.val fun b =>
        { b with bundleAddr := BitVec.ofNat 64 (mergeHalf b.bundleAddr.toNat v.toNat h) }) := by
  simp [exec, execRegisterWrite, hl, hfn]

theorem registerWrite_bundleBytes : exec (.registerWrite r 0x0028 v h) s
    = .next (s.modBootPort r.port.val fun b =>
        { b with bundleBytes := BitVec.ofNat 32 (mergeHalf b.bundleBytes.toNat v.toNat h) }) := by
  simp [exec, execRegisterWrite, hl, hfn]

end

/-! ### The mailbox (R441, R443) -/

/-- MBOX_OUT with the word at offset o merged with what is written. -/
def Mbox.writeOut (m : Mbox) (o v : Nat) (h : Half) : Mbox :=
  { m with out := slice m.out 0 o ++ leBytes 8 (mergeHalf (field m.out o 8) v h) ++ slice m.out (o + 8) (4096 - (o + 8)) }

theorem Mbox.field_writeOut (m : Mbox) (o : Nat) {v : Nat} (h : Half) (hv : v < 2 ^ 64) :
    field (m.writeOut o v h).out o 8 = mergeHalf (field m.out o 8) v h := by
  have hm : mergeHalf (field m.out o 8) v h < 256 ^ 8 := mergeHalf_lt h (field_lt m.out o 8) hv
  have hf := field_append_leBytes (slice m.out 0 o) (slice m.out (o + 8) (4096 - (o + 8))) hm
  rwa [slice_length] at hf

/-- MBOX_CTRL written in full, before GO acts: REQ_LENGTH and REQUEST as written, DONE cleared by a 1. -/
def Mbox.takeCtrl (m : Mbox) (v : Nat) : Mbox :=
  { m with reqLen := BitVec.ofNat 16 (bits v 47 32), request := BitVec.ofNat 8 (bits v 23 16)
           done := m.done && !bitAt v 1 }

/-- MBOX_CTRL written in full while security firmware runs: GO during a request, GO with a known request, GO with an
unknown one, and no GO. -/
def Mbox.writeCtrl (m : Mbox) (v : Nat) : Mbox :=
  if bitAt v 0 = true then
    if m.busy = true then { m.takeCtrl v with result := 4 }
    else if bits v 23 16 ∈ [1, 2, 3] then { m.takeCtrl v with
      busy := true, curReq := bits v 23 16, curLen := bits v 47 32, curOut := slice m.out 0 36 }
    else { m.takeCtrl v with result := 1, done := true, respLen := 0 }
  else m.takeCtrl v

/-- Whatever GO does, REQ_LENGTH and REQUEST are as written. -/
theorem Mbox.writeCtrl_operands (m : Mbox) (v : Nat) : (m.writeCtrl v).reqLen = BitVec.ofNat 16 (bits v 47 32)
    ∧ (m.writeCtrl v).request = BitVec.ofNat 8 (bits v 23 16) := by
  unfold writeCtrl
  split
  · split
    · exact ⟨rfl, rfl⟩
    · split <;> exact ⟨rfl, rfl⟩
  · exact ⟨rfl, rfl⟩

theorem Mbox.writeCtrl_of_no_go (m : Mbox) {v : Nat} (h : bitAt v 0 = false) : m.writeCtrl v = m.takeCtrl v := by
  simp [writeCtrl, h]
theorem Mbox.writeCtrl_of_busy {m : Mbox} {v : Nat} (hgo : bitAt v 0 = true) (hb : m.busy = true) :
    m.writeCtrl v = { m.takeCtrl v with result := 4 } := by simp [writeCtrl, hgo, hb]
theorem Mbox.writeCtrl_of_request {m : Mbox} {v : Nat} (hgo : bitAt v 0 = true) (hb : m.busy = false)
    (hr : bits v 23 16 ∈ [1, 2, 3]) : m.writeCtrl v = { m.takeCtrl v with
      busy := true, curReq := bits v 23 16, curLen := bits v 47 32, curOut := slice m.out 0 36 } := by
  rw [writeCtrl, if_pos hgo, if_neg (by simp [hb]), if_pos hr]

/-- The model's write to MBOX_CTRL, in full and while security firmware runs, is `Mbox.writeCtrl`. -/
theorem State.writeMboxCtrl_full {s : State} (q v : Nat) (hfw : s.boot.fwRunning = true) :
    s.writeMboxCtrl q v .full = s.modMbox q (·.writeCtrl v) := by
  change _ = s.modMbox q fun _ => (s.mbox q).writeCtrl v
  have hreq : (BitVec.ofNat 8 (bits v 23 16)).toNat = bits v 23 16 := Nat.mod_eq_of_lt (bits_lt v 23 16)
  have hlen : (BitVec.ofNat 16 (bits v 47 32)).toNat = bits v 47 32 := Nat.mod_eq_of_lt (bits_lt v 47 32)
  have hlow : (Half.full != Half.high) = true := rfl
  unfold Mbox.writeCtrl
  cases hgo : bitAt v 0 with
  | false => simp [writeMboxCtrl, Mbox.takeCtrl, hlow, hgo]
  | true =>
    cases hb : (s.mbox q).busy with
    | true => simp [writeMboxCtrl, Mbox.takeCtrl, hlow, hgo, hfw, hb]
    | false => by_cases hr : bits v 23 16 ∈ [1, 2, 3] <;>
        simp [writeMboxCtrl, Mbox.takeCtrl, hlow, hgo, hfw, hb, hr, hreq, hlen]

section
variable {s : State} {r : FnRef} {v : W64} {h : Half} (hl : s.live r) (hfn : r.fn.val = 0)
  (hfw : s.boot.fwRunning = true) (hup : s.roleUp 0 = true)
include hl hfn hfw hup

theorem registerWrite_mboxOut {o : Nat} (ho : o < 4096) (h8 : o % 8 = 0) :
    exec (.registerWrite r (0x1000 + o) v h) s = .next (s.modMbox r.port.val (·.writeOut o v.toNat h)) := by
  have hin : 0x1000 ≤ 0x1000 + o ∧ 0x1000 + o < 0x2000 ∧ (s.boot.fwRunning && s.roleUp 0) = true :=
    ⟨by omega, by omega, by simp [hfw, hup]⟩
  simp only [exec, execRegisterWrite, hl]
  rw [if_neg (by simp), if_neg (by omega), if_neg (by omega), if_neg (by omega), if_neg (by omega), if_neg (by simp [hfn])]
  split
  · omega
  · omega
  · omega
  · rw [if_pos hin, Nat.add_sub_cancel_left]
    rfl

theorem registerWrite_mboxCtrl :
    exec (.registerWrite r 0x3000 v .full) s = .next (s.modMbox r.port.val (·.writeCtrl v.toNat)) := by
  rw [← State.writeMboxCtrl_full _ _ hfw]
  simp [exec, execRegisterWrite, hl, hfn, hfw, hup]

end

/-! ### The MSI-X table and vectors (R460, R465) -/

section
variable (p : PortSt) (q fn vec : Nat)

@[simp] theorem PortSt.openVec_lost : (p.openVec fn vec).lost = p.lost := rfl
@[simp] theorem PortSt.openVec_d3 : (p.openVec fn vec).d3 = p.d3 := rfl
@[simp] theorem PortSt.openVec_msixTable : (p.openVec fn vec).msixTable = p.msixTable := rfl
@[simp] theorem PortSt.openVec_vecPending : (p.openVec fn vec).vecPending = p.vecPending := rfl
@[simp] theorem PortSt.setEntry_vecOpen (key : Nat) (f : Nat → Nat) : (p.setEntry key f).vecOpen = p.vecOpen := rfl

theorem PortSt.openVec_contains : (p.openVec fn vec).vecOpen.contains (fn, vec) = true := by
  unfold openVec
  split
  · next h => exact h
  · simp

/-- The message of a vector is its table entry. -/
theorem PortSt.message_congr {p p' : PortSt} (q fn vec : Nat) (h : p'.msixTable = p.msixTable) :
    p'.message q fn vec = p.message q fn vec := by simp [message, h]

theorem PortSt.message_setEntry_addr (f : Nat → Nat) : (p.setEntry (vecKey fn vec) f).message q fn vec
    = .msix q fn vec (f (tget p.msixTable (vecKey fn vec) 0)) (tget p.msixTable (vecKey fn vec + 1) 0) := by
  simp [message, setEntry]

theorem PortSt.message_setEntry_data (f : Nat → Nat) : (p.setEntry (vecKey fn vec + 1) f).message q fn vec
    = .msix q fn vec (tget p.msixTable (vecKey fn vec) 0) (f (tget p.msixTable (vecKey fn vec + 1) 0)) := by
  simp [message, setEntry]

end

/-- Sending a pending message leaves the table. -/
@[simp] theorem State.unmaskSend_msixTable (s : State) (q fn vec : Nat) :
    ((s.unmaskSend q fn vec).port q).msixTable = (s.port q).msixTable := by
  simp only [unmaskSend]
  split
  · simp
  · rfl

/-- A vector whose message is pending and that nothing masks sends it. -/
theorem State.unmaskSend_of_pending {s : State} {q fn vec : Nat} (hp : (s.port q).vecPending.contains (fn, vec) = true)
    (hon : (s.port q).msixOn.contains fn = true) (hm : (s.port q).fnMasked.contains fn = false)
    (ho : (s.port q).vecOpen.contains (fn, vec) = true) (hs : s.canSend q fn = true) :
    s.unmaskSend q fn vec = (s.modPort q fun p => { p with vecPending := p.vecPending.filter (· != (fn, vec)) }).emit
      ((s.port q).message q fn vec) := by
  simp only [unmaskSend, hp, hon, hm, ho, hs, Bool.not_false, Bool.and_self, if_true]

/-- The lower half of a table entry's second word: the message data. -/
def State.writeVecData (s : State) (q fn vec v : Nat) : State :=
  s.modPort q fun p => p.setEntry (vecKey fn vec + 1) fun _ => v % 2 ^ 32

/-- The mask bit of a vector: set, or cleared with the pending message going out. -/
def State.setVecMask (s : State) (q fn vec : Nat) (mask : Bool) : State :=
  if mask then s.modPort q fun p => { p with vecOpen := p.vecOpen.filter (· != (fn, vec)) }
  else (s.modPort q fun p => p.openVec fn vec).unmaskSend q fn vec

/-- The second word of a table entry, whose upper half is the vector control with the mask at bit 0. -/
def State.writeVecWord (s : State) (q fn vec v : Nat) : Half → State
  | .low => s.writeVecData q fn vec v
  | .high => s.setVecMask q fn vec (bitAt v 0)
  | .full => (s.writeVecData q fn vec v).setVecMask q fn vec (bitAt v 32)

@[simp] theorem State.setVecMask_msixTable (s : State) (q fn vec : Nat) (mask : Bool) :
    ((s.setVecMask q fn vec mask).port q).msixTable = (s.port q).msixTable := by
  cases mask <;> simp [setVecMask]

theorem State.writeVecData_message (s : State) (q fn vec v : Nat) : ((s.writeVecData q fn vec v).port q).message q fn vec
    = .msix q fn vec (tget (s.port q).msixTable (vecKey fn vec) 0) (v % 2 ^ 32) := by
  rw [writeVecData, State.modPort_self, PortSt.message_setEntry_data]

/-- A write that covers the lower half sets the data of the vector's message. -/
theorem State.writeVecWord_message (s : State) (q fn vec v : Nat) {h : Half} (hh : h ≠ .high) :
    ((s.writeVecWord q fn vec v h).port q).message q fn vec
      = .msix q fn vec (tget (s.port q).msixTable (vecKey fn vec) 0) (v % 2 ^ 32) := by
  rw [← s.writeVecData_message]
  cases h with
  | low => rfl
  | high => exact absurd rfl hh
  | full => exact PortSt.message_congr q fn vec (State.setVecMask_msixTable ..)

/-- A full write with the mask bit set masks the vector and sends nothing. -/
theorem State.writeVecWord_mask {s : State} (q fn vec : Nat) {v : Nat} (hb : bitAt v 32 = true) :
    ((s.writeVecWord q fn vec v .full).port q).vecOpen = (s.port q).vecOpen.filter (· != (fn, vec))
      ∧ (s.writeVecWord q fn vec v .full).out = s.out := by
  simp [writeVecWord, setVecMask, writeVecData, hb]

section
variable {s : State} {r : FnRef} {v : W64} {vec : Nat} (hl : s.live r) (hvec : vec < 64)
include hl hvec

/-- The first word of a table entry is the message address. -/
theorem registerWrite_msixAddr (h : Half) : exec (.registerWrite r (0x18000 + 16 * vec) v h) s
    = .next (s.modPort r.port.val fun p => p.setEntry (vecKey r.fn.val vec) fun a => mergeHalf a v.toNat h) := by
  have hi : (0x18000 + 16 * vec - 0x10000 - 0x8000) / 16 = vec := by omega
  simp only [exec, execRegisterWrite, hl, hi]
  rw [if_neg (by simp), if_neg (by omega), if_neg (by omega), if_pos (by omega), if_pos (by omega)]

theorem registerWrite_vecWord (h : Half) : exec (.registerWrite r (0x18008 + 16 * vec) v h) s
    = .next (s.writeVecWord r.port.val r.fn.val vec v.toNat h) := by
  have hi : (0x18008 + 16 * vec - 0x10000 - 0x8000) / 16 = vec := by omega
  have hbit : bitAt (v.toNat / 2 ^ 32) 0 = bitAt v.toNat 32 := Nat.testBit_div_two_pow v.toNat 0
  simp only [exec, execRegisterWrite, hl, hi]
  rw [if_neg (by simp), if_neg (by omega), if_neg (by omega), if_pos (by omega), if_neg (by omega), if_pos (by omega)]
  cases h with
  | low => rfl
  | high => cases hb : bitAt v.toNat 0 <;> simp [State.writeVecWord, State.setVecMask, hb]
  | full =>
    rw [if_neg nofun, if_pos rfl, hbit]
    cases hb : bitAt v.toNat 32 <;> simp [State.writeVecWord, State.setVecMask, State.writeVecData, hb]

end

/-- MSIX_UNMASK clears the mask bit, as a write to the vector control does. -/
theorem msixUnmask_eq (r : FnRef) (vec : Fin 64) (s : State) :
    exec (.msixUnmask r vec) s = .next (s.setVecMask r.port.val r.fn.val vec.val false) := rfl

/-- Clearing the mask bit of a vector whose message is pending sends that message. -/
theorem State.setVecMask_send {s : State} {q fn vec : Nat} (hp : (s.port q).vecPending.contains (fn, vec) = true)
    (hon : (s.port q).msixOn.contains fn = true) (hm : (s.port q).fnMasked.contains fn = false)
    (hs : s.canSend q fn = true) :
    (s.setVecMask q fn vec false).out = s.out ++ [(s.port q).message q fn vec]
      ∧ ((s.setVecMask q fn vec false).port q).vecPending = (s.port q).vecPending.filter (· != (fn, vec))
      ∧ ((s.setVecMask q fn vec false).port q).vecOpen.contains (fn, vec) = true := by
  have ho := (s.port q).openVec_contains fn vec
  have hsent : s.setVecMask q fn vec false = ((s.modPort q fun p => p.openVec fn vec).modPort q fun p =>
      { p with vecPending := p.vecPending.filter (· != (fn, vec)) }).emit ((s.port q).message q fn vec) := by
    have hu := State.unmaskSend_of_pending (s := s.modPort q fun p => p.openVec fn vec) (q := q) (fn := fn) (vec := vec)
    simp only [State.modPort_self] at hu
    exact hu hp hon hm ho (by simpa [canSend] using hs)
  rw [hsent]
  refine ⟨rfl, ?_, ?_⟩
  · simp
  · simpa using ho

end Sys2Proof.Machine

open Sys2Proof Sys2Proof.Machine

/-! ### O11 -/

/-- Settles O11: each write is one equation of `exec`, and its clauses read the written unit back. -/
theorem registersTakeWrites : Obligations.RegistersTakeWrites := by
  intro r v h s hl q fn same
  refine ⟨fun hfn => ⟨?_, ?_, fun hfw hup => ⟨fun o ho h8 => ?_, ?_⟩⟩, ?_, fun vec hvec hh => ⟨?_, ?_⟩, ?_⟩
  · exact ⟨_, registerWrite_bundleAddr hl hfn, by simp [q], rfl, rfl, rfl⟩
  · exact ⟨_, registerWrite_bundleBytes hl hfn, by simp [q], rfl, rfl, rfl⟩
  · refine ⟨_, registerWrite_mboxOut hl hfn hfw hup ho h8, ?_, rfl, rfl, rfl⟩
    rw [State.modMbox_mbox, Mbox.field_writeOut _ _ _ v.isLt]
  · rintro rfl
    refine ⟨_, registerWrite_mboxCtrl hl hfn hfw hup, ?_⟩
    rw [State.modMbox_mbox]
    obtain ⟨hlen, hreq⟩ := Mbox.writeCtrl_operands (s.mbox q) v.toNat
    refine ⟨hlen, hreq, fun hgo => ?_, fun hgo hb => ?_, fun hgo hb hr => ?_,
      rfl, rfl, rfl⟩
    · rw [Mbox.writeCtrl_of_no_go _ hgo]; exact ⟨rfl, rfl⟩
    · rw [Mbox.writeCtrl_of_busy hgo hb]
    · rw [Mbox.writeCtrl_of_request hgo hb hr]; exact ⟨rfl, rfl, rfl, rfl⟩
  · rintro vec hvec hb rfl
    exact ⟨_, registerWrite_vecWord hl hvec .full, State.writeVecWord_mask q fn vec hb⟩
  · refine ⟨_, registerWrite_msixAddr hl hvec h, rfl, ?_⟩
    rw [State.modPort_self, PortSt.message_setEntry_addr]
  · exact ⟨_, registerWrite_vecWord hl hvec h, s.writeVecWord_message q fn vec _ hh⟩
  · exact fun vec hp hon hm hs => ⟨_, msixUnmask_eq r vec s, State.setVecMask_send hp hon hm hs⟩
end

section
/-! PROOFS. O22: clock islands follow their target and their ceilings, count their droops and step their thermal ceiling
(R39 to R41, R43). -/

namespace Sys2Proof.Machine

/-! ### Counters (R491, R495) -/

theorem State.count_raw_self (s : State) (k n : Nat) :
    (tget (s.count k n).ctrs k {}).raw = (tget s.ctrs k {}).raw + BitVec.ofNat 48 n := by simp [State.count]
theorem State.count_raw_ne (s : State) {k j : Nat} (n : Nat) (h : j ≠ k) :
    (tget (s.count k n).ctrs j {}).raw = (tget s.ctrs j {}).raw := by simp [State.count, h]

theorem ctrId_ne_of_index_ne {u b i j : Nat} (h : i ≠ j) : ctrId u b i ≠ ctrId u b j := by unfold ctrId; omega

/-! ### What measuring and reporting leave of the islands -/

@[simp] theorem State.modUnitTemp_isle (s : State) (u : Nat) (f : UnitTemp → UnitTemp) (j : Nat) :
    (s.modUnitTemp u f).isle j = s.isle j := rfl
@[simp] theorem State.modUnitTemp_clock (s : State) (u : Nat) (f : UnitTemp → UnitTemp) :
    (s.modUnitTemp u f).clock = s.clock := rfl

theorem State.isle_of_quiet {s t : State} (h : t.quiet = s.quiet) (j : Nat) : t.isle j = s.isle j := by
  change t.quiet.isle j = s.quiet.isle j
  rw [h]

@[simp] theorem State.postModule_isle (s : State) (code sev place : Nat) (d : List Byte) (j : Nat) :
    (s.postModule code sev place d).isle j = s.isle j := isle_of_quiet (s.quiet_postModule code sev place d) j

@[simp] theorem State.setTemp_isle_self (s : State) (i c : Nat) :
    (s.setTemp i c).isle i = { s.isle i with tempC := c } := by simp [State.setTemp]
@[simp] theorem State.setTemp_isle_ne (s : State) {i j : Nat} (c : Nat) (h : j ≠ i) :
    (s.setTemp i c).isle j = s.isle j := by simp [State.setTemp, h]
@[simp] theorem State.setTemp_clock (s : State) (i c : Nat) : (s.setTemp i c).clock = s.clock := rfl

/-- THERM_ALERT_N is a field of the power state. -/
theorem State.updateAlert_eq_modPower (s : State) : ∃ f, s.updateAlert = s.modPower f := by
  unfold State.updateAlert
  dsimp only
  split
  · exact ⟨_, rfl⟩
  · split
    · exact ⟨_, rfl⟩
    · exact ⟨id, rfl⟩

@[simp] theorem State.updateAlert_isle (s : State) (j : Nat) : s.updateAlert.isle j = s.isle j := by
  obtain ⟨f, hf⟩ := s.updateAlert_eq_modPower
  rw [hf, State.modPower_isle]
@[simp] theorem State.updateAlert_clock (s : State) : s.updateAlert.clock = s.clock := by
  obtain ⟨f, hf⟩ := s.updateAlert_eq_modPower
  rw [hf, State.modPower_clock]

@[simp] theorem State.updateLimited_isle (s : State) (u c j : Nat) : (s.updateLimited u c).isle j = s.isle j := by
  unfold State.updateLimited
  dsimp only
  split
  · rfl
  · rw [State.postModule_isle, State.modUnitTemp_isle]

/-! ### Targets, frequencies and droops (R39, R40, R43) -/

theorem islandTargetSet_of_mem (i : Fin 332) {mhz : Nat} {s : State} (hup : s.roleUp 1 = true)
    (hlo : (rangeMhz i.val).1 ≤ mhz) (hhi : mhz ≤ (rangeMhz i.val).2) :
    exec (.islandTargetSet i mhz) s = .next (s.modIsle i.val fun x => { x with targetMhz := mhz }) := by
  simp [exec, execIslandTargetSet, hup, hlo, hhi]

theorem islandTargetSet_of_not_mem (i : Fin 332) {mhz : Nat} (s : State)
    (h : mhz < (rangeMhz i.val).1 ∨ (rangeMhz i.val).2 < mhz) : exec (.islandTargetSet i mhz) s = .next s := by
  have hout : ¬((rangeMhz i.val).1 ≤ mhz ∧ mhz ≤ (rangeMhz i.val).2) := by omega
  simp [exec, execIslandTargetSet, hout]

theorem frequencyChange_eq (i : Fin 332) (s : State) :
    exec (.frequencyChange i) s = .next (s.modIsle i.val fun x => { x with run16 := x.lowest }) := rfl

theorem droopEnd_eq (i : Fin 332) (n : Nat) (s : State) : exec (.droopEnd i n) s
    = if 16 ≤ n then .next (s.modIsle i.val fun x => { x with drooping := false }) else .next s := rfl

theorem ofNat_b2n_not (b : Bool) : BitVec.ofNat 48 (b2n !b) = if b = true then 0 else 1 := by cases b <;> rfl

/-- A stretch of lengthened cycles counts each of them, and one event where it begins a run (R40). -/
theorem droopDetect_spec (i : Fin 332) (n : Nat) (s : State) : ∃ t, exec (.droopDetect i n) s = .next t
    ∧ t.isle i.val = { s.isle i.val with drooping := true, lastDroop := some s.clock }
    ∧ (tget t.ctrs (ctrId i.val 3 0) {}).raw
        = (tget s.ctrs (ctrId i.val 3 0) {}).raw + (if (s.isle i.val).drooping = true then 0 else 1)
    ∧ (tget t.ctrs (ctrId i.val 3 1) {}).raw = (tget s.ctrs (ctrId i.val 3 1) {}).raw + BitVec.ofNat 48 n := by
  have hne : ctrId i.val 3 0 ≠ ctrId i.val 3 1 := ctrId_ne_of_index_ne (by decide)
  refine ⟨_, rfl, by simp, ?_, ?_⟩
  · rw [← ofNat_b2n_not]
    exact (State.count_raw_ne _ n hne).trans (s.count_raw_self ..)
  · exact (State.count_raw_self ..).trans (congrArg (· + BitVec.ofNat 48 n) (s.count_raw_ne _ hne.symm))

/-! ### The thermal ceiling (R41) -/

/-- A temperature is measured, and where a step is then due the thermal ceiling takes its next value. -/
def State.measureStep (s : State) (i c : Nat) (due : Isle → Bool) (next : Isle → Nat) : State :=
  let s := (s.setTemp i c).updateAlert
  if due (s.isle i) = true then
    (s.modIsle i fun x => { x with therm16 := next x, lastThermStep := some s.clock }).updateLimited (isleUnit i) c
  else s

section
variable (s : State) {i j : Nat} (c : Nat) (due : Isle → Bool) (next : Isle → Nat)

theorem State.measureStep_isle_self : ((s.measureStep i c due next).isle i).tempC = c
    ∧ ((s.measureStep i c due next).isle i).therm16
      = if due { s.isle i with tempC := c } = true then next { s.isle i with tempC := c } else (s.isle i).therm16 := by
  cases hd : due { s.isle i with tempC := c } <;> simp [measureStep, hd]

theorem State.measureStep_isle_ne (h : j ≠ i) : (s.measureStep i c due next).isle j = s.isle j := by
  cases hd : due { s.isle i with tempC := c } <;> simp [measureStep, hd, h]

end

/-- When a step is due does not depend on the temperature just measured. -/
@[simp] theorem Isle.stepDue_tempC (x : Isle) (c now gap : Nat) :
    Isle.stepDue { x with tempC := c } now gap = x.stepDue now gap := rfl

/-- A step down may follow the last step after 50 µs, at 100 °C and above. -/
def Isle.lowerDue (now c : Nat) (x : Isle) : Bool := decide (100 ≤ c) && x.stepDue now 50000
/-- A step up may follow the last step after 200 µs, below 97 °C and while the ceiling is under the target. -/
def Isle.raiseDue (now c : Nat) (x : Isle) : Bool :=
  decide (c < 97) && (decide (x.therm16 < 16 * x.targetMhz) && x.stepDue now 200000)

theorem thermalCeilingLower_eq (i : Fin 332) (c : Nat) (s : State) : exec (.thermalCeilingLower i c) s
    = .next (s.measureStep i.val c (Isle.lowerDue s.clock c)
        fun x => max (16 * floorMhz i.val) (x.therm16 - nominalMhz i.val)) := by
  simp only [exec, execThermalCeilingLower, State.measureStep, Isle.lowerDue, State.updateAlert_clock,
    State.setTemp_clock, Bool.and_eq_true, decide_eq_true_eq]
  split <;> rfl

theorem thermalCeilingRaise_eq (i : Fin 332) (c : Nat) (s : State) : exec (.thermalCeilingRaise i c) s
    = .next (s.measureStep i.val c (Isle.raiseDue s.clock c) fun x => x.therm16 + nominalMhz i.val) := by
  simp only [exec, execThermalCeilingRaise, State.measureStep, Isle.raiseDue, State.updateAlert_clock,
    State.setTemp_clock, Bool.and_eq_true, decide_eq_true_eq]
  split <;> rfl

end Sys2Proof.Machine

open Sys2Proof Sys2Proof.Machine

/-! ### O22 -/

/-- Settles O22: each command has its equation of `exec`, and both moves of the thermal ceiling are one measured step. -/
theorem islandsFollowTheirCeilings : Obligations.IslandsFollowTheirCeilings := by
  intro i s x
  refine ⟨fun mhz hup => ⟨islandTargetSet_of_mem i hup, islandTargetSet_of_not_mem i s⟩,
    ⟨_, frequencyChange_eq i s, s.modIsle_self .., fun j hj => s.modIsle_ne _ hj⟩, fun n => droopDetect_spec i n s,
    fun n => ⟨fun hn => ?_, fun hn => ?_⟩, fun c => ⟨?_, ?_⟩⟩
  · rw [droopEnd_eq, if_pos hn]
  · rw [droopEnd_eq, if_neg (by omega)]
  · obtain ⟨htemp, htherm⟩ := s.measureStep_isle_self (i := i.val) c _ _
    refine ⟨_, thermalCeilingLower_eq i c s, htemp, ?_, fun j hj => s.measureStep_isle_ne c _ _ hj⟩
    simpa [Isle.lowerDue, x] using htherm
  · obtain ⟨htemp, htherm⟩ := s.measureStep_isle_self (i := i.val) c _ _
    refine ⟨_, thermalCeilingRaise_eq i c s, htemp, ?_, fun j hj => s.measureStep_isle_ne c _ _ hj⟩
    simpa [Isle.raiseDue, x] using htherm
end

section
/-! PROOFS. O3 and O4: doorbells (R63), with what the rings of chapter 03 keep while entries and events are written. -/

namespace Sys2Proof.Machine

/-! ### What an entry or an event leaves of a ring set (R71, R74, R76) -/

/-- A ring set but for what writing a completion entry or an event changes of it. -/
def RingSet.settings (g : RingSet) : RingSet :=
  { g with
    cqTail := 0, notifyNew := 0, reserved := 0, tags := [], closing := none, dirty := false
    eqTail := 0, eqDropped := 0, droppedNew := 0, seq := 0, eventNew := 0 }

/-- A view that a change of a ring set keeps is kept in every ring set. -/
theorem State.view_modRing {α : Type} {v : RingSet → α} {f : RingSet → RingSet} (s : State) (k j : Nat)
    (h : v (f (s.ring k)) = v (s.ring k)) : v ((s.modRing k f).ring j) = v (s.ring j) := by
  by_cases hj : j = k
  · rw [hj, State.modRing_self, h]
  · rw [State.modRing_ne _ _ hj]

@[simp] theorem State.writeMem_ring (s : State) (a : Nat) (l : List Byte) (j : Nat) : (s.writeMem a l).ring j = s.ring j := by
  unfold State.writeMem; split <;> rfl
@[simp] theorem State.zeroMem_ring (s : State) (a n j : Nat) : (s.zeroMem a n).ring j = s.ring j := rfl
@[simp] theorem State.logEvent_ring (s : State) (e : Event) (j : Nat) : (s.logEvent e).ring j = s.ring j := by
  unfold State.logEvent
  dsimp only
  split <;> split <;> rfl

theorem State.settings_ringEvent (s : State) (k : Nat) (e : Event) (j : Nat) :
    ((s.ringEvent k e).ring j).settings = (s.ring j).settings := by
  unfold State.ringEvent
  dsimp only
  split
  · rfl
  · split
    · exact s.view_modRing k j rfl
    · exact (State.view_modRing _ k j rfl).trans (congrArg _ (s.writeMem_ring ..))

theorem State.settings_postTo (s : State) (ks : List Nat) (e : Event) (j : Nat) :
    ((s.postTo ks e).ring j).settings = (s.ring j).settings :=
  (forEach_keep (g := fun s : State => (s.ring j).settings) (fun s k => s.settings_ringEvent k e j) ks _).trans
    (congrArg _ (s.logEvent_ring e j))
theorem State.settings_postRing (s : State) (k code sev : Nat) (d : List Byte) (j : Nat) :
    ((s.postRing k code sev d).ring j).settings = (s.ring j).settings := s.settings_postTo ..

/-- Ring sets with the same settings have the same pointers of the host. -/
theorem RingSet.pointers_of_settings {g h : RingSet} (e : g.settings = h.settings) :
    g.sqTail = h.sqTail ∧ g.cqHead = h.cqHead ∧ g.eqHead = h.eqHead :=
  ⟨(congrArg RingSet.sqTail e :), (congrArg RingSet.cqHead e :), (congrArg RingSet.eqHead e :)⟩

/-! ### Doorbells (R63) -/

/-- SQ_DB is refused: an index outside the ring, or more slots than are free. -/
abbrev RingSet.sqRefuses (g : RingSet) (i : Nat) : Prop :=
  let q := 2 ^ g.sqLog2
  q ≤ i ∨ q - 1 < (g.sqTail + q - g.sqHead) % q + (i + q - g.sqTail) % q
/-- CQ_DB is refused: an index outside the ring, or more entries than were written. -/
abbrev RingSet.cqRefuses (g : RingSet) (i : Nat) : Prop :=
  let q := 2 ^ g.cqLog2
  q ≤ i ∨ (g.cqTail + q - g.cqHead) % q < (i + q - g.cqHead) % q
/-- EQ_DB is refused, as CQ_DB is. -/
abbrev RingSet.eqRefuses (g : RingSet) (i : Nat) : Prop :=
  let q := 2 ^ g.eqLog2
  q ≤ i ∨ (g.eqTail + q - g.eqHead) % q < (i + q - g.eqHead) % q

/-- An index inside the ring that does not move too far is not refused. -/
theorem not_refused {q i a b : Nat} (hi : i < q) (hm : b ≤ a) : ¬(q ≤ i ∨ a < b) := by omega

/-- CQ_DB frees the TAGs whose final entries the host has consumed (R74). -/
def RingSet.consume (g : RingSet) (i : Nat) : RingSet :=
  { g with
    cqHead := i
    tags := g.tags.filter fun x =>
      !ringWithin (2 ^ g.cqLog2) g.cqHead ((i + 2 ^ g.cqLog2 - g.cqHead) % 2 ^ g.cqLog2) x.index }

section
variable {r : FnRef} {v : W64} {h : Half} {n : Nat} {s : State} (hl : s.live r) (hv : doorbellValue v h = some n)
include hl hv

/-- Without an allocated ring set a doorbell does nothing. -/
theorem doorbells_of_not_ready (hr : (s.ring (fnKey r)).ready = false) :
    exec (.sqDb r v h) s = .next s ∧ exec (.cqDb r v h) s = .next s ∧ exec (.eqDb r v h) s = .next s := by
  simp [exec, execSqDb, execCqDb, execEqDb, hl, hv, hr]

variable (hr : (s.ring (fnKey r)).ready = true)
include hr

/-- SQ_DB moves SQ_TAIL alone. -/
theorem sqDb_eq : exec (.sqDb r v h) s =
    if (s.ring (fnKey r)).sqRefuses (n % 2 ^ 13) then .next (s.postRing (fnKey r) 0x0002 1 (pack [(8, n)]))
    else .next (s.modRing (fnKey r) fun g => { g with sqTail := n % 2 ^ 13 }) := by
  simp [exec, execSqDb, hl, hv, hr, State.doorbellInvalid]

/-- CQ_DB consumes entries, and releases a held ring set with the last of them (R59). -/
theorem cqDb_eq : exec (.cqDb r v h) s =
    let g := s.ring (fnKey r)
    let u := s.modRing (fnKey r) (·.consume (n % 2 ^ 14))
    if g.cqRefuses (n % 2 ^ 14) then .next (s.postRing (fnKey r) 0x0002 1 (pack [(8, n)]))
    else .next (if g.closeHold = true ∧ n % 2 ^ 14 = g.cqTail then u.releaseHold (fnKey r) else u) := by
  simp only [exec, execCqDb, hl, hv, hr, State.doorbellInvalid, State.modRing_self, Bool.not_true, Bool.false_eq_true,
    if_false, ge_iff_le, gt_iff_lt, Bool.and_eq_true, beq_iff_eq]
  rfl

/-- EQ_DB moves EQ_HEAD, and then reports the events that found no room, where there are any. -/
theorem eqDb_eq : exec (.eqDb r v h) s =
    let g := s.ring (fnKey r)
    let u := s.modRing (fnKey r) fun g => { g with eqHead := n % 2 ^ 13 }
    if g.eqRefuses (n % 2 ^ 13) then .next (s.postRing (fnKey r) 0x0002 1 (pack [(8, n)]))
    else if 0 < g.droppedNew ∧ n % 2 ^ 13 ≠ g.eqHead then
      .next ((u.modRing (fnKey r) fun g => { g with droppedNew := 0 }).postRing (fnKey r) 0x0001 1
        (pack [(4, sat32 g.droppedNew)]))
    else .next u := by
  simp only [exec, execEqDb, hl, hv, hr, State.doorbellInvalid, Bool.not_true, Bool.false_eq_true, if_false, ge_iff_le,
    gt_iff_lt]

/-- EQ_DB within its ring moves EQ_HEAD, and nothing else where every event found room. -/
theorem eqDb_moves (hb : ¬(s.ring (fnKey r)).eqRefuses (n % 2 ^ 13)) :
    ∃ t, exec (.eqDb r v h) s = .next t ∧ (t.ring (fnKey r)).eqHead = n % 2 ^ 13
      ∧ ((s.ring (fnKey r)).droppedNew = 0 → t = s.modRing (fnKey r) fun g => { g with eqHead := n % 2 ^ 13 }) := by
  rw [eqDb_eq hl hv hr]
  dsimp only
  rw [if_neg hb]
  split
  · next hd =>
    refine ⟨_, rfl, ?_, fun h0 => absurd hd.1 (by omega)⟩
    rw [(RingSet.pointers_of_settings (State.settings_postRing ..)).2.2]
    simp
  · exact ⟨_, rfl, by simp, fun _ => rfl⟩

end

/-- The release of a held ring set ends its hold; it stays allocated (R59). -/
theorem State.releaseHold_ring (s : State) (k : Nat) : ((s.releaseHold k).ring k).closeHold = false
    ∧ ((s.releaseHold k).ring k).busy = false ∧ ((s.releaseHold k).ring k).ready = (s.ring k).ready := by
  simp [State.releaseHold]

end Sys2Proof.Machine

open Sys2Proof Sys2Proof.Machine

/-! ### O3, O4 -/

/-- Settles O3: each doorbell within its ring is one equation of `exec`. -/
theorem doorbellsMovePointers : Obligations.DoorbellsMovePointers := by
  intro r v h n s hl hv hr k g sq cq eq
  refine ⟨fun hi hm => ?_, fun hi hm => ?_, fun hi hm => eqDb_moves hl hv hr (not_refused hi hm)⟩
  · rw [sqDb_eq hl hv hr]
    exact if_neg (not_refused hi hm)
  · intro u
    have hu : u.ring k = g.consume (n % 2 ^ 14) := State.modRing_self ..
    obtain ⟨hhold, hbusy, hready⟩ := u.releaseHold_ring k
    refine ⟨?_, by rw [hu]; rfl, hhold, hbusy, by rw [hready, hu]; exact hr⟩
    rw [cqDb_eq hl hv hr]
    exact if_neg (not_refused hi hm)

/-- Settles O4: a doorbell that is refused only posts EV_DOORBELL_INVALID, which leaves the host's pointers. -/
theorem badDoorbellsAreIgnored : Obligations.BadDoorbellsAreIgnored := by
  intro r v h n s hl hv k g sq cq eq
  refine ⟨doorbells_of_not_ready hl hv, fun hr hb => ?_, fun hr hb => ?_, fun hr hb => ?_,
    RingSet.pointers_of_settings (s.settings_postRing ..), fun hr hi hm => ?_, fun hr hh hi hm => ?_, fun hr hi hm => ?_⟩
  · rw [sqDb_eq hl hv hr]; exact if_pos hb
  · rw [cqDb_eq hl hv hr]; exact if_pos hb
  · rw [eqDb_eq hl hv hr]; exact if_pos hb
  · rw [sqDb_eq hl hv hr]
    exact ⟨_, if_neg (not_refused hi hm), by rw [State.modRing_self]⟩
  · rw [cqDb_eq hl hv hr]
    refine ⟨_, if_neg (not_refused hi hm), ?_⟩
    rw [if_neg fun hc => Bool.false_ne_true (hh.symm.trans hc.1), State.modRing_self]
    rfl
  · obtain ⟨t, ht, hq, -⟩ := eqDb_moves hl hv hr (not_refused hi hm)
    exact ⟨t, ht, hq⟩
end

section
/-! PROOFS. O5: the pointer mirror (R65) and the messages that follow it (R66). -/

namespace Sys2Proof.Machine

/-! ### Keys of ring sets (R459) -/

@[simp] theorem fnKey_div (r : FnRef) : fnKey r / 9 = r.port.val := by
  have := r.fn.isLt
  simp only [fnKey, ringKey]
  omega
@[simp] theorem fnKey_mod (r : FnRef) : fnKey r % 9 = r.fn.val := by
  have := r.fn.isLt
  simp only [fnKey, ringKey]
  omega

/-! ### Host memory -/

theorem State.memWf_hostMem {s : State} (q : Nat) (h : s.memWf = true) : cellsWf (s.hostMem q) = true := by
  simp only [State.memWf, Bool.and_eq_true] at h
  unfold State.hostMem
  split
  · exact h.1.2
  · exact h.2

section
variable (s : State) (q a : Nat) (l : List Byte)

theorem State.hostWrite_hostMem : (s.hostWrite q a l).hostMem q = cellsPut (s.hostMem q) a l := by
  unfold State.hostWrite State.hostMem
  split <;> rfl
@[simp] theorem State.hostWrite_out : (s.hostWrite q a l).out = s.out ++ [.hostWrite q a l] := by
  unfold State.hostWrite; split <;> rfl
@[simp] theorem State.hostWrite_rings : (s.hostWrite q a l).rings = s.rings := by
  unfold State.hostWrite; split <;> rfl
@[simp] theorem State.hostWrite_ring (j : Nat) : (s.hostWrite q a l).ring j = s.ring j := by
  rw [State.ring, State.hostWrite_rings]; rfl
@[simp] theorem State.hostWrite_ports : (s.hostWrite q a l).ports = s.ports := by
  unfold State.hostWrite; split <;> rfl
@[simp] theorem State.hostWrite_clock : (s.hostWrite q a l).clock = s.clock := by
  unfold State.hostWrite; split <;> rfl

end

/-! ### Messages (R465) -/

/-- What a message or its pending bit leaves: the ring sets and both hosts. -/
theorem State.sendMsix_keeps (s : State) (q fn v : Nat) : (s.sendMsix q fn v).rings = s.rings
    ∧ (s.sendMsix q fn v).host0 = s.host0 ∧ (s.sendMsix q fn v).host1 = s.host1 := by
  unfold State.sendMsix
  dsimp only
  split
  · exact ⟨rfl, rfl, rfl⟩
  · split <;> exact ⟨rfl, rfl, rfl⟩

/-- A vector that nothing masks sends its message. -/
theorem State.sendMsix_of_open {s : State} {q fn v : Nat} (hs : s.canSend q fn = true)
    (hon : (s.port q).msixOn.contains fn = true) (hm : (s.port q).fnMasked.contains fn = false)
    (ho : (s.port q).vecOpen.contains (fn, v) = true) : s.sendMsix q fn v = s.emit ((s.port q).message q fn v) := by
  simp only [State.sendMsix, hs, hon, hm, ho, Bool.not_true, Bool.or_self, Bool.false_eq_true, if_false]

/-- Send a message on each of several vectors. -/
def State.sendAll (s : State) (q fn : Nat) (vs : List Nat) : State := forEach vs (fun s v => s.sendMsix q fn v) s

theorem State.sendAll_keeps (s : State) (q fn : Nat) (vs : List Nat) : (s.sendAll q fn vs).rings = s.rings
    ∧ (s.sendAll q fn vs).host0 = s.host0 ∧ (s.sendAll q fn vs).host1 = s.host1 :=
  forEach_inv (P := fun t : State => t.rings = s.rings ∧ t.host0 = s.host0 ∧ t.host1 = s.host1)
    (fun t v ht => by
      obtain ⟨hr, h0, h1⟩ := t.sendMsix_keeps q fn v
      exact ⟨hr.trans ht.1, h0.trans ht.2.1, h1.trans ht.2.2⟩) vs s ⟨rfl, rfl, rfl⟩

theorem State.sendAll_out {s : State} {q fn : Nat} (vs : List Nat) (hs : s.canSend q fn = true)
    (hon : (s.port q).msixOn.contains fn = true) (hm : (s.port q).fnMasked.contains fn = false)
    (ho : ∀ v ∈ vs, (s.port q).vecOpen.contains (fn, v) = true) :
    (s.sendAll q fn vs).out = s.out ++ vs.map fun v => (s.port q).message q fn v := by
  induction vs generalizing s with
  | nil => simp [State.sendAll]
  | cons v vs ih =>
    have hv := State.sendMsix_of_open hs hon hm (ho v (by simp))
    change ((s.sendMsix q fn v).sendAll q fn vs).out = _
    rw [hv, ih (s := s.emit _) hs hon hm fun w hw => ho w (by simp [hw])]
    simp [State.emit, State.port]

/-! ### The messages of a mirror write (R66) -/

/-- The vectors on which a mirror write sends: CQ_VECTOR for the entries that are due and not held, EQ_VECTOR for new
events where that is another. -/
def RingSet.dueVectors (g : RingSet) : List Nat :=
  let due := g.held + g.notifyNew
  let cq := if due = 0 || g.holds due then [] else [g.cqVector]
  cq ++ if g.eventNew = 0 || cq.contains g.eqVector then [] else [g.eqVector]

theorem RingSet.dueVectors_of_none {g : RingSet} (hd : g.held + g.notifyNew = 0) (he : g.eventNew = 0) :
    g.dueVectors = [] := by simp [dueVectors, hd, he]

theorem RingSet.dueVectors_of_due {g : RingSet} (hd : 0 < g.held + g.notifyNew)
    (hh : g.holds (g.held + g.notifyNew) = false) :
    g.dueVectors = g.cqVector :: if g.eventNew = 0 ∨ g.eqVector = g.cqVector then [] else [g.eqVector] := by
  have hd' : g.held + g.notifyNew ≠ 0 := by omega
  simp only [dueVectors, hd', hh]
  by_cases he : g.eventNew = 0 <;> by_cases hq : g.eqVector = g.cqVector <;> simp [he, hq]

theorem RingSet.dueVectors_subset (g : RingSet) : ∀ v ∈ g.dueVectors, v = g.cqVector ∨ v = g.eqVector := by
  intro v hv
  simp only [dueVectors, List.mem_append, List.mem_ite_nil_left, List.mem_singleton] at hv
  exact hv.imp And.right And.right

/-- A ring set whose new entries and events have been signalled, or are held, at a time. -/
def RingSet.signalled (g : RingSet) (now : Nat) : RingSet :=
  let due := g.held + g.notifyNew
  { g with
    held := if g.holds due then due else 0, notifyNew := 0, eventNew := 0
    heldSince := if g.holds due && g.held == 0 then now else g.heldSince }

theorem State.mirrorMessages_eq (s : State) (k : Nat) : s.mirrorMessages k =
    (s.modRing k fun g => g.signalled s.clock).sendAll (k / 9) (k % 9) (s.ring k).dueVectors := rfl

theorem State.mirrorMessages_ring (s : State) (k : Nat) :
    (s.mirrorMessages k).ring k = (s.ring k).signalled s.clock := by
  rw [State.mirrorMessages_eq, State.ring, (State.sendAll_keeps ..).1]
  exact State.modRing_self ..

theorem State.mirrorMessages_hostMem (s : State) (k q : Nat) : (s.mirrorMessages k).hostMem q = s.hostMem q := by
  obtain ⟨-, h0, h1⟩ := (s.modRing k fun g => g.signalled s.clock).sendAll_keeps (k / 9) (k % 9) (s.ring k).dueVectors
  rw [State.mirrorMessages_eq, State.hostMem, h0, h1]
  rfl

/-! ### The mirror write (R65) -/

/-- A ring set whose mirror has just been written. -/
def RingSet.mirrored (g : RingSet) (now : Nat) : RingSet :=
  { g with
    mirrorSeq := g.mirrorSeq + 1, mirrorAt := now, dirty := false
    mirrorAddr := if g.isOpen || g.closeHold then g.mirrorAddr else 0 }

theorem State.mirrorBytes_length (s : State) (k : Nat) (n : BitVec 32) : (s.mirrorBytes k n).length = 64 :=
  slice_length ..

section
variable (s : State) (k : Nat)

@[simp] theorem State.writeMirror_ring : (s.writeMirror k).ring k = (s.ring k).mirrored s.clock := by
  rw [State.writeMirror, State.modRing_self, State.hostWrite_ring]
  simp only [State.ring, RingSet.mirrored]
@[simp] theorem State.writeMirror_clock : (s.writeMirror k).clock = s.clock := by simp [State.writeMirror]
@[simp] theorem State.writeMirror_ports : (s.writeMirror k).ports = s.ports := by simp [State.writeMirror]
theorem State.writeMirror_out : (s.writeMirror k).out = s.out ++
    [.hostWrite (k / 9) (s.ring k).mirrorAddr (s.mirrorBytes k ((s.ring k).mirrorSeq + 1))] := by
  simp [State.writeMirror]
theorem State.writeMirror_hostMem : (s.writeMirror k).hostMem (k / 9) =
    cellsPut (s.hostMem (k / 9)) (s.ring k).mirrorAddr (s.mirrorBytes k ((s.ring k).mirrorSeq + 1)) :=
  s.hostWrite_hostMem ..

end

section
variable {r : FnRef} {s : State}

theorem mirrorWrite_eq (hd : (s.ring (fnKey r)).dirty = true) (hm : s.mirrorDue (fnKey r) = true) :
    exec (.mirrorWrite r) s = .next ((s.writeMirror (fnKey r)).mirrorMessages (fnKey r)) := by
  simp [exec, execMirrorWrite, hd, hm]

theorem mirrorRefresh_eq (hd : (s.ring (fnKey r)).dirty = false) (hm : s.mirrorDue (fnKey r) = true)
    (ht : (s.ring (fnKey r)).mirrorAt + 99000000 ≤ s.clock) :
    exec (.mirrorRefresh r) s = .next (s.writeMirror (fnKey r)) := by
  simp [exec, execMirrorRefresh, hd, hm, ht]

theorem coalesceTimeout_eq (hh : 0 < (s.ring (fnKey r)).held)
    (ht : (s.ring (fnKey r)).heldSince + 1000 * (s.ring (fnKey r)).coalUs ≤ s.clock) : exec (.coalesceTimeout r) s
      = .next ((s.modRing (fnKey r) fun g => { g with held := 0 }).sendMsix r.port.val r.fn.val
          (s.ring (fnKey r)).cqVector) := by
  simp [exec, execCoalesceTimeout, hh, ht]

/-- A due mirror goes to a function that may be sent to. -/
theorem State.canSend_of_mirrorDue (hm : s.mirrorDue (fnKey r) = true) : s.canSend r.port.val r.fn.val = true := by
  simp only [State.mirrorDue, Bool.and_eq_true, fnKey_div, fnKey_mod] at hm
  exact hm.2

/-- What a mirror write and its messages send: the 64 bytes, then a message on each vector that is due. -/
theorem State.mirrorMessages_writeMirror_out (hm : s.mirrorDue (fnKey r) = true)
    (ho : (s.ring (fnKey r)).dueVectors ≠ [] → (s.port r.port.val).msixOn.contains r.fn.val = true
      ∧ (s.port r.port.val).fnMasked.contains r.fn.val = false
      ∧ ∀ v ∈ (s.ring (fnKey r)).dueVectors, (s.port r.port.val).vecOpen.contains (r.fn.val, v) = true) :
    ((s.writeMirror (fnKey r)).mirrorMessages (fnKey r)).out = (s.writeMirror (fnKey r)).out
      ++ (s.ring (fnKey r)).dueVectors.map fun v => (s.port r.port.val).message r.port.val r.fn.val v := by
  have hv : ((s.writeMirror (fnKey r)).ring (fnKey r)).dueVectors = (s.ring (fnKey r)).dueVectors := by
    rw [State.writeMirror_ring]; rfl
  have hp : ∀ q, (s.writeMirror (fnKey r)).port q = s.port q := fun q => by simp [State.port]
  rw [State.mirrorMessages_eq, hv, fnKey_div, fnKey_mod]
  by_cases hn : (s.ring (fnKey r)).dueVectors = []
  · simp [hn, State.sendAll]
  · obtain ⟨hon, hmask, hopen⟩ := ho hn
    have hc := State.canSend_of_mirrorDue hm
    rw [State.sendAll_out]
    · simp [hp]
    · simpa [State.canSend, hp] using hc
    · simpa [hp] using hon
    · simpa [hp] using hmask
    · simpa [hp] using hopen

end

end Sys2Proof.Machine

open Sys2Proof Sys2Proof.Machine

/-! ### O5 -/

/-- Settles O5: a mirror write is a host write of 64 bytes, then one message for each vector that is due. -/
theorem mirrorIsWritten : Obligations.MirrorIsWritten := by
  intro r s k q fn g wrote
  have hkq : k / 9 = q := fnKey_div r
  refine ⟨fun hd hm hw => ?_, fun hd hm ht => ?_, fun hh ht => coalesceTimeout_eq hh ht⟩
  · have hring : ((s.writeMirror k).mirrorMessages k).ring k = (g.mirrored s.clock).signalled s.clock := by
      rw [State.mirrorMessages_ring, State.writeMirror_ring, State.writeMirror_clock]
    have hhost : ((s.writeMirror k).mirrorMessages k).hostMem q
        = cellsPut (s.hostMem q) g.mirrorAddr (s.mirrorBytes k (g.mirrorSeq + 1)) := by
      rw [State.mirrorMessages_hostMem, ← hkq, State.writeMirror_hostMem]
    have hcells := State.memWf_hostMem q hw
    have hlen := s.mirrorBytes_length k (g.mirrorSeq + 1)
    have hput := cellsGet_cellsPut_self g.mirrorAddr (s.mirrorBytes k (g.mirrorSeq + 1)) hcells
    have hout : (s.writeMirror k).out = s.out ++ [wrote] := by rw [State.writeMirror_out, hkq]
    refine ⟨_, mirrorWrite_eq hd hm, ?_⟩
    rw [hring, hhost]
    refine ⟨rfl, rfl, rfl, rfl, rfl, hlen ▸ hput, fun a ha => cellGet_cellsPut_outside hcells (by rwa [hlen]),
      fun hn he => ?_, fun hn hh hon hmask hcq heq => ?_⟩
    · have hv := RingSet.dueVectors_of_none hn he
      rw [State.mirrorMessages_writeMirror_out hm fun h => absurd hv h, hout, hv]
      simp
    · rw [State.mirrorMessages_writeMirror_out hm fun _ => ⟨hon, hmask, fun v hv => ?_⟩, hout,
        RingSet.dueVectors_of_due hn hh]
      · split <;> simp [*, g, q, fn, k]
      · rcases RingSet.dueVectors_subset _ v hv with rfl | rfl
        · exact hcq
        · exact heq
  · refine ⟨_, mirrorRefresh_eq hd hm ht, ?_, ?_, ?_⟩
    · rw [State.writeMirror_ring]; rfl
    · rw [State.writeMirror_ring]; rfl
    · rw [State.writeMirror_out, hkq]
end

section
/-! PROOFS. O9: reading a slot, the start of a deferred command and the final entry (R64, R71, R73, R74, R84, R85), with
what a completion does to its ring set and to the outstanding commands. -/

namespace Sys2Proof.Machine

/-! ### The final entry (R71, R74) -/

@[simp] theorem State.writeMem_cmds (s : State) (a : Nat) (l : List Byte) : (s.writeMem a l).cmds = s.cmds := by
  unfold State.writeMem; split <;> rfl

/-- A ring set after the final entry of a command. -/
def RingSet.withEntry (g : RingSet) (c : Cmd) : RingSet :=
  { g with
    cqTail := (g.cqTail + 1) % 2 ^ g.cqLog2, dirty := true, notifyNew := g.notifyNew + b2n c.notify
    reserved := g.reserved - c.reserved, tags := g.tags ++ [{ tag := c.tag, index := g.cqTail }]
    closing := if g.closing = some c.serial then none else g.closing }

section
variable (s : State) (c : Cmd) (st d : Nat) (l : List Byte)

theorem State.finalEntry_cmds : (s.finalEntry c st d l).cmds = s.cmds.filter fun x => x.serial != c.serial := by
  unfold State.finalEntry
  dsimp only
  split
  · rfl
  · simp [State.cqWrite]

theorem State.finalEntry_ring_of_orphan (h : c.orphan = true) (j : Nat) :
    (s.finalEntry c st d l).ring j = s.ring j := by
  simp only [State.finalEntry, h, if_true]
  rfl

theorem State.finalEntry_ring (h : c.orphan = false) :
    (s.finalEntry c st d l).ring c.key = (s.ring c.key).withEntry c := by
  simp only [State.finalEntry, h, Bool.false_eq_true, if_false, State.cqWrite, State.modRing_self, State.writeMem_ring]
  rfl

theorem State.finalEntry_ring_ne {j : Nat} (h : j ≠ c.key) : (s.finalEntry c st d l).ring j = s.ring j := by
  unfold State.finalEntry
  dsimp only
  split
  · rfl
  · simp only [State.cqWrite, State.modRing_ne _ _ h, State.writeMem_ring]
    rfl

theorem State.settings_finalEntry (j : Nat) : ((s.finalEntry c st d l).ring j).settings = (s.ring j).settings := by
  by_cases hj : j = c.key
  · subst hj
    cases h : c.orphan with
    | true => rw [State.finalEntry_ring_of_orphan _ _ _ _ _ h]
    | false => rw [State.finalEntry_ring _ _ _ _ _ h]; rfl
  · rw [State.finalEntry_ring_ne _ _ _ _ _ hj]

/-- No final entry begins a close. -/
theorem State.finalEntry_closing (h : (s.ring c.key).closing = none) :
    ((s.finalEntry c st d l).ring c.key).closing = none := by
  cases ho : c.orphan with
  | true => rw [State.finalEntry_ring_of_orphan _ _ _ _ _ ho, h]
  | false => simp [State.finalEntry_ring _ _ _ _ _ ho, RingSet.withEntry, h]

/-- The entry of a command whose ring set was not freed stands at CQ_TAIL. -/
theorem State.finalEntry_readMem (h : c.orphan = false) (hw : s.memWf = true)
    (hr : ∀ p ∈ s.mem.retired, overlaps p 4096 ((s.ring c.key).base + cqOffset + 64 * (s.ring c.key).cqTail) 64 = false) :
    (s.finalEntry c st d l).readMem ((s.ring c.key).base + cqOffset + 64 * (s.ring c.key).cqTail) 64
      = completionBytes c.tag st d s.now l := by
  have hlen : (completionBytes c.tag st d s.now l).length = 64 := by simp [completionBytes, pack, fit]
  have hspec := State.writeMem_spec (s := { s with
      cmds := s.cmds.filter fun x => x.serial != c.serial, idleWait := s.idleWait.filter (· != c.serial) })
    ((s.ring c.key).base + cqOffset + 64 * (s.ring c.key).cqTail) (completionBytes c.tag st d s.now l) hw
    (by rw [hlen]; simpa using hr)
  rw [hlen] at hspec
  simp only [State.finalEntry, h, Bool.false_eq_true, if_false]
  exact hspec.1

end

/-- A command with this serial is no longer outstanding. -/
theorem State.cmd_eq_none {s : State} {l : List Cmd} {id : Nat} (h : s.cmds = l.filter fun x => x.serial != id) :
    s.cmd id = none := by
  rw [State.cmd, h, List.find?_eq_none]
  intro x hx
  simpa using (List.mem_filter.mp hx).2

/-! ### Closing and draining after a completion (R59, R90) -/

/-- The end of a RING_CLOSE that waited for the other commands of its ring. -/
def State.endClose (s : State) (k : Nat) : State :=
  match (s.ring k).closing.bind s.cmd with
  | none => s
  | some c =>
    if c.phase = .started ∧ !(s.cmds.any fun x => x.key == k && x.serial != c.serial && !x.orphan) then
      let e := (s.ring k).closeEnd.getD (stDone, 0)
      (s.finalEntry c e.1 e.2 []).enterCloseHold k
    else s

/-- The end of a ring set that was disabled in an open session. -/
def State.drain (s : State) (k : Nat) : State :=
  if (s.ring k).draining && s.outstanding k == 0 then ((s.enterCloseHold k).endHold k).freeRing k else s

theorem State.closeCheck_eq (s : State) (k : Nat) : s.closeCheck k = (s.endClose k).drain k := rfl

section
variable {s : State} {k : Nat}

theorem State.endClose_of_not_closing (h : (s.ring k).closing = none) : s.endClose k = s := by
  simp [State.endClose, h]
theorem State.drain_of_not_draining (h : (s.ring k).draining = false) : s.drain k = s := by
  simp [State.drain, h]

/-- Where the ring set neither closes nor drains, a completion is the final entry alone. -/
theorem State.complete_eq_finalEntry {c : Cmd} (st d : Nat) (l : List Byte) (hc : (s.ring c.key).closing = none)
    (hd : (s.ring c.key).draining = false) : s.complete c st d l = s.finalEntry c st d l := by
  have hd' : ((s.finalEntry c st d l).ring c.key).draining = false :=
    (congrArg RingSet.draining (s.settings_finalEntry c st d l c.key) :).trans hd
  rw [State.complete, State.closeCheck_eq, State.endClose_of_not_closing (s.finalEntry_closing c st d l hc),
    State.drain_of_not_draining hd']

end

/-! ### Reading a slot (R64, R73) -/

/-- The ring set and the serial counter after a slot was read: two completion entries are reserved. -/
def State.slotRead (s : State) (k : Nat) : State :=
  { s with nextCmd := s.nextCmd + 1 }.modRing k fun g => { g with
    sqHead := (g.sqHead + 1) % 2 ^ g.sqLog2, reserved := g.reserved + 2, dirty := true }

/-- The command of the slot at SQ_HEAD, before its header is checked. -/
def State.slotCmd (s : State) (r : FnRef) : Cmd :=
  let g := s.ring (fnKey r)
  parseHeader (s.readMem (g.base + 256 * g.sqHead) 256) s.nextCmd r.port.val r.fn.val g.sqHead

section
variable {s : State} {r : FnRef} (hm : s.mayRead (fnKey r) = true)
  (hb : s.badRead ((s.ring (fnKey r)).base + 256 * (s.ring (fnKey r)).sqHead) 256 = none)
include hm hb

/-- A header that passes: the command is outstanding, and a RING_CLOSE begins to close the ring. -/
theorem commandRead_ok {c : Cmd}
    (hc : s.checkHeader (s.slotCmd r) (s.readMem ((s.ring (fnKey r)).base + 256 * (s.ring (fnKey r)).sqHead) 256) = .ok c) :
    exec (.commandRead r) s =
      let u := { s.slotRead (fnKey r) with cmds := s.cmds ++ [{ c with hot := s.isHot c }] }
      .next (if c.opcode = 0x0002 then u.modRing (fnKey r) fun g => { g with closing := some c.serial } else u) := by
  simp only [State.slotCmd] at hc
  simp only [exec, execCommandRead, hm, hb, hc, Option.isSome_none, Bool.not_true, Bool.false_eq_true, if_false]
  rfl

/-- A header that fails is rejected. -/
theorem commandRead_error {e : Rej}
    (hc : s.checkHeader (s.slotCmd r) (s.readMem ((s.ring (fnKey r)).base + 256 * (s.ring (fnKey r)).sqHead) 256) = .error e)
    (he : e.code ≠ 0x0202) : exec (.commandRead r) s =
      .next ({ s.slotRead (fnKey r) with cmds := s.cmds ++ [s.slotCmd r] }.reject (s.slotCmd r) e) := by
  simp only [State.slotCmd] at hc ⊢
  simp only [exec, execCommandRead, hm, hb, hc, he, Option.isSome_none, Bool.not_true, Bool.false_eq_true, if_false]
  rfl

end

/-! ### The step boundary (R84, R85) -/

theorem any_eq_false_of_all_not {l : List Cmd} {f : Cmd → Bool} (h : (l.all fun x => !f x) = true) : l.any f = false := by
  rw [List.any_eq_not_all_not, h]; rfl

section
variable {p : Fin 8} {c : Cmd} {s : State} (hp : (s.pav p.val).any (·.atBoundary) = true)
  (hw : (s.cmds.all fun x => !(x.phase == .deferred && x.pavilion == p.val && x.atBoundary)) = true)
  (hc : ((s.dueDeferred p.val).find? fun c => !((s.pav p.val).any (·.parking) && c.opcode == 0x0121)) = some c)
  (hr : (c.hot || s.roleUp 2) = true)
include hp hw hc hr

/-- The first deferred command comes to its start. -/
theorem deferredCommandStart_starts (hd : s.deadlineCheck c = none) : exec (.deferredCommandStart p) s
    = .next (s.modCmd c.serial fun c => { c with atBoundary := true }) := by
  simp only [exec, execDeferredCommandStart, hp, any_eq_false_of_all_not hw, hc, hr, hd, Bool.not_true,
    Bool.false_eq_true, if_false]

/-- A deferred command whose DEADLINE has passed is rejected at its start. -/
theorem deferredCommandStart_rejects {e : Rej} (hd : s.deadlineCheck c = some e) :
    exec (.deferredCommandStart p) s = .next (s.reject c e) := by
  simp only [exec, execDeferredCommandStart, hp, any_eq_false_of_all_not hw, hc, hr, hd, Bool.not_true,
    Bool.false_eq_true, if_false]

end

end Sys2Proof.Machine

open Sys2Proof Sys2Proof.Machine

/-! ### O9 -/

/-- Settles O9: a slot that may be read, a deferred command at its boundary and a final entry each have their equation. -/
theorem commandsAreReadAndCompleted : Obligations.CommandsAreReadAndCompleted := by
  refine ⟨fun r s hm => ?_, fun p c s hp hw hc hr => ⟨deferredCommandStart_starts hp hw hc hr,
    fun _ => deferredCommandStart_rejects hp hw hc hr, fun c status detail result s ho hw => ?_⟩⟩
  · intro k g a c0 u hb
    refine ⟨fun c hc => ⟨_, commandRead_ok hm hb hc, ?_⟩, fun e hc he => commandRead_error hm hb hc he⟩
    have hring : (s.slotRead k).ring k
        = { g with sqHead := (g.sqHead + 1) % 2 ^ g.sqLog2, reserved := g.reserved + 2, dirty := true } :=
      State.modRing_self ..
    have hhead := congrArg RingSet.sqHead hring
    have hres := congrArg RingSet.reserved hring
    dsimp only
    split
    · refine ⟨rfl, rfl, rfl, rfl, ?_⟩
      rw [State.modRing_self]
      exact ⟨hhead, hres, rfl⟩
    · have hclose := congrArg RingSet.closing hring
      exact ⟨rfl, rfl, rfl, rfl, hhead, hres, hclose⟩
  · intro g a hcl hd hret t
    have ht : t = s.finalEntry c status detail result := State.complete_eq_finalEntry _ _ _ hcl hd
    rw [ht, State.finalEntry_ring _ _ _ _ _ ho]
    exact ⟨s.finalEntry_readMem c _ _ _ ho hw hret, rfl, rfl, State.cmd_eq_none (s.finalEntry_cmds ..)⟩
end

section
/-! PROOFS. O6: the allocation and freeing of ring sets (R57, R90), with which commands stay outstanding as others end. -/

namespace Sys2Proof.Machine

/-! ### Freeing a ring set (R57, R74) -/

/-- What a freed ring set keeps: RINGSET_CFG, SESSION_EPOCH, FRESET_STATUS and whether the start was reported. -/
def RingSet.freed (g : RingSet) : RingSet :=
  { enable := g.enable, cfgSizes := g.cfgSizes, epoch := g.epoch, startPosted := g.startPosted, frTarget := g.frTarget
    frStatus := g.frStatus }

section
variable (s : State) (k : Nat)

theorem State.freeRing_cmds : (s.freeRing k).cmds =
    (s.cmds.filter fun c => !(c.key == k && (c.phase != .started || c.opcode == 0x0002) && !c.orphan)).map
      fun c => if c.key == k then { c with orphan := true } else c := by
  unfold State.freeRing
  dsimp only
  split <;> split <;> rfl

theorem State.freeRing_rings : (s.freeRing k).rings = tset s.rings k (s.ring k).freed := by
  unfold State.freeRing
  dsimp only
  split <;> split <;> rfl
@[simp] theorem State.freeRing_ring : (s.freeRing k).ring k = (s.ring k).freed := by
  rw [State.ring, State.freeRing_rings, tget_tset_self]
theorem State.freeRing_ring_ne {j : Nat} (h : j ≠ k) : (s.freeRing k).ring j = s.ring j := by
  rw [State.ring, State.freeRing_rings, tget_tset_ne _ _ _ h]; rfl

/-- The memory of an allocated ring set is zeroed as it goes. -/
theorem State.freeRing_zeroes (h : (s.ring k).ready = true) (x : Nat) (hlo : (s.ring k).base ≤ x)
    (hhi : x < (s.ring k).base + ringBytes + stagingBytes) : cellGet (s.freeRing k).mem.cells x = 0 := by
  have hz := s.zeroMem_spec (s.ring k).base (ringBytes + stagingBytes) x
  rw [if_pos ⟨hlo, by omega⟩] at hz
  unfold State.freeRing
  simp only [h, if_true, Bool.true_and]
  split <;> exact hz

/-- No command of a freed ring set writes an entry any more. -/
theorem State.freeRing_orphans (c : Cmd) (hc : c ∈ (s.freeRing k).cmds) (hk : c.key = k) : c.orphan = true := by
  rw [State.freeRing_cmds] at hc
  obtain ⟨x, -, rfl⟩ := List.mem_map.mp hc
  split
  · rfl
  · next hx =>
    rw [if_neg hx] at hk
    exact absurd (beq_iff_eq.mpr hk) hx

end

/-! ### The hold of R59 and the register RINGSET_CFG -/

@[simp] theorem State.endHold_cmds (s : State) (k : Nat) : (s.endHold k).cmds = s.cmds := by
  have hw : ∀ t : State, (t.writeMirror k).cmds = t.cmds := fun t => by
    unfold State.writeMirror State.hostWrite; dsimp only; split <;> rfl
  unfold State.endHold
  dsimp only
  split
  · rw [hw]; rfl
  · rfl

/-- The end of a hold changes pointers and the mirror; its own ring set is not held any more. -/
theorem State.endHold_ring (s : State) (k : Nat) : ((s.endHold k).ring k).closeHold = false
    ∧ ((s.endHold k).ring k).enable = (s.ring k).enable := by
  unfold State.endHold
  dsimp only
  split
  · rw [State.writeMirror_ring]; simp [RingSet.mirrored, State.releaseHold]
  · simp [State.releaseHold]
theorem State.writeMirror_ring_ne (s : State) {k j : Nat} (h : j ≠ k) : (s.writeMirror k).ring j = s.ring j := by
  rw [State.writeMirror, State.modRing_ne _ _ h, State.hostWrite_ring]
theorem State.endHold_ring_ne (s : State) {k j : Nat} (h : j ≠ k) : (s.endHold k).ring j = s.ring j := by
  unfold State.endHold
  dsimp only
  split
  · rw [State.writeMirror_ring_ne _ h, State.releaseHold, State.modRing_ne _ _ h, State.zeroMem_ring]
  · rw [State.releaseHold, State.modRing_ne _ _ h, State.zeroMem_ring]

/-! ENABLE of RINGSET_CFG is the host's: no completion changes it. -/

section
variable (s : State) (k j : Nat)

theorem State.enable_freeRing : ((s.freeRing k).ring j).enable = (s.ring j).enable := by
  by_cases h : j = k
  · rw [h, State.freeRing_ring]; rfl
  · rw [State.freeRing_ring_ne _ _ h]
theorem State.enable_endHold : ((s.endHold k).ring j).enable = (s.ring j).enable := by
  by_cases h : j = k
  · rw [h, (s.endHold_ring k).2]
  · rw [State.endHold_ring_ne _ h]
theorem State.enable_enterCloseHold : ((s.enterCloseHold k).ring j).enable = (s.ring j).enable :=
  State.view_modRing (v := RingSet.enable) s k j rfl
theorem State.enable_finalEntry (c : Cmd) (st d : Nat) (l : List Byte) :
    ((s.finalEntry c st d l).ring j).enable = (s.ring j).enable :=
  (congrArg RingSet.enable (s.settings_finalEntry c st d l j) :)

theorem State.enable_closeCheck : ((s.closeCheck k).ring j).enable = (s.ring j).enable := by
  have hdrain : ∀ t : State, ((t.drain k).ring j).enable = (t.ring j).enable := fun t => by
    unfold State.drain
    split
    · rw [State.enable_freeRing, State.enable_endHold, State.enable_enterCloseHold]
    · rfl
  rw [State.closeCheck_eq, hdrain]
  unfold State.endClose
  split
  · rfl
  · split
    · dsimp only
      rw [State.enable_enterCloseHold, State.enable_finalEntry]
    · rfl

theorem State.enable_complete (c : Cmd) (st d : Nat) (l : List Byte) :
    ((s.complete c st d l).ring j).enable = (s.ring j).enable := by
  rw [State.complete, State.enable_closeCheck, State.enable_finalEntry]

theorem State.enable_abortAll (f : Cmd → Bool) (st target : Nat) (x : Option Cmd) :
    ((s.abortAll f st target x).ring j).enable = (s.ring j).enable := by
  refine forEach_keep (g := fun s : State => (s.ring j).enable) (fun s id => ?_) _ s
  split
  · exact State.enable_complete ..
  · rfl

end

/-! ### Which commands stay outstanding (R59, R74) -/

/-- Every outstanding command of t is one of s, or one whose ring set was freed. -/
def State.onlyLoses (s t : State) : Prop := ∀ c ∈ t.cmds, c.orphan = true ∨ c ∈ s.cmds

theorem State.onlyLoses_refl (s : State) : s.onlyLoses s := fun _ => .inr
theorem State.onlyLoses_trans {s t u : State} (h : s.onlyLoses t) (h' : t.onlyLoses u) : s.onlyLoses u :=
  fun c hc => (h' c hc).elim .inl (h c)
theorem State.onlyLoses_of_cmds {s t : State} (h : t.cmds = s.cmds) : s.onlyLoses t := fun _ hc => .inr (h ▸ hc)

section
variable (s : State)

theorem State.onlyLoses_freeRing (k : Nat) : s.onlyLoses (s.freeRing k) := by
  intro c hc
  rw [State.freeRing_cmds] at hc
  obtain ⟨x, hx, rfl⟩ := List.mem_map.mp hc
  split
  · exact .inl rfl
  · exact .inr (List.mem_filter.mp hx).1

theorem State.onlyLoses_finalEntry (c : Cmd) (st d : Nat) (l : List Byte) : s.onlyLoses (s.finalEntry c st d l) := by
  intro x hx
  rw [State.finalEntry_cmds] at hx
  exact .inr (List.mem_filter.mp hx).1

theorem State.onlyLoses_endClose (k : Nat) : s.onlyLoses (s.endClose k) := by
  unfold State.endClose
  split
  · exact s.onlyLoses_refl
  · split
    · exact s.onlyLoses_finalEntry _ _ _ _
    · exact s.onlyLoses_refl

theorem State.onlyLoses_drain (k : Nat) : s.onlyLoses (s.drain k) := by
  unfold State.drain
  split
  · exact State.onlyLoses_trans (State.onlyLoses_of_cmds ((s.enterCloseHold k).endHold_cmds k)) (State.onlyLoses_freeRing _ k)
  · exact s.onlyLoses_refl

theorem State.onlyLoses_closeCheck (k : Nat) : s.onlyLoses (s.closeCheck k) :=
  State.onlyLoses_trans (s.onlyLoses_endClose k) (State.onlyLoses_drain _ k)

/-- A completed command is gone. -/
theorem State.complete_loses (c : Cmd) (st d : Nat) (l : List Byte) :
    ∀ x ∈ (s.complete c st d l).cmds, x.orphan = true ∨ x ∈ s.cmds ∧ x.serial ≠ c.serial := by
  intro x hx
  refine (State.onlyLoses_closeCheck _ _ x hx).imp id fun hx => ?_
  rw [State.finalEntry_cmds] at hx
  exact ⟨(List.mem_filter.mp hx).1, by simpa using (List.mem_filter.mp hx).2⟩

/-- Aborting what a list of serials names leaves none of them. -/
theorem State.forEach_abort_loses (st target : Nat) (cause : Option Cmd) (ids : List Nat) :
    ∀ x ∈ (forEach ids (fun (s : State) id => match s.cmd id with
        | some c => s.abort c st target cause
        | none => s) s).cmds, x.orphan = true ∨ x ∈ s.cmds ∧ x.serial ∉ ids := by
  induction ids generalizing s with
  | nil => exact fun x hx => .inr ⟨hx, by simp⟩
  | cons i ids ih =>
    intro x hx
    rw [forEach_cons] at hx
    rcases ih _ x hx with ho | ⟨hm, hn⟩
    · exact .inl ho
    · cases hc : s.cmd i with
      | none =>
        rw [hc] at hm
        have hx' : x.serial ≠ i := by simpa using List.find?_eq_none.mp hc x hm
        exact .inr ⟨hm, by simp [hx', hn]⟩
      | some c =>
        rw [hc] at hm
        have hid : c.serial = i := by simpa using List.find?_some hc
        refine (s.complete_loses c _ _ _ x hm).imp id fun ⟨hm', hne⟩ => ⟨hm', ?_⟩
        rw [hid] at hne
        simp [hne, hn]

/-- No command that the condition names is left, but for those of a ring set that was freed meanwhile. -/
theorem State.abortAll_loses (f : Cmd → Bool) (st target : Nat) (cause : Option Cmd) :
    ∀ x ∈ (s.abortAll f st target cause).cmds, x.orphan = true ∨ x ∈ s.cmds ∧ f x = false := by
  intro x hx
  refine (s.forEach_abort_loses st target cause _ x hx).imp id fun ⟨hm, hn⟩ => ⟨hm, ?_⟩
  rw [← Bool.not_eq_true]
  exact fun hf => hn (List.mem_map.mpr ⟨x, List.mem_filter.mpr ⟨hm, hf⟩, rfl⟩)

theorem State.abortAll_of_none {s : State} {f : Cmd → Bool} (st target : Nat) (cause : Option Cmd)
    (h : ∀ c ∈ s.cmds, f c = false) : s.abortAll f st target cause = s := by
  have hf : s.cmds.filter f = [] := List.filter_eq_nil_iff.mpr fun c hc => by simp [h c hc]
  simp [State.abortAll, State.forCmds, hf]

end

/-! ### RINGSET_CFG (R57, R90) -/

/-- A write of RINGSET_CFG in the hold of R59 ends it first. -/
def State.leaveHold (s : State) (k : Nat) : State := if (s.ring k).closeHold = true then s.endHold k else s

theorem State.leaveHold_closeHold (s : State) (k : Nat) : ((s.leaveHold k).ring k).closeHold = false := by
  unfold State.leaveHold
  split
  · exact (s.endHold_ring k).1
  · next h => simpa using h
theorem State.leaveHold_cmds (s : State) (k : Nat) : (s.leaveHold k).cmds = s.cmds := by
  unfold State.leaveHold; split
  · exact s.endHold_cmds k
  · rfl

@[simp] theorem State.writeCfg_ring (s : State) (k : Nat) (on : Bool) (eq cq sq : BitVec 4) :
    (s.writeCfg k on eq cq sq).ring k
      = { s.ring k with enable := on, cfgSizes := eq.toNat * 256 + cq.toNat * 16 + sq.toNat } := State.modRing_self ..
@[simp] theorem State.writeCfg_boot (s : State) (k : Nat) (on : Bool) (eq cq sq : BitVec 4) :
    (s.writeCfg k on eq cq sq).boot = s.boot := rfl
@[simp] theorem State.writeCfg_pav (s : State) (k : Nat) (on : Bool) (eq cq sq : BitVec 4) (p : Nat) :
    (s.writeCfg k on eq cq sq).pav p = s.pav p := rfl

/-- Finding a place for a ring set leaves every ring set. -/
theorem State.allocRing_ring {s x : State} {q fn a : Nat} (h : s.allocRing q fn = some (a, x)) (k : Nat) :
    x.ring k = s.ring k := by
  unfold State.allocRing at h
  split at h
  · obtain ⟨_, -, hx⟩ := Option.map_eq_some_iff.mp h
    cases hx
    rfl
  · obtain ⟨_, -, hx⟩ := Option.map_eq_some_iff.mp h
    cases hx
    rfl

/-- The ring set that RINGSET_CFG allocates at a place, in a state that has found it. -/
def State.placeRing (x : State) (k a : Nat) (eq cq sq : BitVec 4) : State :=
  (x.zeroMem a (ringBytes + stagingBytes)).modRing k fun g => { g with
    eqLog2 := eq.toNat, cqLog2 := cq.toNat, sqLog2 := sq.toNat, error := 0, ready := true, base := a
    staging := a + stagingOffset }

theorem State.placeRing_ring (x : State) (k a : Nat) (eq cq sq : BitVec 4) : (x.placeRing k a eq cq sq).ring k =
    { x.ring k with
      eqLog2 := eq.toNat, cqLog2 := cq.toNat, sqLog2 := sq.toNat, error := 0, ready := true, base := a
      staging := a + stagingOffset } := State.modRing_self ..

theorem State.placeRing_zeroes (s : State) (k a : Nat) (eq cq sq : BitVec 4) (x : Nat) (hlo : a ≤ x)
    (hhi : x < a + ringBytes + stagingBytes) : cellGet (s.placeRing k a eq cq sq).mem.cells x = 0 :=
  (s.zeroMem_spec a (ringBytes + stagingBytes) x).trans (if_pos ⟨hlo, by omega⟩)

section
variable {r : FnRef} {eq cq sq : BitVec 4} {s u : State} (hl : s.live r) (hup : s.roleUp 0 = true)
  (hu : u = s.leaveHold (fnKey r))
include hl hup hu

theorem ringsetCfgEnable_of_busy (h : (u.ring (fnKey r)).isOpen = true ∨ (u.ring (fnKey r)).draining = true
    ∨ (u.ring (fnKey r)).busy = true) : exec (.ringsetCfgEnable r eq cq sq) s = .next (u.ringError (fnKey r) 5) := by
  subst hu
  simp only [State.leaveHold] at h ⊢
  simp only [exec, execRingsetCfgEnable, hl, hup, Bool.not_true, Bool.false_eq_true, if_false]
  rw [if_pos (by simpa [or_assoc] using h)]

/-- A ring set that is free takes the register, and then the first error of log 41 is reported. -/
theorem ringsetCfgEnable_of_free (ho : (u.ring (fnKey r)).isOpen = false) (hd : (u.ring (fnKey r)).draining = false)
    (hb : (u.ring (fnKey r)).busy = false) : exec (.ringsetCfgEnable r eq cq sq) s =
      let w := u.writeCfg (fnKey r) true eq cq sq
      if u.boot.stage < 9 then .next (w.ringError (fnKey r) 2)
      else if r.fn.val ≠ 0 ∧ (u.pav (r.fn.val - 1)).isNone = true then .next (w.ringError (fnKey r) 3)
      else if validSizes eq.toNat cq.toNat sq.toNat = false then .next (w.ringError (fnKey r) 1)
      else match (w.freeRing (fnKey r)).allocRing r.port.val r.fn.val with
        | none => .next ((w.freeRing (fnKey r)).ringError (fnKey r) 4)
        | some (a, x) => .next (x.placeRing (fnKey r) a eq cq sq) := by
  subst hu
  simp only [State.leaveHold] at ho hd hb ⊢
  simp only [exec, execRingsetCfgEnable, hl, hup, ho, hd, hb, Bool.not_true, Bool.or_self, Bool.false_eq_true, if_false,
    State.writeCfg_boot, State.writeCfg_pav, Bool.not_eq_true']
  rfl

theorem ringsetCfgDisable_eq : exec (.ringsetCfgDisable ⟨r, eq, cq, sq⟩) s =
    if ((u.ring (fnKey r)).draining || (u.ring (fnKey r)).busy) = true then .next (u.ringError (fnKey r) 5)
    else .next ((u.writeCfg (fnKey r) false eq cq sq).disableRing (fnKey r)) := by
  subst hu
  simp only [State.leaveHold, exec, execRingsetCfgDisable, hl, hup, Bool.not_true, Bool.false_eq_true, if_false]
  rfl

end

/-! ### Disabling a ring set (R90) -/

section
variable {s : State} {k : Nat}

/-- Without a session the ring set is freed at once. -/
theorem State.disableRing_of_closed (ho : (s.ring k).isOpen = false) (hh : (s.ring k).closeHold = false) :
    s.disableRing k = (s.freeRing k).modRing k fun g => { g with enable := false } := by
  simp [State.disableRing, ho, hh]

/-- A ring set that RINGSET_CFG disables in an open session. -/
def State.beginDrain (s : State) (k : Nat) : State :=
  s.modRing k fun g => { g with draining := true, busy := true, enable := false, error := 0 }

theorem State.disableRing_of_open (ho : (s.ring k).isOpen = true) : s.disableRing k = ((s.beginDrain k).abortAll
    (fun x => x.key == k && x.phase != .started && !x.orphan) 0x0305 0xFFFF none).closeCheck k := by
  simp only [State.disableRing, ho, if_true]
  rfl

/-- No command of the ring set counts as outstanding when each of them has lost it. -/
theorem State.outstanding_eq_zero (h : ∀ c ∈ s.cmds, c.key = k → c.orphan = true) : s.outstanding k = 0 := by
  rw [State.outstanding, List.length_eq_zero_iff, List.filter_eq_nil_iff]
  intro c hc
  by_cases hk : c.key = k <;> simp [hk, h c hc]

/-- With no command left a draining ring set goes. -/
theorem State.closeCheck_of_drained (hd : (s.ring k).draining = true) (h : ∀ c ∈ s.cmds, c.key = k → c.orphan = true) :
    ((s.closeCheck k).ring k).ready = false ∧ ((s.closeCheck k).ring k).isOpen = false := by
  have hd' : ((s.endClose k).ring k).draining = true := by
    unfold State.endClose
    split
    · exact hd
    · split
      · dsimp only
        rw [State.enterCloseHold, State.modRing_self]
        exact (congrArg RingSet.draining (s.settings_finalEntry _ _ _ _ k) :).trans hd
      · exact hd
  have h0 : (s.endClose k).outstanding k = 0 := State.outstanding_eq_zero fun c hc hk =>
    (s.onlyLoses_endClose k c hc).elim id fun hs => h c hs hk
  rw [State.closeCheck_eq, State.drain, hd', h0, if_pos (show (true && 0 == 0) = true from rfl), State.freeRing_ring]
  exact ⟨rfl, rfl⟩

end

end Sys2Proof.Machine

open Sys2Proof Sys2Proof.Machine

/-! ### O6 -/

/-- Settles O6: the two writes of RINGSET_CFG, case by case of log 41, and what an open session leaves. -/
theorem ringSetsAreAllocatedAndFreed : Obligations.RingSetsAreAllocatedAndFreed := by
  intro r eq cq sq s hl hup k u w zeroed
  have hu : u = s.leaveHold (fnKey r) := rfl
  have hk : fnKey r = k := rfl
  refine ⟨ringsetCfgEnable_of_busy hl hup hu, fun ho hd hb => ?_, fun hb => ?_, fun hd hb => ?_⟩
  · rw [ringsetCfgEnable_of_free hl hup hu ho hd hb]
    refine ⟨fun hst => if_pos hst, fun hst hfn hp => ?_, fun hst hp => ?_⟩
    · dsimp only
      rw [if_neg (by omega), if_pos ⟨hfn, by rw [hp]; rfl⟩]
      rfl
    · have hp' : ¬(r.fn.val ≠ 0 ∧ (u.pav (r.fn.val - 1)).isNone = true) := fun ⟨hfn, hn⟩ =>
        hp.elim hfn fun hs => by simp [Option.isNone_iff_eq_none.mp hn] at hs
      dsimp only
      rw [if_neg (by omega), if_neg hp']
      refine ⟨fun hv => if_pos hv, fun hv => ?_⟩
      rw [if_neg (by simp [hv])]
      refine ⟨fun ha => ?_, fun a x ha => ?_⟩ <;>
        rw [show ((u.writeCfg (fnKey r) true eq cq sq).freeRing (fnKey r)).allocRing r.port.val r.fn.val = _ from ha]
      · rfl
      · refine ⟨_, rfl, ?_⟩
        rw [State.placeRing_ring, State.allocRing_ring ha, State.freeRing_ring, State.writeCfg_ring]
        exact ⟨rfl, rfl, rfl, rfl, rfl, rfl, rfl, rfl, rfl, rfl, rfl, rfl, rfl, rfl, rfl, x.placeRing_zeroes k a eq cq sq⟩
  · rw [ringsetCfgDisable_eq hl hup hu]
    exact if_pos (by simpa using hb)
  · have hfree : ((u.ring (fnKey r)).draining || (u.ring (fnKey r)).busy) = false := by rw [hk, hd, hb]; rfl
    rw [ringsetCfgDisable_eq hl hup hu, hfree, if_neg Bool.false_ne_true]
    have hring := u.writeCfg_ring k false eq cq sq
    refine ⟨fun ho => ⟨_, rfl, ?_⟩, fun ho => ⟨_, rfl, ?_⟩⟩
    · rw [hk, State.disableRing_of_closed (by rw [hring]; exact ho)
        (by rw [hring, hu]; exact s.leaveHold_closeHold k), State.modRing_self, State.freeRing_ring]
      refine ⟨rfl, rfl, rfl, fun hr x hlo hhi => ?_, State.freeRing_orphans _ k⟩
      exact State.freeRing_zeroes _ k (by rw [hring]; exact hr) x (by rwa [hring]) (by rwa [hring])
    · rw [hk, State.disableRing_of_open (by rw [hring]; exact ho)]
      have hcmds : ((u.writeCfg k false eq cq sq).beginDrain k).cmds = s.cmds := by
        rw [← s.leaveHold_cmds k, ← hu]; rfl
      refine ⟨?_, fun c hc hck => ?_, fun hall => ?_⟩
      · rw [State.enable_closeCheck, State.enable_abortAll, State.beginDrain, State.modRing_self]
      · rcases State.onlyLoses_closeCheck _ k c hc with h | h
        · exact .inr h
        · rcases State.abortAll_loses _ _ _ _ _ c h with h | ⟨-, h⟩
          · exact .inr h
          · simpa [hck, Classical.or_iff_not_imp_left] using h
      · rw [← hcmds] at hall
        rw [State.abortAll_of_none _ _ _ fun c hc => ?_]
        · exact State.closeCheck_of_drained (by rw [State.beginDrain, State.modRing_self]) hall
        · by_cases hck : c.key = k <;> simp [hck, hall c hc]
end

section
/-! PROOFS. O7: RING_OPEN and RING_CLOSE (R58, R59). -/

namespace Sys2Proof.Machine

/-! ### Commands as they start and end -/

theorem State.cmd_serial {s : State} {id : Nat} {c : Cmd} (h : s.cmd id = some c) : c.serial = id := by
  simpa using List.find?_some h

/-- The command that has started, as it then stands. -/
def Cmd.asStarted (c : Cmd) (now : Nat) : Cmd := { c with phase := .started, startedAt := now }

theorem State.started_cmds (s : State) (c : Cmd) :
    (s.started c).cmds = s.cmds.map fun x => if x.serial == c.serial then x.asStarted s.now else x := rfl

theorem State.started_cmd {s : State} {id : Nat} {c : Cmd} (h : s.cmd id = some c) :
    (s.started c).cmd id = some (c.asStarted s.now) := by
  have hs := State.cmd_serial h
  rw [State.cmd, State.started_cmds, List.find?_map]
  have hf : ((fun x : Cmd => x.serial == id) ∘ fun x => if x.serial == c.serial then x.asStarted s.now else x)
      = fun x => x.serial == id := by
    funext x
    simp only [Function.comp]
    split <;> rfl
  rw [hf]
  change (s.cmd id).map _ = _
  rw [h]
  simp

/-! ### Completing outside a close -/

@[simp] theorem State.recordNotes_ring (s : State) (c : Cmd) (l : List Nat) (j : Nat) :
    (s.recordNotes c l).ring j = s.ring j :=
  forEach_keep (g := fun s : State => s.ring j) (fun s _ => s.logEvent_ring _ j) l s
theorem State.cmds_of_quiet {s t : State} (h : t.quiet = s.quiet) : t.cmds = s.cmds := (congrArg State.cmds h :)

/-- Where the ring set neither closes nor drains, a command that finishes leaves its settings and ends. -/
theorem State.finish_of_idle {s : State} {c : Cmd} (l : List Byte) (d low : Nat) (hc : (s.ring c.key).closing = none)
    (hd : (s.ring c.key).draining = false) : ((s.finish c l d low).ring c.key).settings = (s.ring c.key).settings
      ∧ (s.finish c l d low).cmds = s.cmds.filter fun x => x.serial != c.serial := by
  unfold State.finish
  split
  · rw [State.complete_eq_finalEntry _ _ _ hc hd]
    exact ⟨s.settings_finalEntry .., s.finalEntry_cmds ..⟩
  · rw [State.complete_eq_finalEntry _ _ _ (by rwa [State.recordNotes_ring]) (by rwa [State.recordNotes_ring]),
      State.settings_finalEntry, State.finalEntry_cmds, State.recordNotes_ring,
      State.cmds_of_quiet (State.quiet_recordNotes ..)]
    exact ⟨rfl, rfl⟩

theorem State.postRing_cmds (s : State) (k code sev : Nat) (d : List Byte) : (s.postRing k code sev d).cmds = s.cmds :=
  State.cmds_of_quiet (s.quiet_postRing ..)

/-! ### RING_OPEN (R58) -/

/-- The ring set of a session that RING_OPEN has opened; `first` says that it reports the start. -/
def RingSet.opened (g : RingSet) (c : Cmd) (first : Bool) : RingSet :=
  { g with
    isOpen := true, epoch := g.epoch + 1, mirrorAddr := c.word 0, cqVector := bits (c.word 1) 7 0
    eqVector := bits (c.word 1) 15 8, outMax := if c.expert then bits (c.word 2) 47 32 else 1024
    coalUs := if c.expert then bits (c.word 2) 31 16 else 0
    coalCount := if c.expert then bits (c.word 2) 15 0 else 0
    eventMask := if c.expert then bits (c.word 3) 15 0 ||| 1 else 0xFFFF
    seq := 0, eqDropped := 0, droppedNew := 0, eventNew := 0, dirty := true, startPosted := g.startPosted || first }

theorem need_of {ok : Bool} {r : Rej} (h : ok = true) : need ok r = .ok () := if_pos h

/-- The result of RING_OPEN. -/
def RingSet.openResult (g : RingSet) : List Byte :=
  res [(4, g.epoch.toNat), (4, 2 ^ g.sqLog2), (4, 2 ^ g.cqLog2), (4, 2 ^ g.eqLog2), (8, g.staging), (4, stagingBytes)]

/-- With good parameters RING_OPEN opens the session, finishes, and the first of a start reports it. -/
theorem bodyRingOpen_ok {s : State} {c : Cmd} (ho : (s.ring c.key).isOpen = false)
    (ha : c.word 0 % 64 = 0) (h0 : c.word 0 ≠ 0) (hcq : bits (c.word 1) 7 0 < 64) (heq : bits (c.word 1) 15 8 < 64)
    (hom : c.expert = true → 1 ≤ bits (c.word 2) 47 32 ∧ bits (c.word 2) 47 32 ≤ 1024) : bodyRingOpen s c =
      let first := c.fn == 0 && !(s.ring c.key).startPosted && decide (9 ≤ s.boot.stage)
      let t := s.modRing c.key (·.opened c first)
      let u := t.finish c (t.ring c.key).openResult
      .ok (if first = true then u.postRing c.key 0x0C01 0 u.startCompleteData else u) := by
  have hom' : (!c.expert || decide (1 ≤ bits (c.word 2) 47 32 ∧ bits (c.word 2) 47 32 ≤ 1024)) = true := by
    cases hx : c.expert with
    | false => rfl
    | true => simpa using hom hx
  unfold bodyRingOpen
  dsimp only
  rw [need_of (by rw [ho]; rfl), need_of (by simp [ha, h0]), need_of (by simp [hcq, heq]), need_of hom']
  rfl

/-! ### RING_CLOSE (R59) -/

/-- What RING_CLOSE with ABORT = 1 aborts. -/
def Cmd.closeAborts (c x : Cmd) : Bool := x.key == c.key && x.serial != c.serial && x.phase != .started && !x.orphan

/-- RING_CLOSE starts, aborts with ABORT = 1, and looks whether it is the last command of its ring. -/
theorem ringClose_eq {id : Nat} {c : Cmd} {s : State} (h : s.due id 0x0002 c) : exec (.ringClose id) s =
    .next ((if (c.expert && bitAt (c.word 0) 0) = true then (s.started c).abortAll c.closeAborts 0x0305 0xFFFF (some c)
      else s.started c).closeCheck c.key) := congrArg Host.Outcome.next (State.startCmd_ok h rfl)

/-- Another command of the ring than `id` is left. -/
def State.hasOthers (s : State) (k id : Nat) : Bool := s.cmds.any fun x => x.key == k && x.serial != id && !x.orphan

theorem State.hasOthers_eq_false {s : State} {k id : Nat} (h : ∀ x ∈ s.cmds, x.key = k → x.serial ≠ id → x.orphan = true) :
    s.hasOthers k id = false := by
  rw [State.hasOthers, List.any_eq_false]
  intro x hx
  by_cases hk : x.key = k <;> by_cases hi : x.serial = id <;> simp [hk, hi, h x hx]

theorem State.hasOthers_eq_true {s : State} {k id : Nat} (h : ∃ x ∈ s.cmds, x.key = k ∧ x.serial ≠ id ∧ x.orphan = false) :
    s.hasOthers k id = true := by
  obtain ⟨x, hx, hk, hi, ho⟩ := h
  exact List.any_eq_true.mpr ⟨x, hx, by simp [hk, hi, ho]⟩

/-- The start of a command does not touch the others. -/
theorem State.hasOthers_started {s : State} {id : Nat} {c : Cmd} (h : s.cmd id = some c) (k : Nat) :
    (s.started c).hasOthers k id = s.hasOthers k id := by
  rw [State.hasOthers, State.started_cmds, List.any_map, State.cmd_serial h]
  congr 1
  funext x
  simp only [Function.comp]
  split <;> rfl

/-- With no other command of its ring left, RING_CLOSE aborts none. -/
theorem State.closeAborts_of_no_others {s : State} {id : Nat} {c : Cmd} (hc : s.cmd id = some c)
    (h : s.hasOthers c.key id = false) : ∀ x ∈ (s.started c).cmds, c.closeAborts x = false := by
  intro x hx
  have hx' := List.any_eq_false.mp ((State.hasOthers_started hc c.key).trans h) x hx
  rw [← State.cmd_serial hc] at hx'
  simp only [Cmd.closeAborts]
  grind

section
variable {s : State} {id : Nat} {c : Cmd} (hc : s.cmd id = some c) (hcl : (s.ring c.key).closing = some id)
include hc hcl

theorem State.endClose_started : (s.started c).endClose c.key =
    if s.hasOthers c.key id = true then s.started c
    else
      let e := (s.ring c.key).closeEnd.getD (stDone, 0)
      ((s.started c).finalEntry (c.asStarted s.now) e.1 e.2 []).enterCloseHold c.key := by
  have hcmd : ((s.started c).ring c.key).closing.bind (s.started c).cmd = some (c.asStarted s.now) := by
    rw [← State.started_cmd hc]
    exact congrArg (Option.bind · _) hcl
  have hany : ((s.started c).cmds.any fun x => x.key == c.key && x.serial != (c.asStarted s.now).serial && !x.orphan)
      = s.hasOthers c.key id := by
    rw [← State.hasOthers_started hc, State.hasOthers, ← State.cmd_serial hc]
    rfl
  rw [State.endClose, hcmd]
  dsimp only
  rw [hany]
  cases s.hasOthers c.key id with
  | true => simp
  | false => exact if_pos ⟨rfl, rfl⟩

variable (hd : (s.ring c.key).draining = false)
include hd

/-- While another command of the ring is left, RING_CLOSE waits. -/
theorem State.closeCheck_started_waits (h : s.hasOthers c.key id = true) :
    (s.started c).closeCheck c.key = s.started c := by
  rw [State.closeCheck_eq, State.endClose_started hc hcl, if_pos h]
  exact State.drain_of_not_draining hd

/-- The last command of its ring, RING_CLOSE closes the session into the hold of R59. -/
theorem State.closeCheck_started_closes (h : s.hasOthers c.key id = false) : (s.started c).closeCheck c.key =
    let e := (s.ring c.key).closeEnd.getD (stDone, 0)
    ((s.started c).finalEntry (c.asStarted s.now) e.1 e.2 []).enterCloseHold c.key := by
  rw [State.closeCheck_eq, State.endClose_started hc hcl, if_neg (by simp [h])]
  refine State.drain_of_not_draining ?_
  dsimp only
  rw [State.enterCloseHold, State.modRing_self]
  exact (congrArg RingSet.draining ((s.started c).settings_finalEntry _ _ _ _ c.key) :).trans hd

end

/-- What the settings of a ring set say of a session that RING_OPEN has opened. -/
theorem RingSet.session_of_settings {g h : RingSet} {c : Cmd} {first : Bool} (e : h.settings = (g.opened c first).settings) :
    h.isOpen = true ∧ h.epoch = g.epoch + 1 ∧ h.mirrorAddr = c.word 0
      ∧ h.cqVector = bits (c.word 1) 7 0 ∧ h.eqVector = bits (c.word 1) 15 8
      ∧ h.outMax = (if c.expert = true then bits (c.word 2) 47 32 else 1024)
      ∧ (c.expert = true → h.coalUs = bits (c.word 2) 31 16 ∧ h.coalCount = bits (c.word 2) 15 0)
      ∧ (c.expert = false → h.coalUs = 0 ∧ h.eventMask = 0xFFFF) := by
  have hus : h.coalUs = (g.opened c first).coalUs := (congrArg RingSet.coalUs e :)
  have hcount : h.coalCount = (g.opened c first).coalCount := (congrArg RingSet.coalCount e :)
  have hmask : h.eventMask = (g.opened c first).eventMask := (congrArg RingSet.eventMask e :)
  refine ⟨(congrArg RingSet.isOpen e :), (congrArg RingSet.epoch e :), (congrArg RingSet.mirrorAddr e :),
    (congrArg RingSet.cqVector e :), (congrArg RingSet.eqVector e :), (congrArg RingSet.outMax e :), fun hx => ?_, fun hx => ?_⟩
  · rw [hus, hcount]
    simp [RingSet.opened, hx]
  · rw [hus, hmask]
    simp [RingSet.opened, hx]

/-- With good parameters a due RING_OPEN ends, and its ring set has the session that it asked for. -/
theorem ringOpen_spec {id : Nat} {c : Cmd} {s : State} (h : s.due id 0x0001 c) (ho : (s.ring c.key).isOpen = false)
    (hcl : (s.ring c.key).closing = none) (hd : (s.ring c.key).draining = false)
    (ha : c.word 0 % 64 = 0) (h0 : c.word 0 ≠ 0) (hcq : bits (c.word 1) 7 0 < 64) (heq : bits (c.word 1) 15 8 < 64)
    (hom : c.expert = true → 1 ≤ bits (c.word 2) 47 32 ∧ bits (c.word 2) 47 32 ≤ 1024) :
    ∃ t first, exec (.ringOpen id) s = .next t ∧ t.cmd id = none
      ∧ (t.ring c.key).settings = ((s.ring c.key).opened c first).settings := by
  have hb := bodyRingOpen_ok ho ha h0 hcq heq hom
  dsimp only at hb
  generalize (c.fn == 0 && !(s.ring c.key).startPosted && decide (9 ≤ s.boot.stage)) = first at hb
  have hring : (s.modRing c.key (·.opened c first)).ring c.key = (s.ring c.key).opened c first := State.modRing_self ..
  rw [hring] at hb
  obtain ⟨hset, hcmds⟩ := State.finish_of_idle (s := s.modRing c.key (·.opened c first)) (c := c)
    ((s.ring c.key).opened c first).openResult 0 0xFFFF (by rw [hring]; exact hcl) (by rw [hring]; exact hd)
  rw [hring] at hset
  rw [State.cmd_serial h.1] at hcmds
  refine ⟨_, first, congrArg Host.Outcome.next (State.startCmd_ok h hb), ?_⟩
  split
  · exact ⟨State.cmd_eq_none ((State.postRing_cmds ..).trans hcmds), (State.settings_postRing ..).trans hset⟩
  · exact ⟨State.cmd_eq_none hcmds, hset⟩

end Sys2Proof.Machine

open Sys2Proof Sys2Proof.Machine

/-! ### O7 -/

/-- Settles O7: RING_OPEN is one change of the ring set and a final entry; RING_CLOSE ends, waits or aborts by what else
its ring holds. -/
theorem sessionsOpenAndClose : Obligations.SessionsOpenAndClose := by
  intro id c s g
  refine ⟨fun h ho hcl hd ha h0 hcq heq hom => ?_, fun h hcl hd horph => ⟨fun hall => ?_, fun hab hex => ?_, fun hab => ?_⟩⟩
  · obtain ⟨t, first, ht, hgone, hset⟩ := ringOpen_spec h ho hcl hd ha h0 hcq heq hom
    exact ⟨t, ht, hgone, RingSet.session_of_settings hset⟩
  · refine ⟨_, ringClose_eq h, ?_⟩
    have hothers := State.hasOthers_eq_false hall
    rw [State.abortAll_of_none _ _ _ (State.closeAborts_of_no_others h.1 hothers), ite_self,
      State.closeCheck_started_closes h.1 hcl hd hothers]
    refine ⟨State.cmd_eq_none (l := (s.started c).cmds) ?_, ?_⟩
    · rw [← State.cmd_serial h.1]
      exact State.finalEntry_cmds ..
    · dsimp only
      rw [State.enterCloseHold, State.modRing_self]
      exact ⟨rfl, rfl, rfl, rfl⟩
  · rw [ringClose_eq h, hab, if_neg Bool.false_ne_true, State.closeCheck_started_waits h.1 hcl hd (State.hasOthers_eq_true hex)]
  · refine ⟨_, ringClose_eq h, fun x hx hk hne => ?_⟩
    rw [if_pos hab] at hx
    rcases State.onlyLoses_closeCheck _ c.key x hx with h' | h'
    · exact .inr h'
    · rcases State.abortAll_loses _ _ _ _ _ x h' with h' | ⟨-, h'⟩
      · exact .inr h'
      · simpa [Cmd.closeAborts, hk, State.cmd_serial h.1, hne, Classical.or_iff_not_imp_left] using h'
end

section
/-! PROOFS. O10: the BAR2 aperture (R54, R55, R461, R463). -/

namespace Sys2Proof.Machine

/-! ### Addresses behind the aperture (R54) -/

/-- With the staging area where R54 puts it, the aperture is one range of memory. -/
theorem RingSet.bar2Addr_eq {g : RingSet} (h : g.staging = g.base + stagingOffset) (off : Nat) :
    g.bar2Addr off = g.base + off := by
  unfold RingSet.bar2Addr
  split <;> omega

theorem overlaps_byte {p a n i : Nat} (h : overlaps p 4096 a n = false) (hi : i < n) :
    overlaps p 4096 (a + i) 1 = false := by
  simp only [overlaps, decide_eq_false_iff_not] at h ⊢
  omega

/-! ### Writing byte by byte -/

/-- Write bytes at an address, one after another. -/
def State.writeBytes (s : State) (a : Nat) : List Byte → State
  | [] => s
  | b :: l => (s.writeMem a [b]).writeBytes (a + 1) l

/-- The loop of BAR2_WRITE over bytes that are all kept. -/
theorem State.forEach_writeMem (s : State) (f : Nat → Nat) (l : List Byte) (i a : Nat)
    (hf : ∀ j, j < l.length → f (i + j) = a + j) :
    forEach (l.zip (List.range' i l.length)) (fun (s : State) e => s.writeMem (f e.2) [e.1]) s = s.writeBytes a l := by
  induction l generalizing s i a with
  | nil => rfl
  | cons b l ih =>
    have h0 : f i = a := hf 0 (by simp)
    rw [List.length_cons, List.range'_succ, List.zip_cons_cons, forEach_cons, State.writeBytes, h0]
    refine ih _ (i + 1) (a + 1) fun j hj => ?_
    have := hf (j + 1) (by simp; omega)
    rw [Nat.add_right_comm, Nat.add_assoc i j 1, this]
    omega

/-- Bytes that fall on no retired page land one by one, as in one write. -/
theorem State.writeBytes_spec {s : State} (a : Nat) (l : List Byte)
    (hr : ∀ p ∈ s.mem.retired, overlaps p 4096 a l.length = false) :
    (s.writeBytes a l).mem.cells = cellsPut s.mem.cells a l ∧ (s.writeBytes a l).rings = s.rings
      ∧ (s.writeBytes a l).pavs = s.pavs ∧ (s.writeBytes a l).cmds = s.cmds := by
  induction l generalizing s a with
  | nil => exact ⟨rfl, rfl, rfl, rfl⟩
  | cons b l ih =>
    have h1 : (s.mem.retired.any fun p => overlaps p 4096 a [b].length) = false := by
      rw [List.any_eq_false]
      exact fun p hp => by simpa using overlaps_byte (i := 0) (hr p hp) (by simp)
    have hw : s.writeMem a [b] = s.modMem fun m => { m with
        cells := cellPut m.cells a b
        bad := m.bad.filter fun w => !decide (a ≤ w ∧ w + codeWord w ≤ a + [b].length) } := by
      rw [State.writeMem, h1]
      rfl
    rw [State.writeBytes, hw]
    refine ih (a + 1) fun p hp => ?_
    have := hr p hp
    simp only [overlaps, decide_eq_false_iff_not, List.length_cons] at this ⊢
    omega

/-! ### BAR2_WRITE and BAR2_READ -/

section
variable {r : FnRef} {s : State} {off : Nat} (hl : s.live r)
include hl

theorem bar2Write_past {bytes : List Byte} (b : Bool) (h : 256 * mib < off + bytes.length) :
    exec (.bar2Write r off bytes b) s = .next (s.discardWrite r) := by
  simp [exec, execBar2Write, hl, h]

theorem bar2Write_poisoned {bytes : List Byte} (h : off + bytes.length ≤ 256 * mib) :
    exec (.bar2Write r off bytes true) s = .next (s.emit (.poisonedReceived r.port.val r.fn.val)) := by
  simp [exec, execBar2Write, hl, Nat.not_lt_of_le h]

theorem bar2Write_unallocated {bytes : List Byte} (hr : (s.ring (fnKey r)).ready = false)
    (h : off + bytes.length ≤ 256 * mib) : exec (.bar2Write r off bytes false) s = .next s := by
  simp [exec, execBar2Write, hl, hr, Nat.not_lt_of_le h]

theorem bar2Read_unallocated {len : Nat} (errs : MemErrors) (hr : (s.ring (fnKey r)).ready = false) (h0 : 0 < len)
    (h4 : len ≤ 4096) (h : off + len ≤ 256 * mib) : exec (.bar2Read r off ⟨len, errs⟩) s
      = .next (s.emit (.readData r.port.val r.fn.val (List.replicate len 0))) := by
  have hin : ¬(256 * mib < off + len ∨ len = 0 ∨ 4096 < len) := by omega
  simp [exec, execBar2Read, hl, hr, hin]

variable (hr : (s.ring (fnKey r)).ready = true)
include hr

/-- A write of which nothing is permitted is discarded. -/
theorem bar2Write_ignored {bytes : List Byte} (hne : bytes ≠ []) (h : off + bytes.length ≤ 256 * mib)
    (hw : ∀ i, i < bytes.length → (s.ring (fnKey r)).writable (off + i) = false) :
    exec (.bar2Write r off bytes false) s = .next (s.discardWrite r) := by
  have hall : ((List.range bytes.length).all fun i => (s.ring (fnKey r)).writable (off + i)) = false := by
    rw [List.all_eq_false]
    exact ⟨0, by simp [List.length_pos_iff.mpr hne], by simpa using hw 0 (List.length_pos_iff.mpr hne)⟩
  have hkept : ((bytes.zip (List.range bytes.length)).filter fun e => (s.ring (fnKey r)).writable (off + e.2)) = [] := by
    rw [List.filter_eq_nil_iff]
    intro e he
    simp [hw e.2 (List.mem_range.mp (List.of_mem_zip he).2)]
  simp [exec, execBar2Write, hl, hr, Nat.not_lt_of_le h, hall, hkept]

/-- A write that is permitted in full lands byte by byte. -/
theorem bar2Write_lands {bytes : List Byte} (hst : (s.ring (fnKey r)).staging = (s.ring (fnKey r)).base + stagingOffset)
    (h : off + bytes.length ≤ 256 * mib) (hw : ∀ i, i < bytes.length → (s.ring (fnKey r)).writable (off + i) = true)
    (hp : s.partialBad ((s.ring (fnKey r)).base + off) bytes.length = none) :
    exec (.bar2Write r off bytes false) s = .next (s.writeBytes ((s.ring (fnKey r)).base + off) bytes) := by
  have hall : ((List.range bytes.length).all fun i => (s.ring (fnKey r)).writable (off + i)) = true := by
    rw [List.all_eq_true]
    exact fun i hi => hw i (List.mem_range.mp hi)
  have hkept : ((bytes.zip (List.range bytes.length)).filter fun e => (s.ring (fnKey r)).writable (off + e.2))
      = bytes.zip (List.range bytes.length) := by
    rw [List.filter_eq_self]
    exact fun e he => hw e.2 (List.mem_range.mp (List.of_mem_zip he).2)
  have hloop := s.forEach_writeMem (fun i => (s.ring (fnKey r)).base + (off + i)) bytes 0
    ((s.ring (fnKey r)).base + off) fun j _ => by omega
  rw [← List.range_eq_range'] at hloop
  simp only [exec, execBar2Write, hl, hr, Nat.not_lt_of_le h, hall, hkept, RingSet.bar2Addr_eq hst, hp, Bool.not_true,
    Bool.false_eq_true, if_false, if_true]
  rw [hloop]
  cases bytes with
  | nil => rfl
  | cons b l => exact if_neg (by simp [List.range_succ_eq_map])

section
variable {len : Nat} {errs : MemErrors} (hst : (s.ring (fnKey r)).staging = (s.ring (fnKey r)).base + stagingOffset)
  (h0 : 0 < len) (h4 : len ≤ 4096) (h : off + len ≤ 256 * mib)
include hst h0 h4 h

/-- A read that meets only words that read answers what is stored in the readable parts. -/
theorem bar2Read_answers
    (hb : (s.meetIn errs ((s.ring (fnKey r)).base + off) len).badRead ((s.ring (fnKey r)).base + off) len = none) :
    exec (.bar2Read r off ⟨len, errs⟩) s =
      let u := s.meetIn errs ((s.ring (fnKey r)).base + off) len
      .next (u.emit (.readData r.port.val r.fn.val ((List.range len).map fun i =>
        if (s.ring (fnKey r)).readable (off + i) = true then cellGet u.mem.cells ((s.ring (fnKey r)).base + off + i)
        else 0))) := by
  have hin : ¬(256 * mib < off + len ∨ len = 0 ∨ 4096 < len) := by omega
  simp only [exec, execBar2Read, hl, hr, hin, RingSet.bar2Addr_eq hst, hb, Bool.not_true, Bool.false_eq_true, if_false,
    Nat.add_assoc]

/-- A read that meets a word that does not read ends with Completer Abort. -/
theorem bar2Read_aborts {w : Nat}
    (hb : (s.meetIn errs ((s.ring (fnKey r)).base + off) len).badRead ((s.ring (fnKey r)).base + off) len = some w) :
    exec (.bar2Read r off ⟨len, errs⟩) s = .next (((s.meetIn errs ((s.ring (fnKey r)).base + off) len).memError w 1).emit
      (.completerAbort r.port.val r.fn.val)) := by
  have hin : ¬(256 * mib < off + len ∨ len = 0 ∨ 4096 < len) := by omega
  simp only [exec, execBar2Read, hl, hr, hin, RingSet.bar2Addr_eq hst, hb, Bool.not_true, Bool.false_eq_true, if_false]

end

end

end Sys2Proof.Machine

open Sys2Proof Sys2Proof.Machine

/-! ### O10 -/

/-- Settles O10: what is permitted is written byte by byte, and a read is one equation of `exec`. -/
theorem apertureServesTheHost : Obligations.ApertureServesTheHost := by
  refine ⟨fun r off s hl hmem => ?_, fun r off bytes s hl => ?_⟩
  · intro g hr hst
    refine ⟨fun bytes h hw hp hret => ?_, fun bytes hne h hw => bar2Write_ignored hl hr hne h hw, ⟨rfl, rfl⟩,
      fun x => decide_eq_true_iff, fun len errs h0 h4 h => ?_⟩
    · obtain ⟨hcells, hrings, hpavs, hcmds⟩ := State.writeBytes_spec (g.base + off) bytes hret
      have hwf := State.memWf_mem hmem
      refine ⟨_, bar2Write_lands hl hr hst h hw hp, ?_, fun a ha => ?_, hrings, hpavs, hcmds⟩
      · rw [hcells]; exact cellsGet_cellsPut_self _ bytes hwf
      · rw [hcells]; exact cellGet_cellsPut_outside hwf ha
    · exact ⟨fun hnil => hnil ▸ rfl, bar2Read_answers hl hr hst h0 h4 h, fun _ => bar2Read_aborts hl hr hst h0 h4 h⟩
  · exact ⟨bar2Write_poisoned hl, bar2Write_past hl, bar2Write_unallocated hl,
      fun len errs => bar2Read_unallocated hl errs⟩
end

section
/-! PROOFS. O8 and O13: what cutting commands and runs off leaves standing: which pavilions are stopped (R406) and
which hosts are lost (R419). -/

namespace Sys2Proof.Machine

/-! ### What stands through the end of commands and runs -/

/-- Which pavilions are stopped (R406), and which hosts are lost (R419). -/
def State.standing (s : State) : (Nat → Option Bool) × (Nat → Bool) :=
  (fun p => (s.pav p).map (·.stopped), fun q => (s.port q).lost)

theorem State.lost_of_standing {s t : State} (h : t.standing = s.standing) (q : Nat) :
    (t.port q).lost = (s.port q).lost := congrFun (congrArg Prod.snd h) q
theorem State.stopped_of_standing {s t : State} (h : t.standing = s.standing) (p : Nat) :
    (t.pav p).map (·.stopped) = (s.pav p).map (·.stopped) := congrFun (congrArg Prod.fst h) p

theorem State.standing_of_quiet {s t : State} (h : t.quiet = s.quiet) : t.standing = s.standing :=
  (congrArg State.standing h :)

section
variable (s : State)

/-- A change of a pavilion that neither stops nor re-arms it. -/
theorem State.standing_modPav (p : Nat) {f : Pav → Pav} (h : ∀ v, (f v).stopped = v.stopped) :
    (s.modPav p f).standing = s.standing := by
  refine Prod.ext (funext fun j => ?_) rfl
  by_cases hj : j = p
  · subst hj
    simp only [State.standing, State.modPav_self, Option.map_map]
    cases s.pav j with
    | none => rfl
    | some v => exact congrArg some (h v)
  · simp only [State.standing, State.modPav_ne _ _ hj]

theorem State.standing_modRun (p : Nat) (f : Run → Run) : (s.modRun p f).standing = s.standing :=
  s.standing_modPav p fun _ => rfl
theorem State.standing_modRing (k : Nat) (f : RingSet → RingSet) : (s.modRing k f).standing = s.standing := rfl
theorem State.standing_count (i n : Nat) : (s.count i n).standing = s.standing := rfl
theorem State.standing_modCluster (c : Nat) (f : Cluster → Cluster) : (s.modCluster c f).standing = s.standing := rfl
theorem State.standing_freeMem (p a : Nat) : (s.freeMem p a).standing = s.standing := s.standing_modPav p fun _ => rfl
theorem State.standing_writeMem (a : Nat) (l : List Byte) : (s.writeMem a l).standing = s.standing :=
  State.standing_of_quiet (s.quiet_writeMem a l)
theorem State.standing_zeroMem (a n : Nat) : (s.zeroMem a n).standing = s.standing := rfl
theorem State.standing_postTo (ks : List Nat) (e : Event) : (s.postTo ks e).standing = s.standing :=
  State.standing_of_quiet (s.quiet_postTo ks e)
theorem State.standing_postPav (p code sev place : Nat) (d : List Byte) :
    (s.postPav p code sev place d).standing = s.standing := s.standing_postTo ..

/-! Completions. -/

theorem State.standing_finalEntry (c : Cmd) (st d : Nat) (l : List Byte) :
    (s.finalEntry c st d l).standing = s.standing := by
  unfold State.finalEntry
  dsimp only
  split
  · rfl
  · rw [State.standing_modRing, State.standing_of_quiet (State.quiet_cqWrite ..)]; rfl

theorem State.standing_freeRing (k : Nat) : (s.freeRing k).standing = s.standing := by
  unfold State.freeRing
  extract_lets r keep s₁ s₂ s₃
  have h₂ : s₂.standing = s.standing := by unfold s₂; split <;> rfl
  have h₃ : s₃.standing = s₂.standing := by
    unfold s₃
    split
    · exact s₂.standing_freeMem ..
    · rfl
  exact h₃.trans h₂

theorem State.standing_endHold (k : Nat) : (s.endHold k).standing = s.standing := by
  have hw : ∀ t : State, (t.writeMirror k).standing = t.standing := fun t => by
    unfold State.writeMirror State.hostWrite; dsimp only; split <;> rfl
  unfold State.endHold
  dsimp only
  split
  · exact hw _
  · rfl

theorem State.standing_closeCheck (k : Nat) : (s.closeCheck k).standing = s.standing := by
  have hdrain : ∀ t : State, (t.drain k).standing = t.standing := fun t => by
    unfold State.drain
    split
    · rw [State.standing_freeRing, State.standing_endHold]; rfl
    · rfl
  rw [State.closeCheck_eq, hdrain]
  unfold State.endClose
  split
  · rfl
  · split
    · exact s.standing_finalEntry ..
    · rfl

theorem State.standing_complete (c : Cmd) (st d : Nat) (l : List Byte) : (s.complete c st d l).standing = s.standing := by
  rw [State.complete, State.standing_closeCheck, State.standing_finalEntry]
theorem State.standing_abort (c : Cmd) (st target : Nat) (x : Option Cmd) :
    (s.abort c st target x).standing = s.standing := s.standing_complete ..
theorem State.standing_finish (c : Cmd) (l : List Byte) (d low : Nat) : (s.finish c l d low).standing = s.standing := by
  unfold State.finish
  split
  · exact s.standing_complete ..
  · rw [State.standing_complete, State.standing_of_quiet (State.quiet_recordNotes ..)]

theorem State.standing_forCmds (f : Cmd → Bool) {g : State → Cmd → State}
    (h : ∀ s c, (g s c).standing = s.standing) : (s.forCmds f g).standing = s.standing := by
  refine forEach_keep (g := State.standing) (fun s id => ?_) _ s
  split
  · exact h ..
  · rfl
theorem State.standing_abortAll (f : Cmd → Bool) (st target : Nat) (x : Option Cmd) :
    (s.abortAll f st target x).standing = s.standing := s.standing_forCmds f fun s c => s.standing_abort c st target x

/-! The end of a step before its seal, and of a run. -/

theorem State.standing_unseal (p : Nat) : (s.unseal p).standing = s.standing := by
  unfold State.unseal
  extract_lets kept s₁ fresh s₂ s₃
  have h₁ : s₁.standing = s.standing := forEach_keep (g := State.standing) (fun s n => by
    dsimp only
    split <;> rfl) _ s
  have h₂ : s₂.standing = s₁.standing :=
    forEach_keep (g := State.standing) (fun s e => s.standing_freeMem p _) _ s₁
  have h₃ : s₃.standing = s.standing := h₂.trans h₁
  split
  · exact h₃
  · rw [← h₃]
    exact s₃.standing_modPav p fun _ => rfl

theorem State.standing_putCode (p hd : Nat) (h : Handle) (i sl : Nat) (c : Coord) (code : Nat) :
    (s.putCode p hd h i sl c code).standing = s.standing := by
  unfold State.putCode
  split
  · rfl
  · split
    · split <;> exact State.standing_writeMem ..
    · exact s.standing_modPav p fun _ => rfl
    · rfl

theorem State.standing_spoilTile (p hd : Nat) (h : Handle) (i : Nat) (t : TileRef) :
    (s.spoilTile p hd h i t).standing = s.standing := by
  unfold State.spoilTile
  extract_lets g
  refine forEach_keep (g := State.standing) (fun s a => ?_) _ s
  have hrow : ∀ l : List Nat, (forEach l (fun s b => s.spoilCode p hd h i t.slice (g.tileCoord i t a b)) s).standing
      = s.standing := fun l => forEach_keep (g := State.standing) (fun s b => s.standing_putCode ..) l s
  dsimp only
  split
  · exact hrow _
  · exact (forEach_keep (g := State.standing) (fun s b => s.standing_putCode ..) _ _).trans (hrow _)

theorem State.standing_spoilRun (p : Nat) : (s.spoilRun p).standing = s.standing := by
  unfold State.spoilRun
  split
  · rfl
  · exact forEach_keep (g := State.standing) (fun s e => s.standing_spoilTile ..) _ s

theorem State.standing_recordNan (p : Nat) (x : TrapInfo) : (s.recordNan p x).1.standing = s.standing := by
  have hput : ∀ (iter step pid : Nat) (on first : Bool),
      (s.putTrap p x iter step pid on first).1.standing = s.standing := fun iter step pid on first => by
    unfold State.putTrap
    split
    · rfl
    · dsimp only
      split
      · rw [State.standing_count, State.standing_count]
        exact s.standing_modPav p fun _ => rfl
      · rw [State.standing_count]
        exact s.standing_modPav p fun _ => rfl
  unfold State.recordNan
  split
  · rfl
  · exact (State.standing_modRun ..).trans (hput ..)

/-! Messages of a pavilion's units. -/

theorem State.standing_serveLink (l fuel : Nat) : (s.serveLink l fuel).standing = s.standing := by
  induction fuel generalizing s with
  | zero => rfl
  | succ fuel ih =>
    rw [State.serveLink]
    dsimp only
    split
    · rfl
    · split
      · rfl
      · rw [ih]
        split
        · next i w _ _ _ => cases w.counts <;> rfl
        · rfl

theorem State.standing_queueFor (l : Nat) (w : Waiting) : (s.queueFor l w).standing = s.standing := by
  unfold State.queueFor State.flushLink
  dsimp only
  split
  · rfl
  · exact (State.standing_serveLink ..).trans rfl

theorem State.standing_trySend (p dest bytes t : Nat) (e : Emission) :
    (s.trySend p dest bytes t e).standing = s.standing := by
  unfold State.trySend
  split
  · split
    · rfl
    · split
      · rfl
      · split
        · rfl
        · dsimp only
          split
          · rfl
          · exact s.standing_queueFor ..
  · rfl

theorem State.standing_endColl (p op cause peer : Nat) : (s.endColl p op cause peer).standing = s.standing := by
  unfold State.endColl
  split
  · rfl
  · next v _ =>
    extract_lets own s₁ s₂ s₃
    have h₁ : s₁.standing = s.standing := by
      unfold s₁
      split
      · rfl
      · exact forEach_keep (g := State.standing) (fun s x => s.standing_trySend ..) _ s
    have h₂ : s₂.standing = s₁.standing := s₁.standing_modPav p fun _ => rfl
    exact (State.standing_postPav ..).trans ((rfl : s₃.standing = s₂.standing).trans (h₂.trans h₁))

/-! Runs that end, and pavilions that park. -/

theorem State.standing_dropUnstarted (p : Nat) : (s.dropUnstarted p).standing = s.standing := by
  refine forEach_keep (g := State.standing) (fun s q => ?_) _ s
  split
  · rfl
  · exact s.standing_abortAll ..

theorem State.standing_parkIfDue (p : Nat) : (s.parkIfDue p).standing = s.standing := by
  unfold State.parkIfDue
  split
  · rfl
  · next v _ =>
    split
    · rfl
    · extract_lets q s₁ s₂ s₃
      have h₁ : s₁.standing = s.standing := s.standing_dropUnstarted p
      have h₂ : s₂.standing = s₁.standing := by
        unfold s₂
        split
        · exact s₁.standing_abort ..
        · rfl
      have h₃ : s₃.standing = s₂.standing := s₂.standing_modPav p fun _ => rfl
      exact (s₃.standing_postTo ..).trans (h₃.trans (h₂.trans h₁))

theorem State.standing_endRun (p st d : Nat) (result : Option (List Byte)) (cause : Nat) :
    (s.endRun p st d result cause).standing = s.standing := by
  unfold State.endRun
  split
  · rfl
  · next v r₀ h _ =>
    extract_lets held res good s₁ r s₂ s₃ s₄ s₅ s₆ s₇ s₈
    have h₁ : s₁.standing = s.standing := forEach_keep (g := State.standing) (fun s x => s.standing_recordNan ..) _ s
    have h₂ : s₂.standing = s₁.standing := by
      unfold s₂
      split
      · rfl
      · exact s₁.bumpFree.standing_spoilRun p
    have h₃ : s₃.standing = s₂.standing := forEach_keep (g := State.standing) (fun s c => s.standing_endColl ..) _ s₂
    have h₄ : s₄.standing = s₃.standing := by
      unfold s₄
      split
      · rfl
      · exact s₃.standing_unseal p
    have h₆ : s₆.standing = s₄.standing := s₅.standing_modPav p fun _ => rfl
    have h₇ : s₇.standing = s₆.standing := forEach_keep (g := State.standing) (fun s c => s.standing_finish ..) _ s₆
    have h₈ : s₈.standing = s₇.standing := by
      unfold s₈
      split
      · rfl
      · split
        · exact s₇.standing_finish ..
        · exact s₇.standing_complete ..
    rw [State.standing_parkIfDue, State.standing_dropUnstarted, h₈, h₇, h₆, h₄, h₃, h₂, h₁]

theorem State.standing_abortRun (p st target : Nat) (x : Option Cmd) :
    (s.abortRun p st target x).standing = s.standing := by
  unfold State.abortRun
  split
  · rfl
  · exact s.standing_endRun ..

/-! Commands that are cut off. -/

theorem State.standing_dropJob (c : Cmd) : (s.dropJob c).standing = s.standing := by
  unfold State.dropJob
  split
  · rfl
  · next j _ =>
    refine Eq.trans (rfl : _ = (s.spoilDests c.port j).standing) ?_
    refine forEach_keep (g := State.standing) (fun s d => forEach_keep (g := State.standing) (fun s r => ?_) _ s) _ s
    dsimp only
    split
    · split <;> rfl
    · exact (State.standing_writeMem ..).trans rfl

theorem State.standing_dropShard (n : Nat) : (s.dropShard n).standing = s.standing := by
  unfold State.dropShard
  dsimp only
  split
  · rfl
  · exact (State.standing_freeMem _ _ _ :).trans (s.standing_freeMem _ _)

theorem State.standing_disarm (c : Cmd) : (s.disarm c).standing = s.standing := by
  unfold State.disarm
  extract_lets p id s₁ s₂
  have h₂ : s₂.standing = s.standing := s.standing_dropJob c
  split
  · exact h₂
  · next v _ =>
    extract_lets s₃ s₄
    have h₃ : s₃.standing = s₂.standing := by
      unfold s₃
      split
      · rfl
      · rw [← forEach_keep (g := State.standing) (fun s n => s.standing_dropShard n) _ s₂]
        exact State.standing_modPav _ p fun _ => rfl
    have h₄ : s₄.standing = s₃.standing := by
      unfold s₄
      split
      · exact s₃.standing_unseal p
      · rfl
    rw [← h₂, ← h₃, ← h₄]
    exact s₄.standing_modPav p fun _ => rfl

theorem State.standing_cutOff (c : Cmd) (st target : Nat) (x : Option Cmd) :
    (s.cutOff c st target x).standing = s.standing := by
  unfold State.cutOff
  split
  · exact s.standing_abortRun ..
  · rw [State.standing_abort, State.standing_disarm]

theorem State.standing_stopPav (p st target : Nat) (x : Option Cmd) (spare : Cmd → Bool) :
    (s.stopPav p st target x spare).standing = s.standing := by
  unfold State.stopPav
  extract_lets s₁ s₂ s₃
  have h₁ : s₁.standing = s.standing := s.standing_forCmds _ fun s c => s.standing_abort ..
  have h₂ : s₂.standing = s₁.standing := s₁.standing_abortRun ..
  have h₃ : s₃.standing = s₂.standing := by
    unfold s₃
    split
    · exact s₂.standing_unseal p
    · rfl
  exact (s₃.standing_forCmds _ fun s c => s.standing_cutOff ..).trans (h₃.trans (h₂.trans h₁))

/-! Steps that begin, and boundaries that go on. -/

theorem State.standing_clearStep (p : Nat) : (s.clearStep p).standing = s.standing := by
  unfold State.clearStep
  split
  · rfl
  · refine forEach_keep (g := State.standing) (fun s i => ?_) _ s
    dsimp only
    split
    · rfl
    · split
      · refine forEach_keep (g := State.standing) (fun s sl => ?_) _ s
        split <;> rfl
      · split
        · split
          · rfl
          · exact forEach_keep (g := State.standing) (fun s x => s.standing_zeroMem _ _) _ s
        · exact s.standing_modPav p fun _ => rfl

theorem State.standing_beginStep (p : Nat) : (s.beginStep p).standing = s.standing :=
  (State.standing_clearStep ..).trans (s.standing_modRun ..)

theorem State.standing_useInstant (p late : Nat) : (s.useInstant p late).standing = s.standing := by
  unfold State.useInstant
  split
  · rfl
  · split
    · rfl
    · extract_lets b
      split
      · next s₁ _ =>
        have h₁ : s₁.standing = s.standing := s.standing_modPav p fun _ => rfl
        split
        · exact h₁
        · exact (s₁.standing_finish ..).trans h₁
      · exact s.standing_modPav p fun _ => rfl

theorem State.standing_stepStart (p : Nat) : (s.stepStart p).standing = s.standing := by
  have hused : ∀ late, ((s.useInstant p late).beginStep p).standing = s.standing := fun late =>
    (State.standing_beginStep ..).trans (s.standing_useInstant p late)
  unfold State.stepStart
  split
  · rfl
  · split
    · exact s.standing_beginStep p
    · dsimp only
      split
      · exact s.standing_modRun ..
      · split
        · exact hused 0
        · split
          · exact hused _
          · split
            · split
              · exact hused _
              · rw [State.standing_modRun]
                exact s.standing_modPav p fun _ => rfl
            · split
              · exact hused _
              · rw [State.standing_modRun]
                exact s.standing_modPav p fun _ => rfl

theorem State.standing_dropLeaving (p : Nat) : (s.dropLeaving p).standing = s.standing := by
  unfold State.dropLeaving
  split
  · rfl
  · extract_lets gone
    split
    · rfl
    · next s₁ _ =>
      have h₁ : s₁.standing = s.standing := forEach_keep (g := State.standing) (fun s c => s.standing_modCluster c _) _ s
      rw [← h₁]
      exact s₁.standing_modPav p fun _ => rfl

theorem State.standing_continueBoundary (p : Nat) : (s.continueBoundary p).standing = s.standing := by
  unfold State.continueBoundary
  extract_lets s₁
  have h₁ : s₁.standing = s.standing := by
    unfold s₁
    split
    · exact s.standing_dropLeaving p
    · rfl
  rw [← h₁]
  clear_value s₁
  split
  · rfl
  · next v r _ _ =>
    extract_lets s₂
    have h₂ : s₂.standing = s₁.standing := by
      unfold s₂
      split
      · rw [← s₁.standing_dropUnstarted p]
        exact State.standing_modPav _ p fun _ => rfl
      · rfl
    rw [← h₂]
    clear_value s₂
    split
    · rfl
    · split
      · exact s₂.standing_endRun ..
      · split
        · exact s₂.standing_endRun ..
        · split
          · exact (State.standing_endRun ..).trans (s₂.standing_modRun ..)
          · next n s₃ _ _ _ _ =>
            have h₃ : s₃.standing = s₂.standing := by
              unfold s₃
              split
              · rfl
              · exact s₂.standing_modRun ..
            rw [← h₃]
            split
            · rw [State.standing_endRun]
              exact s₃.standing_modPav p fun _ => rfl
            · rw [State.standing_stepStart]
              exact s₃.standing_modPav p fun _ => rfl

end

end Sys2Proof.Machine
end

section
/-! PROOFS. O8: heartbeats and lost hosts (R81, R87, R88, R419). -/

namespace Sys2Proof.Machine

/-! ### Heartbeats (R81, R87) -/

/-- A counted heartbeat is taken as of now, and its host is not lost any more. -/
theorem State.heartbeat_port (s : State) (q : Nat) : (s.heartbeat q).port q =
    { s.port q with lastBeat := s.now, lastBeatLocal := s.clock, latePosted := false, lost := false } := by
  unfold State.heartbeat
  extract_lets wasLost s₁
  have h : s₁.port q = _ := State.modPort_self ..
  split <;> exact h
theorem State.heartbeat_keeps (s : State) (q : Nat) : (s.heartbeat q).mem = s.mem ∧ (s.heartbeat q).pavs = s.pavs := by
  unfold State.heartbeat
  dsimp only
  split <;> exact ⟨rfl, rfl⟩

section
variable {r : FnRef} {s : State} (hl : s.live r)
include hl

theorem hostHeartbeat_pf (h : r.fn.val = 0) : exec (.hostHeartbeat r) s = .next (s.heartbeat r.port.val) := by
  simp [exec, execHostHeartbeat, hl, h]
theorem hostHeartbeat_vf (h : r.fn.val ≠ 0) : exec (.hostHeartbeat r) s = .next s := by
  simp only [exec, execHostHeartbeat, hl, Bool.not_true, Bool.false_eq_true, if_false]
  exact if_neg h

end

/-! ### Silence (R87, R419) -/

section
variable {q : Fin 2} {s : State} (hst : 9 ≤ s.boot.stage) (hlost : (s.port q.val).lost = false)
include hst hlost

theorem heartbeatLate_eq (hp : (s.port q.val).latePosted = false) (hs : 2500000000 ≤ s.silence q.val) :
    exec (.heartbeatLate q) s
      = .next ((s.modPort q.val fun p => { p with latePosted := true }).postRing (ringKey q.val 0) 0x0003 1 []) := by
  have hwait : ¬(s.boot.stage < 9 ∨ (s.port q.val).latePosted = true ∨ (s.port q.val).lost = true
      ∨ s.silence q.val < 2500000000) := by
    rw [hp, hlost]; simp; omega
  exact if_neg hwait

theorem hostLost_eq (hs : 5000000000 ≤ s.silence q.val) : exec (.hostLost q) s = .next (s.hostGone q.val) := by
  have hwait : ¬(s.boot.stage < 9 ∨ (s.port q.val).lost = true ∨ s.silence q.val < 5000000000) := by
    rw [hlost]; simp; omega
  exact if_neg hwait

end

/-- What follows the loss of a host does not find it again. -/
theorem State.hostGone_lost (s : State) (q : Nat) : ((s.hostGone q).port q).lost = true := by
  unfold State.hostGone
  extract_lets s₁ hostSide jobs s₂ idle s₃
  have h₁ : (s₁.port q).lost = true := by
    rw [State.lost_of_standing (State.standing_postTo ..), State.modPort_self]
  have h₂ : s₂.standing = s₁.standing := s₁.standing_forCmds _ fun s c => s.standing_cutOff ..
  have h₃ : s₃.standing = s₂.standing := s₂.standing_abortAll ..
  have h₄ : (forEach ((s₃.pavs.filter fun e => e.2.homePort == q && !e.2.parked).map (·.1)) (fun s p =>
      let s := (s.modPav p fun v => { v with parking := true }).parkIfDue p
      if (s.runOf p).any (fun x => x.2.1.phase == 2) = true then (s.modRun p fun r => { r with phase := 1 }).continueBoundary p
      else s) s₃).standing = s₃.standing := by
    refine forEach_keep (g := State.standing) (fun s p => ?_) _ s₃
    have hpark : ((s.modPav p fun v => { v with parking := true }).parkIfDue p).standing = s.standing := by
      rw [State.standing_parkIfDue]
      exact s.standing_modPav p fun _ => rfl
    dsimp only
    split
    · rw [State.standing_continueBoundary, State.standing_modRun, hpark]
    · exact hpark
  exact (State.lost_of_standing (h₄.trans (h₃.trans h₂)) q).trans h₁

end Sys2Proof.Machine

open Sys2Proof Sys2Proof.Machine

/-! ### O8 -/

/-- Settles O8: the commands are equations of `exec`, and a lost host stays lost through all that its loss cuts off. -/
theorem heartbeatsKeepHostsAlive : Obligations.HeartbeatsKeepHostsAlive := by
  intro s
  refine ⟨fun id c h => ?_, fun r hl => ⟨fun hfn => ?_, hostHeartbeat_vf hl⟩, fun q hst hlost =>
    ⟨heartbeatLate_eq hst hlost, fun hs => ⟨_, hostLost_eq hst hlost hs, s.hostGone_lost q.val⟩⟩, fun hup ht => ?_⟩
  · refine ⟨congrArg Host.Outcome.next (State.startCmd_ok h rfl), fun hfn => ?_⟩
    rw [if_pos hfn, State.heartbeat_port]
    exact ⟨rfl, rfl⟩
  · obtain ⟨hmem, hpavs⟩ := s.heartbeat_keeps r.port.val
    refine ⟨_, hostHeartbeat_pf hl hfn, ?_⟩
    rw [State.heartbeat_port]
    exact ⟨rfl, rfl, rfl, rfl, hmem, hpavs⟩
  · exact if_pos (by simp [hup, ht])
end

section
/-! PROOFS. O13: the registers FRESET and ESTOP (R90, R91, R413). -/

namespace Sys2Proof.Machine

/-! ### The reset of an engine (R414) -/

theorem State.modRun_engine (s : State) (p : Nat) (f : Run → Run) (e : Nat) : (s.modRun p f).engine e = s.engine e := rfl

theorem State.resetEngine_engine (s : State) {e : Nat} (h : e < 384) : (s.resetEngine e).engine e = {} := by
  simp only [State.resetEngine, h, if_true]
  refine (forEach_keep (g := fun s : State => s.engine e) (fun s p => s.modRun_engine p _ e) _ _).trans ?_
  exact (s.dropBanks e fun _ => true).modEngine_self e fun _ => {}

/-- A reset that names an engine resets its registers. -/
theorem State.performReset_engine (s : State) {t : Nat} (pav : Nat) (h4 : t / 4096 = 4) (he : t % 4096 < 384) :
    (s.performReset t pav false false false none).1.engine (t % 4096) = {} := by
  have hp : resetPavOf t pav = none := by
    rw [resetPavOf, if_neg (by omega), if_neg (by omega)]
  simp only [State.performReset, hp, h4, State.resetUnit]
  exact State.resetEngine_engine _ he

/-! ### FRESET (R90) -/

/-- FRESET_STATUS as a reset leaves it. -/
def State.fresetStatus (s : State) (k t status : Nat) : State :=
  s.modRing k fun g => { g with frTarget := t, frStatus := status }

theorem State.fresetStatus_ring (s : State) (k t status : Nat) :
    (s.fresetStatus k t status).ring k = { s.ring k with frTarget := t, frStatus := status } := State.modRing_self ..

section
variable {r : FnRef} {s : State} (hl : s.live r) (hfw : s.boot.fwRunning = true)
  (hlost : s.boot.lostRoles.contains 0 = false) (hup : s.roleUp 0 = true)
include hl hfw hlost hup

theorem freset_eq (x : BitVec 16) : exec (.freset r x) s = .next (s.freset r.port.val r.fn.val x.toNat) := by
  simp only [exec, execFreset, hl, hfw, hlost, hup, Bool.not_true, Bool.or_self, Bool.false_eq_true, if_false]

theorem estop_eq : exec (.estop r 0xE5E5) s = .next (s.estop r.fn.val) := by
  simp only [exec, execEstop, hl, hfw, hlost, hup]
  rfl

end

theorem State.freset_of_rejected {s : State} {q fn t e : Nat} (h : s.fresetRej fn t = some e) :
    s.freset q fn t = s.fresetStatus (ringKey q fn) t e := by
  rw [State.freset, h]
  rfl

theorem State.freset_of_accepted {s : State} {q fn t : Nat} (h : s.fresetRej fn t = none) : s.freset q fn t =
    let u := (s.performReset t (fn - 1) false false false none).1
    u.fresetStatus (ringKey q fn) t (if u.awaitsCore t = true then 0xFFFF else 0) := by
  rw [State.freset, h]
  rfl

/-- Only a firmware core is awaited. -/
theorem State.kind_of_awaitsCore {s : State} {t : Nat} (h : s.awaitsCore t = true) : t / 4096 = 0xB := by
  simp only [State.awaitsCore, Bool.and_eq_true, beq_iff_eq] at h
  exact h.1.1

theorem estop_unarmed (r : FnRef) (s : State) (hl : s.live r) {a : BitVec 16} (h : a ≠ 0xE5E5) :
    exec (.estop r a) s = .next s := by
  have ha : a.toNat ≠ 0xE5E5 := fun he => h (BitVec.eq_of_toNat_eq he)
  simp [exec, execEstop, hl, ha]

/-! ### ESTOP (R91) -/

/-- Stopping one pavilion for ESTOP. -/
def State.estopOne (s : State) (p : Nat) : State :=
  let s := (s.modPav p fun v => { v with stopped := true }).stopPav p 0x0307 (pavTarget p) none fun _ => false
  (s.modPav p fun v => { v with sealing := v.sealing.map fun (x : Sealing) => { x with halted := true } }).parkIfDue p

theorem State.estop_eq_forEach (s : State) (fn : Nat) :
    s.estop fn = forEach ((stopScope fn).filter fun p => (s.pav p).isSome) State.estopOne s := rfl

/-- Stopping a pavilion stops it, and leaves the others as they stand. -/
theorem State.estopOne_stopped (s : State) (p j : Nat) : ((s.estopOne p).pav j).map (·.stopped)
    = if j = p then (s.pav j).map fun _ => true else (s.pav j).map (·.stopped) := by
  have h : (s.estopOne p).standing = (s.modPav p fun v => { v with stopped := true }).standing := by
    unfold State.estopOne
    extract_lets s₁
    have h₁ : s₁.standing = (s.modPav p fun v => { v with stopped := true }).standing := State.standing_stopPav ..
    rw [State.standing_parkIfDue, ← h₁]
    exact s₁.standing_modPav p fun _ => rfl
  rw [State.stopped_of_standing h]
  split
  · next hj => rw [hj, State.modPav_self, Option.map_map]; rfl
  · next hj => rw [State.modPav_ne _ _ hj]

/-- Every pavilion that is stopped one after another ends stopped, and one that stood stopped stays so. -/
theorem State.forEach_estopOne (s : State) (ps : List Nat) (j : Nat) (b : Bool)
    (h : ((forEach ps State.estopOne s).pav j).map (·.stopped) = some b) :
    (j ∈ ps → b = true) ∧ (j ∉ ps → (s.pav j).map (·.stopped) = some b) := by
  induction ps generalizing s with
  | nil => exact ⟨fun hj => absurd hj (by simp), fun _ => h⟩
  | cons p ps ih =>
    obtain ⟨hin, hout⟩ := ih _ h
    rw [State.estopOne_stopped] at hout
    refine ⟨fun hj => ?_, fun hj => ?_⟩
    · by_cases hps : j ∈ ps
      · exact hin hps
      · have hjp : j = p := by simpa [hps] using hj
        have := hout hps
        rw [if_pos hjp] at this
        obtain ⟨_, -, hb⟩ := Option.map_eq_some_iff.mp this
        exact hb.symm
    · have hne : j ≠ p ∧ j ∉ ps := by simpa using hj
      simpa [hne.1] using hout hne.2

/-- ESTOP leaves no pavilion of its scope running on. -/
theorem State.estop_stops (s : State) (fn : Nat) : ∀ p ∈ stopScope fn, ∀ v, (s.estop fn).pav p = some v → v.stopped = true := by
  intro p hp v hv
  obtain ⟨hin, hout⟩ := s.forEach_estopOne _ p v.stopped (by rw [← State.estop_eq_forEach, hv]; rfl)
  by_cases hs : (s.pav p).isSome = true
  · exact hin (List.mem_filter.mpr ⟨hp, hs⟩)
  · have := hout fun hm => hs (List.mem_filter.mp hm).2
    simp [Option.not_isSome_iff_eq_none.mp hs] at this

end Sys2Proof.Machine

open Sys2Proof Sys2Proof.Machine

/-! ### O13 -/

/-- Settles O13: FRESET ends by writing its status, and what ESTOP cuts off re-arms no pavilion. -/
theorem fresetAndEstopAct : Obligations.FresetAndEstopAct := by
  intro r s hl hfw hlost hup
  refine ⟨fun x => ⟨fun e he => ?_, fun hn => ?_⟩, ⟨_, estop_eq hl hfw hlost hup, s.estop_stops r.fn.val⟩,
    fun a => estop_unarmed r s hl⟩
  · rw [freset_eq hl hfw hlost hup, State.freset_of_rejected he]
    rfl
  · refine ⟨_, freset_eq hl hfw hlost hup x, ?_⟩
    rw [State.freset_of_accepted hn, fnKey]
    dsimp only
    rw [State.fresetStatus_ring]
    refine ⟨rfl, ?_, fun h4 he => s.performReset_engine (r.fn.val - 1) h4 he⟩
    dsimp only
    split
    · next hw => exact .inr ⟨rfl, State.kind_of_awaitsCore hw⟩
    · exact .inl rfl
end

section
/-! PROOFS. O41 and O42: what is kept of the pavilions, their runs and the outstanding commands while commands complete,
steps begin and runs end. -/

namespace Sys2Proof.Machine

/-! ### The pavilions through completions (R59, R74) -/

/-- The pavilions but for their allocated memory, of which a freed ring set gives some back. -/
def State.pavsKept (s : State) : Nat → Option Pav := fun p => (s.pav p).map fun v => { v with allocs := [] }
/-- The runs of the pavilions. -/
def State.runs (s : State) : Nat → Option Run := fun p => (s.pav p).bind (·.run)

theorem State.pavsKept_of_quiet {s t : State} (h : t.quiet = s.quiet) : t.pavsKept = s.pavsKept :=
  (congrArg State.pavsKept h :)

theorem State.runs_of_pavsKept {s t : State} (h : t.pavsKept = s.pavsKept) : t.runs = s.runs := by
  have hr : ∀ u : State, u.runs = fun p => (u.pavsKept p).bind (·.run) := fun u => by
    funext p
    rw [State.runs, State.pavsKept]
    cases u.pav p <;> rfl
  rw [hr t, h, hr s]

theorem State.runs_eq_some {s : State} {p : Nat} {r : Run} (h : s.runs p = some r) :
    ∃ u, s.pav p = some u ∧ u.run = some r := Option.bind_eq_some_iff.mp h

theorem State.pav_of_runOf {s : State} {p : Nat} {v : Pav} {r : Run} {h : Handle} (hr : s.runOf p = some (v, r, h)) :
    s.pav p = some v ∧ v.run = some r ∧ tfind v.handles r.handle = some h := by
  unfold State.runOf at hr
  split at hr
  · cases hr
  · next v' hv =>
    split at hr
    · cases hr
    · next r' hr' =>
      split at hr
      · cases hr
      · next h' hh =>
        obtain ⟨rfl, rfl, rfl⟩ : v' = v ∧ r' = r ∧ h' = h := by simpa using hr
        exact ⟨hv, hr', hh⟩

theorem State.runs_of_runOf {s : State} {p : Nat} {y : Pav × Run × Handle} (hr : s.runOf p = some y) :
    s.runs p = some y.2.1 := by
  obtain ⟨hv, hrun, -⟩ := State.pav_of_runOf hr
  rw [State.runs, hv, Option.bind_some, hrun]

theorem State.runOf_of_pav {s : State} {p : Nat} {v : Pav} {r : Run} {h : Handle} (hv : s.pav p = some v)
    (hr : v.run = some r) (hh : tfind v.handles r.handle = some h) : s.runOf p = some (v, r, h) := by
  simp only [State.runOf, hv, hr, hh]

theorem State.runOf_of_no_run {s : State} {p : Nat} {v : Pav} (hv : s.pav p = some v) (hr : v.run = none) :
    s.runOf p = none := by
  simp only [State.runOf, hv, hr]

section
variable (s : State)

theorem State.pavsKept_modRing (k : Nat) (f : RingSet → RingSet) : (s.modRing k f).pavsKept = s.pavsKept := rfl

/-- A change of a pavilion that leaves its run. -/
theorem State.runs_modPav (p : Nat) {f : Pav → Pav} (h : ∀ v, (f v).run = v.run) : (s.modPav p f).runs = s.runs := by
  funext j
  by_cases hj : j = p
  · rw [State.runs, State.runs, hj, State.modPav_self]
    cases s.pav p with
    | none => rfl
    | some v => exact h v
  · simp only [State.runs, State.modPav_ne _ _ hj]

theorem State.runs_modRun_self (p : Nat) (f : Run → Run) : (s.modRun p f).runs p = (s.runs p).map f := by
  simp only [State.runs, State.modRun, State.modPav_self]
  cases s.pav p <;> rfl

theorem State.pavsKept_freeMem (p a : Nat) : (s.freeMem p a).pavsKept = s.pavsKept := by
  funext j
  by_cases hj : j = p
  · rw [State.pavsKept, State.pavsKept, State.freeMem, hj, State.modPav_self]
    cases s.pav p <;> rfl
  · simp only [State.pavsKept, State.freeMem, State.modPav_ne _ _ hj]

theorem State.pavsKept_finalEntry (c : Cmd) (st d : Nat) (l : List Byte) :
    (s.finalEntry c st d l).pavsKept = s.pavsKept := by
  unfold State.finalEntry
  dsimp only
  split
  · rfl
  · rw [State.pavsKept_modRing, State.pavsKept_of_quiet (State.quiet_cqWrite ..)]; rfl

theorem State.pavsKept_freeRing (k : Nat) : (s.freeRing k).pavsKept = s.pavsKept := by
  unfold State.freeRing
  extract_lets r keep s₁ s₂ s₃
  have h₂ : s₂.pavsKept = s.pavsKept := by unfold s₂; split <;> rfl
  have h₃ : s₃.pavsKept = s₂.pavsKept := by
    unfold s₃
    split
    · exact s₂.pavsKept_freeMem ..
    · rfl
  exact h₃.trans h₂

theorem State.pavsKept_endHold (k : Nat) : (s.endHold k).pavsKept = s.pavsKept := by
  have hw : ∀ t : State, (t.writeMirror k).pavsKept = t.pavsKept := fun t => by
    unfold State.writeMirror State.hostWrite; dsimp only; split <;> rfl
  unfold State.endHold
  dsimp only
  split
  · exact hw _
  · rfl

theorem State.pavsKept_closeCheck (k : Nat) : (s.closeCheck k).pavsKept = s.pavsKept := by
  have hclose : (s.endClose k).pavsKept = s.pavsKept := by
    unfold State.endClose
    split
    · rfl
    · split
      · exact s.pavsKept_finalEntry ..
      · rfl
  rw [State.closeCheck_eq, ← hclose, State.drain]
  split
  · rw [State.pavsKept_freeRing, State.pavsKept_endHold]; rfl
  · rfl

/-- Completing a command changes nothing of a pavilion but its allocated memory. -/
theorem State.pavsKept_complete (c : Cmd) (st d : Nat) (l : List Byte) : (s.complete c st d l).pavsKept = s.pavsKept := by
  rw [State.complete, State.pavsKept_closeCheck, State.pavsKept_finalEntry]

theorem State.pavsKept_finish (c : Cmd) (l : List Byte) (d low : Nat) : (s.finish c l d low).pavsKept = s.pavsKept := by
  unfold State.finish
  split
  · exact s.pavsKept_complete ..
  · rw [State.pavsKept_complete, State.pavsKept_of_quiet (State.quiet_recordNotes ..)]

theorem State.pavsKept_abort (c : Cmd) (st target : Nat) (x : Option Cmd) :
    (s.abort c st target x).pavsKept = s.pavsKept := s.pavsKept_complete ..

theorem State.pavsKept_forCmds (f : Cmd → Bool) {g : State → Cmd → State} (h : ∀ s c, (g s c).pavsKept = s.pavsKept) :
    (s.forCmds f g).pavsKept = s.pavsKept := by
  refine forEach_keep (g := State.pavsKept) (fun s id => ?_) _ s
  split
  · exact h ..
  · rfl

theorem State.pavsKept_dropUnstarted (p : Nat) : (s.dropUnstarted p).pavsKept = s.pavsKept := by
  refine forEach_keep (g := State.pavsKept) (fun s q => ?_) _ s
  split
  · rfl
  · exact s.pavsKept_forCmds _ fun s c => s.pavsKept_abort ..

theorem State.runs_finish (c : Cmd) (l : List Byte) (d low : Nat) : (s.finish c l d low).runs = s.runs :=
  State.runs_of_pavsKept (s.pavsKept_finish ..)
theorem State.runs_complete (c : Cmd) (st d : Nat) (l : List Byte) : (s.complete c st d l).runs = s.runs :=
  State.runs_of_pavsKept (s.pavsKept_complete ..)
theorem State.runs_dropUnstarted (p : Nat) : (s.dropUnstarted p).runs = s.runs :=
  State.runs_of_pavsKept (s.pavsKept_dropUnstarted p)

/-! ### Commands that are gone stay gone (R74) -/

variable {s} {id : Nat}

/-- No command of the list is new to the state: its serials are among those of the state. -/
theorem State.cmd_none_of_serials {t : State} (ht : ∀ c ∈ t.cmds, ∃ x ∈ s.cmds, x.serial = c.serial)
    (h : s.cmd id = none) : t.cmd id = none := by
  rw [State.cmd, List.find?_eq_none] at h ⊢
  intro c hc
  obtain ⟨x, hx, he⟩ := ht c hc
  rw [← he]
  exact h x hx

theorem State.cmd_none_of_cmds {t : State} (ht : t.cmds = s.cmds) (h : s.cmd id = none) : t.cmd id = none :=
  State.cmd_none_of_serials (fun c hc => ⟨c, ht ▸ hc, rfl⟩) h

theorem State.cmd_none_finalEntry (c : Cmd) (st d : Nat) (l : List Byte) (h : s.cmd id = none) :
    (s.finalEntry c st d l).cmd id = none := by
  refine State.cmd_none_of_serials (fun x hx => ⟨x, ?_, rfl⟩) h
  rw [State.finalEntry_cmds] at hx
  exact (List.mem_filter.mp hx).1

theorem State.cmd_none_freeRing (k : Nat) (h : s.cmd id = none) : (s.freeRing k).cmd id = none := by
  refine State.cmd_none_of_serials (fun c hc => ?_) h
  rw [State.freeRing_cmds] at hc
  obtain ⟨x, hx, rfl⟩ := List.mem_map.mp hc
  exact ⟨x, (List.mem_filter.mp hx).1, by split <;> rfl⟩

theorem State.cmd_none_closeCheck (k : Nat) (h : s.cmd id = none) : (s.closeCheck k).cmd id = none := by
  have hclose : (s.endClose k).cmd id = none := by
    unfold State.endClose
    split
    · exact h
    · split
      · exact State.cmd_none_finalEntry _ _ _ _ h
      · exact h
  rw [State.closeCheck_eq, State.drain]
  split
  · exact State.cmd_none_freeRing _ (State.cmd_none_of_cmds (State.endHold_cmds _ k) hclose)
  · exact hclose

theorem State.cmd_none_complete (c : Cmd) (st d : Nat) (l : List Byte) (h : s.cmd id = none) :
    (s.complete c st d l).cmd id = none :=
  State.cmd_none_closeCheck _ (State.cmd_none_finalEntry _ _ _ _ h)

/-- A completed command is gone. -/
theorem State.complete_cmd_self (s : State) (c : Cmd) (st d : Nat) (l : List Byte) :
    (s.complete c st d l).cmd c.serial = none :=
  State.cmd_none_closeCheck _ (State.cmd_eq_none (s.finalEntry_cmds ..))
theorem State.finish_cmd_self (s : State) (c : Cmd) (l : List Byte) (d low : Nat) :
    (s.finish c l d low).cmd c.serial = none := by
  unfold State.finish
  split <;> exact State.complete_cmd_self ..

theorem State.cmd_none_dropUnstarted (p : Nat) (h : s.cmd id = none) : (s.dropUnstarted p).cmd id = none := by
  refine forEach_inv (P := fun s : State => s.cmd id = none) (fun s q hs => ?_) _ _ h
  split
  · exact hs
  · refine forEach_inv (P := fun s : State => s.cmd id = none) (fun s i hs => ?_) _ _ hs
    dsimp only
    split
    · exact State.cmd_none_complete _ _ _ _ hs
    · exact hs

end

/-! ### Pavilions that park (R419) -/

theorem State.runs_parkIfDue (s : State) (p : Nat) : (s.parkIfDue p).runs = s.runs := by
  unfold State.parkIfDue
  split
  · rfl
  · next v _ =>
    split
    · rfl
    · extract_lets q s₁ s₂ s₃
      have h₂ : s₂.runs = s₁.runs := by
        unfold s₂
        split
        · exact s₁.runs_complete ..
        · rfl
      have h₃ : s₃.runs = s₂.runs := s₂.runs_modPav p fun _ => rfl
      rw [State.runs_of_pavsKept (State.pavsKept_of_quiet (s₃.quiet_postTo ..)), h₃, h₂]
      exact s.runs_dropUnstarted p

theorem State.cmd_none_parkIfDue {s : State} {id : Nat} (p : Nat) (h : s.cmd id = none) :
    (s.parkIfDue p).cmd id = none := by
  unfold State.parkIfDue
  split
  · exact h
  · next v _ =>
    split
    · exact h
    · extract_lets q s₁ s₂ s₃
      have h₁ : s₁.cmd id = none := State.cmd_none_dropUnstarted p h
      have h₂ : s₂.cmd id = none := by
        unfold s₂
        split
        · exact State.cmd_none_complete _ _ _ _ h₁
        · exact h₁
      have h₃ : s₃.cmd id = none := h₂
      exact State.cmd_none_of_cmds (State.cmds_of_quiet (s₃.quiet_postTo ..)) h₃

/-! ### Runs that end (R119, R121, R122) -/

/-- Recording a NaN leaves a run the run of its command. -/
theorem State.recordNan_runs_cmd (s : State) (p : Nat) (x : TrapInfo) :
    ((s.recordNan p x).1.runs p).map (·.cmd) = (s.runs p).map (·.cmd) := by
  have hput : ∀ (iter step pid : Nat) (on first : Bool), (s.putTrap p x iter step pid on first).1.runs = s.runs :=
    fun iter step pid on first => by
      unfold State.putTrap
      split
      · rfl
      · dsimp only
        split <;> exact s.runs_modPav p fun _ => rfl
  unfold State.recordNan
  split
  · rfl
  · dsimp only
    rw [State.runs_modRun_self, hput, Option.map_map]
    rfl

/-- The pavilion has no run, and the command is gone. -/
def State.runGone (s : State) (p id : Nat) : Prop := s.runs p = none ∧ s.cmd id = none

/-- A run that ends leaves its pavilion without one, and its command is gone. -/
theorem State.runGone_endRun {s : State} {p : Nat} {v₀ : Pav} {r₀ : Run} {h₀ : Handle}
    (hr : s.runOf p = some (v₀, r₀, h₀)) (st d : Nat) (result : Option (List Byte)) (cause : Nat) :
    (s.endRun p st d result cause).runGone p r₀.cmd := by
  unfold State.endRun
  split
  · next hn => rw [hr] at hn; cases hn
  · next v r' h he =>
    obtain ⟨rfl, rfl, rfl⟩ : v₀ = v ∧ r₀ = r' ∧ h₀ = h := by simpa [hr] using he
    extract_lets held res good s₁ r s₂ s₃ s₄ s₅ s₆ s₇ s₈
    have hcmd : r.cmd = r₀.cmd := by
      have h₁ : (s₁.runs p).map (·.cmd) = (s.runs p).map (·.cmd) :=
        forEach_keep (g := fun s : State => (s.runs p).map (·.cmd)) (fun s x => s.recordNan_runs_cmd p x) _ s
      rw [State.runs_of_runOf hr] at h₁
      unfold r
      cases hs₁ : s₁.runOf p with
      | none => rfl
      | some y => simpa [State.runs_of_runOf hs₁] using h₁
    have h₆ : s₆.runs p = none := by
      simp only [s₆, State.runs, State.modPav_self]
      cases s₅.pav p <;> rfl
    have h₇ : s₇.runs = s₆.runs := forEach_keep (g := State.runs) (fun s c => s.runs_finish ..) _ s₆
    have h₈ : s₈.runs = s₇.runs ∧ s₈.cmd r.cmd = none := by
      unfold s₈
      split
      · next hn => exact ⟨rfl, hn⟩
      · next c hc =>
        rw [← State.cmd_serial hc]
        split
        · exact ⟨s₇.runs_finish .., State.finish_cmd_self s₇ { c with notes := c.notes ++ r.notes } _ _ _⟩
        · exact ⟨s₇.runs_complete .., State.complete_cmd_self ..⟩
    obtain ⟨hruns, hgone⟩ := h₈
    refine ⟨?_, State.cmd_none_parkIfDue p (State.cmd_none_dropUnstarted p (hcmd ▸ hgone))⟩
    rw [State.runs_parkIfDue, State.runs_dropUnstarted, hruns, h₇, h₆]

theorem State.no_run_of_runs {s t : State} {p : Nat} {v : Pav} (hv : s.pav p = some v) (hst : t.standing = s.standing)
    (hr : t.runs p = none) : ∃ u, t.pav p = some u ∧ u.run = none := by
  have hp := State.stopped_of_standing hst p
  rw [hv] at hp
  obtain ⟨u, hu, -⟩ := Option.map_eq_some_iff.mp hp
  rw [State.runs, hu] at hr
  exact ⟨u, hu, hr⟩

/-! ### Steps that begin (R98, R247, R370) -/

/-- A run whose next step begins. -/
def Run.begun (r : Run) (now clock : Nat) : Run :=
  { r with
    phase := 0, stepStart := now, fwdEnd := 0, bwdEnd := 0, boundary := 0, done := [], finished := [], startedOps := []
    inflight := [], lastProgress := clock, stepStages := r.stages, snaps := [] }

/-- What CLEAR zeroes changes neither runs nor commands. -/
theorem State.clearStep_keeps (s : State) (p : Nat) : (s.clearStep p).runs = s.runs ∧ (s.clearStep p).cmds = s.cmds := by
  have hzero : ∀ (t : State) (a n : Nat), ((t.zeroMem a n).runs, (t.zeroMem a n).cmds) = (t.runs, t.cmds) :=
    fun _ _ _ => rfl
  have h : ((s.clearStep p).runs, (s.clearStep p).cmds) = (s.runs, s.cmds) := by
    unfold State.clearStep
    split
    · rfl
    · refine forEach_keep (g := fun s : State => (s.runs, s.cmds)) (fun s i => ?_) _ s
      dsimp only
      split
      · rfl
      · split
        · refine forEach_keep (g := fun s : State => (s.runs, s.cmds)) (fun s sl => ?_) _ s
          split
          · exact hzero ..
          · rfl
        · split
          · split
            · rfl
            · exact forEach_keep (g := fun s : State => (s.runs, s.cmds)) (fun s x => hzero ..) _ s
          · exact Prod.ext (s.runs_modPav p fun _ => rfl) rfl
  exact ⟨congrArg Prod.fst h, congrArg Prod.snd h⟩

theorem State.beginStep_runs (s : State) (p : Nat) :
    (s.beginStep p).runs p = (s.runs p).map fun r => r.begun s.now s.clock := by
  rw [State.beginStep, (State.clearStep_keeps _ p).1, State.runs_modRun_self]
  rfl

theorem State.beginStep_cmds (s : State) (p : Nat) : (s.beginStep p).cmds = s.cmds := (State.clearStep_keeps _ p).2

/-- Without a barrier a step start begins the step. -/
theorem State.stepStart_of_no_barrier {s : State} {p : Nat} {v : Pav} (hv : s.pav p = some v) (hb : v.barrier = none) :
    s.stepStart p = s.beginStep p := by
  simp only [State.stepStart, hv, hb]

/-- A used instant leaves every run, and building time. -/
theorem State.useInstant_keeps (s : State) (p late : Nat) :
    (s.useInstant p late).runs = s.runs ∧ (s.useInstant p late).now = s.now := by
  unfold State.useInstant
  split
  · exact ⟨rfl, rfl⟩
  · split
    · exact ⟨rfl, rfl⟩
    · extract_lets b
      split
      · next s₁ _ =>
        have h₁ : s₁.runs = s.runs ∧ s₁.now = s.now := ⟨s.runs_modPav p fun _ => rfl, rfl⟩
        split
        · exact h₁
        · exact ⟨(State.runs_finish ..).trans h₁.1, (congrArg State.now (s₁.still_finish ..) :)⟩
      · exact ⟨s.runs_modPav p fun _ => rfl, rfl⟩

end Sys2Proof.Machine
end

section
/-! PROOFS. O41: PROGRAM_RUN, STEP_RUN and PROGRAM_STOP (R119, R121, R257, R285). -/

namespace Sys2Proof.Machine

/-! ### The start of a run (R119, R257) -/

/-- The conditions that PROGRAM_RUN and STEP_RUN have in common: a program pavilion without run, seal and reshape, and an
image whose sharded tensors are those of the active layout. -/
structure Pav.FreeFor (v : Pav) (h : Handle) : Prop where
  role : v.role ≠ 0
  run : v.run = none
  sealing : v.sealing = none
  notPreparing : v.reshape.state ≠ 1
  notMoving : v.reshape.state ≠ 2
  mapped : (h.image.tensors.any (·.sharded)) = true →
    ∃ l, v.reshape.active = some l ∧ l.sliceCount = h.image.sliceCount ∧ h.image.mapFault l = none

/-- The run that PROGRAM_RUN or STEP_RUN starts, before the operands that are its own. -/
def State.freshRun (s : State) (c : Cmd) (h : Handle) (hd ahead stages : Nat) (isStep : Bool) : Run :=
  { cmd := c.serial, handle := hd, isStep := isStep, runStart := s.now, first := if isStep then h.stepPos else 0
    lastProgress := s.clock, gatherAhead := ahead, stages := stages, stepStages := stages }

/-- A pavilion that begins a run of a handle. -/
def Pav.withRun (v : Pav) (h : Handle) (hd : Nat) (isStep : Bool) (r : Run) : Pav :=
  { v.dropContents hd h.image with
    run := some r, capacityDue := false, handles := if isStep then v.handles else tset v.handles hd { h with stepPos := 0 } }

/-- The state in which the command has started its run and the run's first step starts. -/
def State.launch (s : State) (c : Cmd) (h : Handle) (hd : Nat) (isStep : Bool) (r : Run) : State :=
  ((s.started c).modPav c.pavilion (·.withRun h hd isStep r)).bumpFree.stepStart c.pavilion

section
variable {s : State} {c : Cmd} {v : Pav} {h : Handle} {hd : Nat} (hv : s.pav c.pavilion = some v)
include hv

/-- Where the conditions hold and the tiles fit, the run starts. -/
theorem State.startRun_ok {ahead stages : Nat} {isStep : Bool} {mk : Run → Run} (hh : tfind v.handles hd = some h)
    (hfree : v.FreeFor h)
    (hstep : isStep = true → (h.image.op (h.image.ops.length - 1)).code = 0x5F ∧ stages ≤ v.clusters.length)
    (hfit : s.fits c.pavilion hd ahead stages = true) :
    s.startRun c hd ahead stages isStep mk = .ok (s.launch c h hd isStep (mk (s.freshRun c h hd ahead stages isStep))) := by
  obtain ⟨hrole, hrun, hsealing, hprep, hmove, hmap⟩ := hfree
  have hshape : (v.reshape.state != 1 && v.reshape.state != 2) = true := by simp [hprep, hmove]
  unfold State.startRun
  dsimp only
  rw [hv]
  dsimp only
  rw [hh]
  dsimp only
  rw [need_of (by simpa using hrole), need_of (by rw [hrun]; rfl), need_of (by rw [hsealing]; rfl), need_of hshape,
    need_of hfit]
  have hsteps : ∀ x : Chk State, (if isStep = true then (do
      need ((h.image.op (h.image.ops.length - 1)).code == 0x5F) { code := 0x01B0, reason := 1 }
      need (decide (stages ≤ v.clusters.length)) (c.bad 0x01B0 1 2)
      x) else x) = x := fun x => by
    split
    · next hs =>
      obtain ⟨hmark, hle⟩ := hstep hs
      rw [need_of (by simpa using hmark), need_of (by simpa using hle)]
      rfl
    · rfl
  split
  · next hs =>
    obtain ⟨l, hl, hcount, hfault⟩ := hmap hs
    rw [hl]
    dsimp only
    rw [need_of (by simp [hcount, hfault]), need_of (by simp [hfault])]
    exact hsteps _
  · exact hsteps _

/-- A run that starts without a barrier begins its first step at once. -/
theorem State.launch_spec {isStep : Bool} {r : Run} (hb : v.barrier = none) :
    (s.launch c h hd isStep r).runs c.pavilion = some (r.begun s.now s.clock)
      ∧ (s.launch c h hd isStep r).cmds = (s.started c).cmds := by
  have hp : (((s.started c).modPav c.pavilion (·.withRun h hd isStep r)).bumpFree).pav c.pavilion
      = some (v.withRun h hd isStep r) := by
    refine (State.modPav_self _ _ _).trans ?_
    exact congrArg (Option.map (·.withRun h hd isStep r)) hv
  rw [State.launch, State.stepStart_of_no_barrier hp hb, State.beginStep_runs, State.beginStep_cmds, State.runs, hp]
  exact ⟨rfl, rfl⟩

end

/-- A command that has started is outstanding as started. -/
theorem State.started_any {s t : State} {id : Nat} {c : Cmd} (h : s.cmd id = some c) (ht : t.cmds = (s.started c).cmds) :
    (t.cmd id).any (·.phase == .started) = true := by
  have hc : t.cmd id = some (c.asStarted s.now) := by
    rw [← State.started_cmd h, State.cmd, ht]
    rfl
  rw [hc]
  rfl

/-- PROGRESS_MS is within its bounds, or 0 for the default (R121). -/
def goodMs (ms : Nat) : Prop := ms = 0 ∨ 100 ≤ ms ∧ ms ≤ 600000

/-- PROGRESS_MS of PROGRAM_RUN. -/
def Cmd.runMs (c : Cmd) : Nat := if c.expert = true then bits (c.word 1) 63 32 else 0

/-- What PROGRAM_RUN asks of its run. -/
def Cmd.asRun (c : Cmd) (r : Run) : Run :=
  { r with
    iterations := max 1 (bits (c.word 0) 63 32), progressMs := if c.runMs = 0 then 10000 else c.runMs
    notifySteps := c.expert && bitAt (c.word 1) 9, nanRunOn := c.expert && bitAt (c.word 1) 8 }

theorem bodyProgramRun_eq {s : State} {c : Cmd} (hms : goodMs c.runMs) :
    bodyProgramRun s c = s.startRun c (bits (c.word 0) 2 0) 0 1 false c.asRun := by
  unfold bodyProgramRun
  dsimp only
  rw [need_of (by simpa [goodMs, Cmd.runMs] using hms)]
  rfl

/-- A field of word 1 of STEP_RUN, in its basic form the default. -/
def Cmd.stepField (c : Cmd) (hi lo d : Nat) : Nat := if c.expert = true then bits (c.word 1) hi lo else d

/-- What STEP_RUN asks of its run. -/
def Cmd.asStepRun (c : Cmd) (r : Run) : Run :=
  { r with
    stepsAsked := max 1 (bits (c.word 0) 63 32)
    progressMs := if c.stepField 63 32 0 = 0 then 10000 else c.stepField 63 32 0
    mbSlices := max 1 (c.stepField 31 24 1), bwdAscending := c.expert && bitAt (c.word 1) 10
    notifySteps := c.expert && bitAt (c.word 1) 9, nanRunOn := c.expert && bitAt (c.word 1) 8 }

theorem bodyStepRun_eq {s : State} {c : Cmd} (hms : goodMs (c.stepField 63 32 0)) (hst : c.stepField 19 16 0 ≤ 8) :
    bodyStepRun s c = s.startRun c (bits (c.word 0) 2 0) (c.stepField 23 20 2) (max 1 (c.stepField 19 16 1)) true
      c.asStepRun := by
  unfold bodyStepRun
  dsimp only
  rw [need_of (by simpa [goodMs, Cmd.stepField] using hms), need_of (by simpa [Cmd.stepField] using hst)]
  rfl

/-! ### PROGRAM_STOP (R121, R285) -/

section
variable {s : State} {c : Cmd} {v : Pav} {r : Run} {h : Handle}

theorem bodyProgramStop_of_no_run (hr : s.runOf c.pavilion = none) : bodyProgramStop s c = .ok (s.finish c []) := by
  simp only [bodyProgramStop, hr]

/-- The stop waits for the end of the step: the command asks for it, or the step is sealed. -/
def Cmd.stopsAtStep (c : Cmd) (v : Pav) : Bool := (c.expert && bitAt (c.word 0) 0) || v.sealing.isSome

variable (hr : s.runOf c.pavilion = some (v, r, h))
include hr

theorem bodyProgramStop_at_step (ha : c.stopsAtStep v = true) (h0 : r.phase = 0) : bodyProgramStop s c
    = .ok ((s.started c).modRun c.pavilion fun r => { r with stopAtStep := some (c.serial, 0) }) := by
  have hif : (c.stopsAtStep v && r.phase == 0) = true := by rw [ha, h0]; rfl
  simp only [bodyProgramStop, hr]
  exact if_pos hif

theorem bodyProgramStop_at_once (ha : c.stopsAtStep v = false) : bodyProgramStop s c
    = .ok ((s.abortRun c.pavilion 0x0303 (pavTarget c.pavilion) (some c)).finish c []) := by
  have hif : ¬(c.stopsAtStep v && r.phase == 0) = true := by rw [ha]; exact Bool.false_ne_true
  simp only [bodyProgramStop, hr]
  exact if_neg hif

/-- An aborted run is gone with its command. -/
theorem State.runGone_abortRun (st target : Nat) (x : Option Cmd) :
    (s.abortRun c.pavilion st target x).runGone c.pavilion r.cmd := by
  simp only [State.abortRun, hr]
  exact State.runGone_endRun hr ..

end

end Sys2Proof.Machine

open Sys2Proof Sys2Proof.Machine

/-! ### O41 -/

/-- Settles O41: both starts are one start of a run whose first step begins at once, and a stop aborts the run or marks it. -/
theorem programsRunAndStop : Obligations.ProgramsRunAndStop := by
  intro id c s v h p hd hv
  refine ⟨fun hh hrole hrun hsealing hprep hmove hb hmap => ?_, fun hdue => ⟨fun hrun => ?_, fun r hrun hh => ?_⟩⟩
  · have hfree : v.FreeFor h := ⟨hrole, hrun, hsealing, hprep, hmove, hmap⟩
    refine ⟨fun hdue hms hfit => ?_, fun hdue => ?_⟩
    · have hms' : goodMs c.runMs := by
        unfold Cmd.runMs
        split
        · next hx => exact hms hx
        · exact .inl rfl
      obtain ⟨hruns, hcmds⟩ := State.launch_spec (s := s) (h := h) (hd := hd) (isStep := false)
        (r := c.asRun (s.freshRun c h hd 0 1 false)) hv hb
      obtain ⟨u, hu, hur⟩ := State.runs_eq_some hruns
      have hbody := (bodyProgramRun_eq (s := s) hms').trans (State.startRun_ok hv hh hfree (by simp) hfit)
      refine ⟨_, u, _, congrArg Host.Outcome.next (State.startCmd_ok hdue hbody), hu, hur, State.cmd_serial hdue.1, rfl, rfl,
        rfl, rfl, rfl, rfl, rfl, rfl, rfl, ?_, State.started_any hdue.1 hcmds⟩
      change (if c.runMs = 0 then 10000 else c.runMs) ≠ 0
      split <;> omega
    · intro w ms hms hst hmark hle hfit
      obtain ⟨hruns, hcmds⟩ := State.launch_spec (s := s) (h := h) (hd := hd) (isStep := true)
        (r := c.asStepRun (s.freshRun c h hd (c.stepField 23 20 2) (max 1 (c.stepField 19 16 1)) true)) hv hb
      obtain ⟨u, hu, hur⟩ := State.runs_eq_some hruns
      have hbody := (bodyStepRun_eq (s := s) hms hst).trans (State.startRun_ok hv hh hfree (fun _ => ⟨hmark, hle⟩) hfit)
      exact ⟨_, u, _, congrArg Host.Outcome.next (State.startCmd_ok hdue hbody), hu, hur, State.cmd_serial hdue.1, rfl, rfl,
        rfl, rfl, rfl, rfl, rfl, rfl, rfl, rfl, rfl, rfl, State.started_any hdue.1 hcmds⟩
  · exact congrArg Host.Outcome.next
      (State.startCmd_ok hdue (bodyProgramStop_of_no_run (State.runOf_of_no_run hv hrun)))
  · have hr := State.runOf_of_pav hv hrun hh
    refine ⟨fun ha h0 => ?_, fun ha => ?_⟩
    · exact congrArg Host.Outcome.next (State.startCmd_ok hdue (bodyProgramStop_at_step hr ha h0))
    · obtain ⟨hruns, -⟩ := State.runGone_abortRun hr 0x0303 (pavTarget p) (some c)
      have hst := (State.standing_finish _ c [] 0 0xFFFF).trans (s.standing_abortRun p 0x0303 (pavTarget p) (some c))
      obtain ⟨u, hu, hur⟩ := State.no_run_of_runs hv hst (by rw [State.runs_finish]; exact hruns)
      refine ⟨_, u, congrArg Host.Outcome.next (State.startCmd_ok hdue (bodyProgramStop_at_once hr ha)), ?_, hu, hur⟩
      rw [← State.cmd_serial hdue.1]
      exact State.finish_cmd_self ..
end

section
/-! PROOFS. O40: PROGRAM_LOAD, PROGRAM_UNLOAD and FORERUNNER_NUMERICS (R116, R118, R123, R182). -/

namespace Sys2Proof.Machine

/-! ### PROGRAM_LOAD (R116 to R118) -/

/-- CLUSTER_MASK of PROGRAM_LOAD. -/
def Cmd.loadMask (c : Cmd) : Nat := if c.expert = true then bits (c.word 2) 63 32 else 0

/-- The handle that a loaded image takes: the one that the expert form names, or else the lowest free one. -/
def Cmd.takesHandle (c : Cmd) (v : Pav) (h : Nat) : Prop :=
  if c.expert = true then h = bits (c.word 2) 2 0 ∧ (thas v.handles h = false ∨ bitAt (c.word 2) 8 = true)
    ∧ ∀ r, v.run = some r → r.handle ≠ h
  else ((List.range 8).find? fun h => !thas v.handles h) = some h

/-- The tensors that hold constants. -/
def Image.constTensors (g : Image) : List Nat := (List.range g.tensors.length).filter fun i => (g.tensor i).kind == 5

/-- The handle of an image that PROGRAM_LOAD has copied. -/
def Cmd.loadedHandle (c : Cmd) (g : Image) (copy n : Nat) (l : List (Nat × Nat × Nat)) : Handle :=
  { image := g, addr := copy, bytes := n, clusterMask := c.loadMask, constants := l, mode := if g.level = 2 then 1 else 0 }

/-- The result of PROGRAM_LOAD. -/
def Image.loadResult (g : Image) (h n : Nat) (l : List (Nat × Nat × Nat)) : List Byte :=
  pack [(8, g.programId), (1, h), (3, 0), (4, g.ops.length), (8, n + sumNat (l.map fun x => x.2.2))]

theorem no_run_of_handle {v : Pav} {hd : Nat} (h : ∀ r, v.run = some r → r.handle ≠ hd) :
    (!(v.run.any fun r => r.handle == hd)) = true := by
  cases hr : v.run with
  | none => rfl
  | some r => simpa using h r hr

/-- A range that is aligned and permitted passes the checks of R502. -/
theorem State.checkAddr_ok {s : State} {c : Cmd} {i a n align : Nat} (ha : a % align = 0)
    (hr : s.badRange c.port c.fn a n = none) : s.checkAddr c i a n align = .ok () := by
  unfold State.checkAddr
  rw [need_of (by simpa using ha), hr]
  rfl

/-- What PROGRAM_LOAD asks of its operands: an aligned image in permitted memory, clusters of the pavilion, a valid image
whose bindings and constants can be read, and a handle to take. -/
structure State.Loadable (s : State) (c : Cmd) (v : Pav) (a n : Nat) (g : Image) (h : Nat) : Prop where
  aligned : a % 64 = 0
  clusters : ∀ k ∈ maskBits 32 c.loadMask, v.clusters.contains k = true
  range : s.badRange c.port c.fn a (max n 128) = none
  read : s.badRead a (max n 128) = none
  parsed : parseImage (s.readMem a n) n = .ok g
  bound : s.badBind c v g = none
  consts : ∀ i ∈ g.constTensors, s.badRead (g.tensor i).bindAddr (g.boundBytes i 0) = none
  handle : c.takesHandle v h

/-- A valid image is copied with its constants and takes its handle. -/
theorem bodyProgramLoad_ok {s : State} {c : Cmd} {v : Pav} (hv : s.pav c.pavilion = some v) {h copy : Nat} {g : Image}
    {s1 s2 : State} {l : List (Nat × Nat × Nat)} (hok : s.Loadable c v (c.word 0) (bits (c.word 1) 31 0) g h)
    (halloc : (s.freeHandle c.pavilion h).allocAny c.pavilion (bits (c.word 1) 31 0) 4096 0 = some (copy, s1))
    (hload : (s1.writeMem copy (s.readMem (c.word 0) (bits (c.word 1) 31 0))).loadConstants c.pavilion g g.constTensors
      = some (l, s2)) :
    bodyProgramLoad s c = .ok ((s2.modPav c.pavilion fun v => { v with
      handles := tset v.handles h (c.loadedHandle g copy (bits (c.word 1) 31 0) l) }).finish c
        (g.loadResult h (bits (c.word 1) 31 0) l)) := by
  obtain ⟨ha, hmask, hrange, hread, hparse, hbind, hconst, hh⟩ := hok
  have hfound : (g.constTensors.findSome? fun i => s.badRead (g.tensor i).bindAddr (g.boundBytes i 0)) = none :=
    List.findSome?_eq_none_iff.mpr hconst
  rw [Image.constTensors] at hfound hload
  unfold bodyProgramLoad
  extract_lets p a n mask pick
  have hmask' : ((maskBits 32 mask).all v.clusters.contains) = true := List.all_eq_true.mpr hmask
  rw [need_of (by simpa using ha), hv]
  dsimp only
  rw [need_of hmask', State.checkAddr_ok ha hrange, hread]
  dsimp only
  rw [hparse]
  dsimp only
  rw [hbind]
  dsimp only
  unfold Cmd.takesHandle at hh
  split at hh
  · next hx =>
    obtain ⟨rfl, hfree, hrun⟩ := hh
    have hfree' : (!thas v.handles pick || bitAt (c.word 2) 8) = true := by simpa using hfree
    rw [if_pos hx, need_of hfree', need_of (no_run_of_handle hrun)]
    simp only [pure, Except.pure, bind, Except.bind, hfound, p, n, a, pick, halloc, hload]
    rfl
  · next hx =>
    rw [if_neg hx, hh]
    simp only [bind, Except.bind, hfound, p, n, a, halloc, hload]
    rfl

/-! ### PROGRAM_UNLOAD (R118) -/

section
variable {s : State} {c : Cmd} {v : Pav} {h : Handle} {hd : Nat}

theorem bodyProgramUnload_ok (hv : s.pav c.pavilion = some v) (hh : tfind v.handles (bits (c.word 0) 2 0) = some h)
    (hrun : ∀ r, v.run = some r → r.handle ≠ bits (c.word 0) 2 0) :
    bodyProgramUnload s c = .ok ((s.freeHandle c.pavilion (bits (c.word 0) 2 0)).finish c []) := by
  unfold bodyProgramUnload
  dsimp only
  rw [hv]
  dsimp only
  rw [need_of (by simp [thas, hh]), need_of (no_run_of_handle hrun)]
  rfl

/-- A freed handle is free. -/
theorem State.freeHandle_spec {p : Nat} (hv : s.pav p = some v) (hh : tfind v.handles hd = some h) :
    ∃ u, (s.freeHandle p hd).pav p = some u ∧ tfind u.handles hd = none := by
  simp only [State.freeHandle, hv, hh]
  have hkept : (forEach (h.addr :: h.constants.map (·.2.1)) (fun s a => s.freeMem p a) s).pavsKept p = s.pavsKept p :=
    congrFun (forEach_keep (g := State.pavsKept) (fun s a => s.pavsKept_freeMem p a) _ s) p
  rw [State.pavsKept, State.pavsKept, hv] at hkept
  obtain ⟨u, hu, -⟩ := Option.map_eq_some_iff.mp hkept
  rw [State.modPav_self, hu]
  exact ⟨_, rfl, tfind_tdel_self ..⟩

end

/-! ### FORERUNNER_NUMERICS (R182) -/

/-- The numerics mode that FORERUNNER_NUMERICS asks for. -/
def Cmd.numericsMode (c : Cmd) : Nat :=
  if bitAt (c.word 0) 8 = false then 0 else if (c.expert && bitAt (c.word 1) 0) = true then 2 else 1

/-- A handle that does not run takes the mode that its image allows. -/
theorem bodyForerunnerNumerics_ok {s : State} {c : Cmd} {v : Pav} {h : Handle} (hv : s.pav c.pavilion = some v)
    (hh : tfind v.handles (bits (c.word 0) 2 0) = some h)
    (hrun : ∀ r, v.run = some r → r.handle ≠ bits (c.word 0) 2 0)
    (hoff : bitAt (c.word 0) 8 = true ∨ h.image.level ≠ 2)
    (hon : bitAt (c.word 0) 8 = true → h.image.level = 3 → h.image.forerunnerFault = none) :
    bodyForerunnerNumerics s c = .ok ((s.modPav c.pavilion fun v => { v with
      handles := tset v.handles (bits (c.word 0) 2 0) { h with mode := c.numericsMode } }).finish c
        (pack [(1, h.mode), (1, c.numericsMode)])) := by
  have hfault : (if (bitAt (c.word 0) 8 && h.image.level == 3) = true then h.image.forerunnerFault else none) = none := by
    split
    · next hx =>
      rw [Bool.and_eq_true, beq_iff_eq] at hx
      exact hon hx.1 hx.2
    · rfl
  have hmode : (if (!bitAt (c.word 0) 8) = true then 0 else if (c.expert && bitAt (c.word 1) 0) = true then 2 else 1)
      = c.numericsMode := by
    unfold Cmd.numericsMode
    cases bitAt (c.word 0) 8 <;> rfl
  unfold bodyForerunnerNumerics
  dsimp only
  rw [hv]
  dsimp only
  rw [hh]
  dsimp only
  rw [need_of (no_run_of_handle hrun), need_of (by simpa using hoff), hfault, hmode]
  rfl

end Sys2Proof.Machine

open Sys2Proof Sys2Proof.Machine

/-! ### O40 -/

/-- Settles O40: each command's body is computed where its operands pass, and a freed handle is free. -/
theorem programsAreLoadedAndUnloaded : Obligations.ProgramsAreLoadedAndUnloaded := by
  intro id c s v p hv
  refine ⟨fun hdue => ?_, fun hdue h hh hrun => ⟨?_, State.freeHandle_spec hv hh⟩, fun hdue h hh hrun => ?_⟩
  · intro mask a n ha hmask hrange hread g hparse hbind consts hconst h hhandle copy s1 halloc l s2 hload
    have hok : s.Loadable c v a n g h := ⟨ha, hmask, hrange, hread, hparse, hbind, hconst, hhandle⟩
    exact congrArg Host.Outcome.next (State.startCmd_ok hdue (bodyProgramLoad_ok hv hok halloc hload))
  · exact congrArg Host.Outcome.next (State.startCmd_ok hdue (bodyProgramUnload_ok hv hh hrun))
  · intro m hoff hon
    exact congrArg Host.Outcome.next (State.startCmd_ok hdue (bodyForerunnerNumerics_ok hv hh hrun hoff hon))
end

section
/-! PROOFS. O42: tiles, tokens, step marks, the progress timeout and the barrier instant (R108 to R110, R121, R260, R370). -/

namespace Sys2Proof.Machine

section
variable {s : State} {p : Nat} {v : Pav} {r : Run} {h : Handle}

/-! ### Tokens (R109, R110) -/

/-- A signal changes nothing but the counts of tokens. -/
theorem Run.signal_keeps (r : Run) (k : Nat) : { r.signal k with tokens := r.tokens } = r := by
  unfold Run.signal; split <;> rfl
/-- A signal counts its token, up to the largest count. -/
theorem Run.signal_tokens (r : Run) {k : Nat} (hk : k ≠ 0) :
    tget (r.signal k).tokens k 0 = sat16 (tget r.tokens k 0 + 1) := by
  rw [Run.signal, if_neg hk, tget_tset_self]

/-- Two changes of the run that agree on it. -/
theorem State.modRun_congr (hr : s.runOf p = some (v, r, h)) {f g : Run → Run} (hfg : f r = g r) :
    s.modRun p f = s.modRun p g := by
  obtain ⟨hv, hrun, -⟩ := State.pav_of_runOf hr
  rw [State.pav] at hv
  simp only [State.modRun, State.modPav, hv, hrun, Option.map_some, hfg]

/-- A run after a change. -/
theorem State.runOf_modRun (hr : s.runOf p = some (v, r, h)) {f : Run → Run} (hf : (f r).handle = r.handle) :
    (s.modRun p f).runOf p = some ({ v with run := some (f r) }, f r, h) := by
  obtain ⟨hv, hrun, hh⟩ := State.pav_of_runOf hr
  refine State.runOf_of_pav ?_ rfl (by rw [hf]; exact hh)
  rw [State.modRun, State.modPav_self, hv, Option.map_some, hrun]
  rfl

/-- In a step that ends with a STEP_MARK no iteration ends before it. -/
theorem State.endIteration_of_marked (hr : s.runOf p = some (v, r, h))
    (hmark : (h.image.op (h.image.stepLast r.first)).code = 0x5F) : s.endIteration p = s := by
  simp [State.endIteration, hr, hmark]

/-- An operation that finishes is counted with its token, and nothing but its run changes. -/
theorem State.finishOp_spec (hr : s.runOf p = some (v, r, h)) {i : Nat} (hi : i ∉ r.finished)
    (hmark : (h.image.op (h.image.stepLast r.first)).code = 0x5F) :
    ∃ q, s.finishOp p i = s.modRun p (fun _ => q) ∧ (s.finishOp p i).runOf p = some ({ v with run := some q }, q, h)
      ∧ q.finished = r.finished ++ [i] ∧ q.opsDone = r.opsDone + 1
      ∧ ((h.image.op i).signal ≠ 0 →
        tget q.tokens (h.image.op i).signal 0 = sat16 (tget r.tokens (h.image.op i).signal 0 + 1)) := by
  unfold State.finishOp
  split
  · next hn => rw [hr] at hn; cases hn
  · next v' r' h' he =>
    obtain ⟨rfl, rfl, rfl⟩ : v = v' ∧ r = r' ∧ h = h' := by simpa [hr] using he
    split
    · next hc => exact absurd (List.contains_iff_mem.mp hc) hi
    · extract_lets g kept r₁ past s₁
      have hr₁ := State.runOf_modRun (f := fun _ => { r₁ with
        fwdEnd := if past false then s.now else r₁.fwdEnd, bwdEnd := if past true then s.now else r₁.bwdEnd }) hr
        (congrArg Run.handle (Run.signal_keeps _ _) :)
      have hfirst : r₁.first = r.first := (congrArg Run.first (Run.signal_keeps _ _) :)
      have hend : s₁.endIteration p = s₁ := State.endIteration_of_marked hr₁ (by rw [← hmark, ← hfirst])
      rw [hend]
      exact ⟨_, rfl, hr₁, (congrArg Run.finished (Run.signal_keeps _ _) :), (congrArg Run.opsDone (Run.signal_keeps _ _) :),
        fun hk => Run.signal_tokens _ hk⟩

/-- An operation of the step that may start. -/
theorem State.opReady_of (hr : s.runOf p = some (v, r, h)) {i code : Nat} (h0 : r.phase = 0)
    (hi : i ∈ h.image.stepOps r.first) (hcode : (h.image.op i).code = code) (hn : i ∉ r.finished)
    (ht : r.tokensAllow h.image i = true) : s.opReady p i code = some (v, r, h) := by
  simp [State.opReady, hr, h0, hi, hcode, hn, ht]

/-! ### Step marks (R260) -/

/-- What is held back depends on the pavilion's run, reshape and seal alone. -/
theorem State.dueDeferred_congr {t : State} {u : Pav} (hv : s.pav p = some v) (hu : t.pav p = some u)
    (hcmds : t.cmds = s.cmds) (hwait : t.idleWait = s.idleWait) (hrun : u.run.isSome = v.run.isSome)
    (hshape : u.reshape.state = v.reshape.state) (hseal : u.sealing.isSome = v.sealing.isSome) :
    t.dueDeferred p = s.dueDeferred p := by
  unfold State.dueDeferred
  rw [hcmds, hwait]
  refine List.filter_congr fun c _ => ?_
  by_cases hc : c.pavilion = p
  · have hheld : t.heldBack c = s.heldBack c := by
      simp only [State.heldBack, hc, hv, hu, hrun, hshape, hseal]
    rw [hheld]
  · rw [beq_false_of_ne hc]
    rfl

/-- With a deferred command due, a step that is not the last stands at its boundary. -/
theorem State.markStep_stands (hr : s.runOf p = some (v, r, h)) (i : Nat) (hnote : r.notifySteps = false)
    (hstop : r.stopAtStep = none) (hstep : r.isStep = true) (hmore : r.stepsDone + 1 < r.stepsAsked)
    (hdue : (s.dueDeferred p).any (fun c => c.opcode != 0x0121) = true) :
    ∃ f q, s.markStep p i = s.modPav p f ∧ (f v).run = some q ∧ q.phase = 1 ∧ q.stepsDone = r.stepsDone + 1
      ∧ q.boundary = s.now ∧ q.first = (if i + 1 = h.image.ops.length then 0 else i + 1)
      ∧ q.tokens = (r.signal (h.image.op i).signal).tokens.filter (fun e => (h.image.tokens.getD e.1 (false, 0)).1) := by
  obtain ⟨hv, hrun, -⟩ := State.pav_of_runOf hr
  unfold State.markStep
  split
  · next hn => rw [hr] at hn; cases hn
  · next v' r' h' he =>
    obtain ⟨rfl, rfl, rfl⟩ : v = v' ∧ r = r' ∧ h = h' := by simpa [hr] using he
    extract_lets g lastOp next last r₁ q s₁ s₂
    have hlast : last = false := by
      have hasked : ¬r.stepsAsked ≤ r.stepsDone + 1 := by omega
      simp [last, hstep, hasked]
    have hnote₁ : r₁.notifySteps = false := (congrArg Run.notifySteps (r.signal_keeps _) :).trans hnote
    have hstop₁ : r₁.stopAtStep = none := (congrArg Run.stopAtStep (r.signal_keeps _) :).trans hstop
    have hs₂ : s₂ = s₁ := if_neg (by rw [hnote₁]; exact Bool.false_ne_true)
    have hpav₁ : s₁.pav p = (s.pav p).map _ := State.modPav_self ..
    rw [hv, Option.map_some] at hpav₁
    have hdue₁ : s₁.dueDeferred p = s.dueDeferred p :=
      State.dueDeferred_congr hv hpav₁ rfl rfl (by rw [hrun]; rfl) rfl rfl
    rw [hstop₁, hs₂]
    dsimp only
    rw [hlast, hdue₁, hdue, if_neg Bool.false_ne_true, if_pos rfl]
    refine ⟨_, q, rfl, rfl, rfl, ?_, rfl, ?_, rfl⟩
    · exact congrArg (· + 1) (congrArg Run.stepsDone (Run.signal_keeps r _) :)
    · simp only [q, next, lastOp, g, beq_iff_eq]

end

/-! ### Commands of the block on a running program -/

section
variable {p : Fin 8} {s : State} {v : Pav} {r : Run} {h : Handle}

theorem waitToken_eq {i : Nat} (hready : s.opReady p.val i 0x50 = some (v, r, h)) :
    exec (.waitToken p i) s = .next (s.finishOp p.val i) := by
  simp only [exec, execWaitToken, hready]

theorem signalToken_eq {i : Nat} (hready : s.opReady p.val i 0x51 = some (v, r, h))
    (hearlier : r.earlierDone h.image i = true) : exec (.signalToken p i) s = .next (s.finishOp p.val i) := by
  simp only [exec, execSignalToken, hready, hearlier, if_true]

variable (hr : s.runOf p.val = some (v, r, h))
include hr

/-- A run in which a tile goes in flight. -/
def State.runWithTile (s : State) (v : Pav) (h : Handle) (x : TileRef) (r : Run) : Run :=
  { r with
    inflight := r.inflight ++ [{ tile := x, startedAt := s.now, rates := v.clusters.map fun c => (c, s.rateOf c)
                                 initial := if (h.image.op x.op).acc = true then s.tileCodes v r.handle h x else [] }]
    startedOps := addNew r.startedOps x.op, snaps := r.snaps ++ s.snapsFor v r h x
    lastProgress := if r.startedOps.contains x.op = true then r.lastProgress else s.clock }

/-- A ready tile that precedes every other ready one goes in flight. -/
theorem tileStart_eq {x : TileRef} (hready : s.tileReady v r h x = true) (hfirst : s.firstReady v r h x = true) :
    exec (.tileStart p x) s = .next (s.modRun p.val (s.runWithTile v h x)) := by
  simp only [exec, execTileStart, hr, hready, hfirst]
  refine (if_neg (by decide)).trans (congrArg Host.Outcome.next (State.modRun_congr hr ?_))
  rfl

theorem stepMark_eq {i : Nat} (h0 : r.phase = 0) (hcode : (h.image.op i).code = 0x5F) (hi : i ∈ h.image.stepOps r.first)
    (hearlier : r.earlierDone h.image i = true) (hwait : r.reached h.image (h.image.op i).wait = true)
    (hseal : v.sealing = none) : exec (.stepMark p i) s = .next (s.markStep p.val i) := by
  simp [exec, execStepMark, hr, h0, hcode, hi, hearlier, hwait, hseal]

/-- A run without progress ends. -/
theorem progressTimeout_eq (hlate : r.lastProgress + r.progressMs * 1000000 ≤ s.clock)
    (hcolls : ∀ x ∈ v.colls, x.done = true) :
    ∃ d, exec (.progressTimeout p) s = .next (s.endRun p.val 0x0201 d none) := by
  have hcolls' : (v.colls.any fun c => !c.done) = false := by simpa using hcolls
  simp only [exec, execProgressTimeout, hr, hcolls']
  exact ⟨_, if_neg (by simpa using hlate)⟩

theorem barrierInstant_eq {b : Barrier} (hb : v.barrier = some b) (h2 : r.phase = 2)
    (hat : b.at_ + b.next * b.period ≤ s.now) :
    exec (.barrierInstant p) s = .next ((s.useInstant p.val 0).beginStep p.val) := by
  simp [exec, execBarrierInstant, hr, hb, h2, hat]

end

end Sys2Proof.Machine

open Sys2Proof Sys2Proof.Machine

/-! ### O42 -/

/-- Settles O42: each command of the block is one equation of `exec`; what it leaves of the run is read back. -/
theorem tilesStartAndTokensMove : Obligations.TilesStartAndTokensMove := by
  intro p s v r h hr g
  refine ⟨fun x hready hfirst => ?_, fun i h0 hi hmark hn ht => ⟨fun hcode => ?_, fun hcode hearlier => ?_⟩,
    fun i h0 hcode hi hearlier hwait hseal => ?_, fun hlate hcolls => ?_, fun b hb h2 hat => ?_⟩
  · exact tileStart_eq hr hready hfirst
  · obtain ⟨q, heq, hq, hfin, hops, -⟩ := State.finishOp_spec hr hn hmark
    obtain ⟨hpav, hrun, -⟩ := State.pav_of_runOf hq
    exact ⟨_, _, q, waitToken_eq (State.opReady_of hr h0 hi hcode hn ht), hpav, hrun, hfin, hops,
      by rw [heq]; rfl, by rw [heq]; rfl⟩
  · obtain ⟨q, heq, hq, hfin, -, htok⟩ := State.finishOp_spec hr hn hmark
    obtain ⟨hpav, hrun, -⟩ := State.pav_of_runOf hq
    exact ⟨_, _, q, signalToken_eq (State.opReady_of hr h0 hi hcode hn ht) hearlier, hpav, hrun, hfin, by rw [heq]; rfl,
      by rw [heq]; rfl, htok⟩
  · have heq := stepMark_eq hr h0 hcode hi hearlier hwait hseal
    refine ⟨heq, fun hnote hstop hstep hmore hdue => ?_⟩
    obtain ⟨f, q, hmod, hrun, hphase, hdone, hbound, hnext, htok⟩ :=
      State.markStep_stands hr i hnote hstop hstep hmore hdue
    refine ⟨_, f v, q, heq, ?_, hrun, hphase, hdone, hbound, hnext, htok, by rw [hmod]; rfl⟩
    rw [hmod, State.modPav_self, (State.pav_of_runOf hr).1, Option.map_some]
  · obtain ⟨d, heq⟩ := progressTimeout_eq hr hlate hcolls
    obtain ⟨hruns, hgone⟩ := State.runGone_endRun hr 0x0201 d none 6
    obtain ⟨u, hu, hur⟩ := State.no_run_of_runs (State.pav_of_runOf hr).1 (State.standing_endRun ..) hruns
    exact ⟨_, u, heq, hu, hur, hgone⟩
  · obtain ⟨hruns, hnow⟩ := s.useInstant_keeps p.val 0
    have hbegun := State.beginStep_runs (s.useInstant p.val 0) p.val
    rw [hruns, hnow, State.runs_of_runOf hr] at hbegun
    obtain ⟨u, hu, hur⟩ := State.runs_eq_some hbegun
    exact ⟨_, u, _, barrierInstant_eq hr hb h2 hat, hu, hur, rfl, rfl, rfl⟩
end

section
/-! PROOFS. O43: what the ends of steps and runs leave of the cores, the engines and the held stitch sums (R122, R260). -/

namespace Sys2Proof.Machine

/-! ### What is left alone -/

/-- The cores, the engines and the held stitch sums. -/
def State.arrays (s : State) : Tbl Core × Tbl Engine × List StitchSum := (s.cores, s.engines, s.stitches)

theorem State.arrays_of_still {s t : State} (h : t.still = s.still) : t.arrays = s.arrays := (congrArg State.arrays h :)
theorem State.arrays_of_quiet {s t : State} (h : t.quiet = s.quiet) : t.arrays = s.arrays := (congrArg State.arrays h :)

section
variable (s : State)

theorem State.arrays_modRun (p : Nat) (f : Run → Run) : (s.modRun p f).arrays = s.arrays := rfl
theorem State.arrays_freeMem (p a : Nat) : (s.freeMem p a).arrays = s.arrays := rfl
theorem State.arrays_zeroMem (a n : Nat) : (s.zeroMem a n).arrays = s.arrays := rfl

theorem State.arrays_abortAll (f : Cmd → Bool) (st target : Nat) (x : Option Cmd) :
    (s.abortAll f st target x).arrays = s.arrays := by
  refine forEach_keep (g := State.arrays) (fun s id => ?_) _ s
  split
  · exact State.arrays_of_still (s.still_abort ..)
  · rfl

theorem State.arrays_dropUnstarted (p : Nat) : (s.dropUnstarted p).arrays = s.arrays := by
  refine forEach_keep (g := State.arrays) (fun s q => ?_) _ s
  split
  · rfl
  · exact s.arrays_abortAll ..

theorem State.arrays_parkIfDue (p : Nat) : (s.parkIfDue p).arrays = s.arrays := by
  unfold State.parkIfDue
  split
  · rfl
  · next v _ =>
    split
    · rfl
    · extract_lets q s₁ s₂ s₃
      have h₂ : s₂.arrays = s₁.arrays := by
        unfold s₂
        split
        · exact State.arrays_of_still (s₁.still_abort ..)
        · rfl
      have h₃ : s₃.arrays = s₂.arrays := rfl
      rw [State.arrays_of_quiet (s₃.quiet_postTo ..), h₃, h₂]
      exact s.arrays_dropUnstarted p

theorem State.arrays_putCode (p hd : Nat) (h : Handle) (i sl : Nat) (c : Coord) (code : Nat) :
    (s.putCode p hd h i sl c code).arrays = s.arrays := by
  unfold State.putCode
  split
  · rfl
  · split
    · split <;> exact State.arrays_of_quiet (State.quiet_writeMem ..)
    · rfl
    · rfl

theorem State.arrays_spoilTile (p hd : Nat) (h : Handle) (i : Nat) (t : TileRef) :
    (s.spoilTile p hd h i t).arrays = s.arrays := by
  have hrow : ∀ (s : State) (l : List Nat) (f : Nat → Nat) (c : Nat → Coord),
      (forEach l (fun s b => s.spoilCode p hd h (f b) t.slice (c b)) s).arrays = s.arrays :=
    fun s l f c => forEach_keep (g := State.arrays) (fun s b => s.arrays_putCode ..) l s
  unfold State.spoilTile
  refine forEach_keep (g := State.arrays) (fun s a => ?_) _ s
  dsimp only
  split
  · exact hrow s _ (fun _ => i) _
  · exact (hrow _ _ (fun _ => (h.image.tensor i).scaleTensor) _).trans (hrow s _ (fun _ => i) _)

theorem State.arrays_spoilRun (p : Nat) : (s.spoilRun p).arrays = s.arrays := by
  unfold State.spoilRun
  split
  · rfl
  · exact forEach_keep (g := State.arrays) (fun s e => s.arrays_spoilTile ..) _ s

theorem State.arrays_recordNan (p : Nat) (x : TrapInfo) : (s.recordNan p x).1.arrays = s.arrays := by
  have hput : ∀ (iter step pid : Nat) (on first : Bool),
      (s.putTrap p x iter step pid on first).1.arrays = s.arrays := fun iter step pid on first => by
    unfold State.putTrap
    split
    · rfl
    · dsimp only
      split <;> rfl
  unfold State.recordNan
  split
  · rfl
  · exact hput ..

theorem State.arrays_serveLink (l fuel : Nat) : (s.serveLink l fuel).arrays = s.arrays := by
  induction fuel generalizing s with
  | zero => rfl
  | succ fuel ih =>
    rw [State.serveLink]
    dsimp only
    split
    · rfl
    · next i w _ =>
      split
      · rfl
      · rw [ih]
        split
        · cases w.counts <;> rfl
        · rfl

theorem State.arrays_trySend (p dest bytes t : Nat) (e : Emission) : (s.trySend p dest bytes t e).arrays = s.arrays := by
  have hqueue : ∀ l w, (s.queueFor l w).arrays = s.arrays := fun l w => by
    unfold State.queueFor State.flushLink
    dsimp only
    split
    · rfl
    · exact (State.arrays_serveLink ..).trans rfl
  unfold State.trySend
  split
  · split
    · rfl
    · split
      · rfl
      · split
        · rfl
        · dsimp only
          split
          · rfl
          · exact hqueue ..
  · rfl

theorem State.arrays_endColl (p op cause peer : Nat) : (s.endColl p op cause peer).arrays = s.arrays := by
  unfold State.endColl
  split
  · rfl
  · next v _ =>
    extract_lets own s₁ s₂ s₃
    have h₁ : s₁.arrays = s.arrays := by
      unfold s₁
      split
      · rfl
      · exact forEach_keep (g := State.arrays) (fun s x => s.arrays_trySend ..) _ s
    exact (State.arrays_of_quiet (s₃.quiet_postPav ..)).trans h₁

theorem State.arrays_unseal (p : Nat) : (s.unseal p).arrays = s.arrays := by
  unfold State.unseal
  extract_lets kept s₁ fresh s₂ s₃
  have h₁ : s₁.arrays = s.arrays := forEach_keep (g := State.arrays) (fun s n => by
    dsimp only
    split <;> rfl) _ s
  have h₂ : s₂.arrays = s₁.arrays := forEach_keep (g := State.arrays) (fun s e => s.arrays_freeMem p _) _ s₁
  have h₃ : s₃.arrays = s.arrays := h₂.trans h₁
  split <;> exact h₃

theorem State.arrays_clearStep (p : Nat) : (s.clearStep p).arrays = s.arrays := by
  unfold State.clearStep
  split
  · rfl
  · refine forEach_keep (g := State.arrays) (fun s i => ?_) _ s
    dsimp only
    split
    · rfl
    · split
      · refine forEach_keep (g := State.arrays) (fun s sl => ?_) _ s
        split <;> rfl
      · split
        · split
          · rfl
          · exact forEach_keep (g := State.arrays) (fun s x => s.arrays_zeroMem _ _) _ s
        · rfl

theorem State.arrays_beginStep (p : Nat) : (s.beginStep p).arrays = s.arrays := State.arrays_clearStep ..

theorem State.arrays_useInstant (p late : Nat) : (s.useInstant p late).arrays = s.arrays := by
  unfold State.useInstant
  split
  · rfl
  · split
    · rfl
    · dsimp only
      split
      · split
        · rfl
        · exact (State.arrays_of_still (State.still_finish ..)).trans rfl
      · rfl

theorem State.arrays_stepStart (p : Nat) : (s.stepStart p).arrays = s.arrays := by
  have hused : ∀ late, ((s.useInstant p late).beginStep p).arrays = s.arrays := fun late =>
    (State.arrays_beginStep ..).trans (s.arrays_useInstant p late)
  unfold State.stepStart
  split
  · rfl
  · split
    · exact s.arrays_beginStep p
    · dsimp only
      split
      · rfl
      · split
        · exact hused 0
        · split
          · exact hused _
          · split
            · split
              · exact hused _
              · rfl
            · split
              · exact hused _
              · rfl

theorem State.arrays_renew (l : List (Nat × Nat)) : (s.renew l).arrays = s.arrays := by
  unfold State.renew
  split <;> rfl

theorem State.arrays_writeTile (p hd : Nat) (h : Handle) (i : Nat) (t : TileRef) (els : List Elem) :
    (s.writeTile p hd h i t els).1.arrays = s.arrays := by
  have hput : ∀ (l : List Written) (f : Written → Coord) (u : State),
      (forEach l (fun s w => s.putCode p hd h i t.slice (f w) w.code) u).arrays = u.arrays :=
    fun l f u => forEach_keep (g := State.arrays) (fun s w => s.arrays_putCode ..) l u
  unfold State.writeTile
  extract_lets g ten scale s₁
  obtain ⟨ws, scs⟩ := convertTile ten scale els
  have h₁ : s₁.arrays = s.arrays := by
    unfold s₁
    split
    · exact s.arrays_renew _
    · rfl
  dsimp only
  refine (forEach_keep (g := State.arrays) (fun s b => s.arrays_putCode ..) _ _).trans ?_
  exact (hput _ _ s₁).trans h₁

end

/-! ### What may be given up -/

/-- The cores stay, and no stitch sum and no bank is new. -/
structure State.sheds (s t : State) : Prop where
  cores : t.cores = s.cores
  stitches : ∀ z ∈ t.stitches, z ∈ s.stitches
  banks : ∀ e k, tfind (s.engine e).banks k = none → tfind (t.engine e).banks k = none

theorem State.sheds_refl (s : State) : s.sheds s := ⟨rfl, fun _ h => h, fun _ _ h => h⟩

theorem State.sheds_modRun (s : State) (p : Nat) (f : Run → Run) : s.sheds (s.modRun p f) :=
  ⟨rfl, fun _ h => h, fun _ _ h => h⟩

theorem State.sheds.trans {s t u : State} (h : s.sheds t) (h' : t.sheds u) : s.sheds u :=
  ⟨h'.cores.trans h.cores, fun z hz => h.stitches z (h'.stitches z hz), fun e k hk => h'.banks e k (h.banks e k hk)⟩

theorem State.sheds_of_arrays {s t : State} (h : t.arrays = s.arrays) : s.sheds t := by
  obtain ⟨hcores, hengines, hstitches⟩ : t.cores = s.cores ∧ t.engines = s.engines ∧ t.stitches = s.stitches := by
    simpa [State.arrays] using h
  exact ⟨hcores, fun z hz => hstitches ▸ hz, fun e k hk => by rw [State.engine, hengines]; exact hk⟩

theorem State.sheds_forEach {α : Type} {f : State → α → State} (h : ∀ s a, State.sheds s (f s a)) (l : List α) (s : State) :
    s.sheds (forEach l f s) :=
  forEach_inv (P := s.sheds) (fun t a ht => ht.trans (h t a)) l s s.sheds_refl

/-- A key that a table does not list is not in a part of the table either. -/
theorem tfind_filter_none {α : Type} {t : Tbl α} {k : Nat} (f : Nat × α → Bool) (h : tfind t k = none) :
    tfind (t.filter f) k = none := by
  induction t with
  | nil => rfl
  | cons e t ih =>
    obtain ⟨i, v⟩ := e
    simp only [tfind] at h
    split at h
    · cases h
    · next hk =>
      rw [List.filter_cons]
      split
      · simpa [tfind, hk] using ih h
      · exact ih h

/-- The passes and the stitch sums of a pavilion are discarded (R122). -/
theorem State.sheds_discard (s : State) (p : Nat) : s.sheds { s with
    engines := s.engines.map fun (e : Nat × Engine) => (e.1, e.2.dropBanks fun _ b => b.pav == p)
    stitches := s.stitches.filter fun x => x.pav != p } := by
  refine ⟨rfl, fun z hz => (List.mem_filter.mp hz).1, fun e k hk => ?_⟩
  have hmap : tfind (s.engines.map fun (e : Nat × Engine) => (e.1, e.2.dropBanks fun _ b => b.pav == p)) e
      = (tfind s.engines e).map fun g => g.dropBanks fun _ b => b.pav == p :=
    tfind_tmap (fun _ (g : Engine) => g.dropBanks fun _ b => b.pav == p) s.engines e
  rw [State.engine, tget] at hk ⊢
  rw [hmap]
  cases he : tfind s.engines e with
  | none => rfl
  | some g =>
    rw [he] at hk
    exact tfind_filter_none _ hk

theorem State.sheds_endRun (s : State) (p st d : Nat) (result : Option (List Byte)) (cause : Nat) :
    s.sheds (s.endRun p st d result cause) := by
  unfold State.endRun
  split
  · exact s.sheds_refl
  · next v r₀ h _ =>
    extract_lets held res good s₁ r s₂ s₃ s₄ s₅ s₆ s₇ s₈
    have h₁ : s₁.arrays = s.arrays := forEach_keep (g := State.arrays) (fun s x => s.arrays_recordNan ..) _ s
    have h₂ : s₂.arrays = s₁.arrays := by
      unfold s₂
      split
      · rfl
      · exact s₁.bumpFree.arrays_spoilRun p
    have h₃ : s₃.arrays = s₂.arrays := forEach_keep (g := State.arrays) (fun s c => s.arrays_endColl ..) _ s₂
    have h₄ : s₄.arrays = s₃.arrays := by
      unfold s₄
      split
      · rfl
      · exact s₃.arrays_unseal p
    have h₇ : s₇.arrays = s₆.arrays :=
      forEach_keep (g := State.arrays) (fun s c => State.arrays_of_still (s.still_finish ..)) _ s₆
    have h₈ : s₈.arrays = s₇.arrays := by
      unfold s₈
      split
      · rfl
      · split
        · exact State.arrays_of_still (s₇.still_finish ..)
        · exact State.arrays_of_still (s₇.still_complete ..)
    have hbefore : s.sheds s₄ := State.sheds_of_arrays (by rw [h₄, h₃, h₂, h₁])
    have hafter : s₅.sheds ((s₈.dropUnstarted p).parkIfDue p) := State.sheds_of_arrays <| by
      rw [State.arrays_parkIfDue, State.arrays_dropUnstarted, h₈, h₇]; rfl
    exact (hbefore.trans (s₄.sheds_discard p)).trans hafter

theorem State.sheds_nanFound (s : State) (p : Nat) (x : TrapInfo) : s.sheds (s.nanFound p x) := by
  unfold State.nanFound
  split
  · exact s.sheds_refl
  · have hrec : s.sheds (s.recordNan p x).1 := State.sheds_of_arrays (s.arrays_recordNan p x)
    dsimp only
    split
    · exact hrec
    · exact hrec.trans (State.sheds_endRun ..)

theorem State.sheds_nanStops (s : State) (p : Nat) (t : TileRef) : s.sheds (s.nanStops p t).1 := by
  unfold State.nanStops
  split
  · exact s.sheds_refl
  · split
    · exact s.sheds_refl
    · split
      · exact s.sheds_refl
      · exact s.sheds_nanFound ..

theorem State.sheds_endIteration (s : State) (p : Nat) : s.sheds (s.endIteration p) := by
  unfold State.endIteration
  split
  · exact s.sheds_refl
  · dsimp only
    split
    · exact s.sheds_refl
    · split
      · exact (s.sheds_modRun ..).trans (State.sheds_endRun ..)
      · exact State.sheds_of_arrays (State.arrays_stepStart ..)

theorem State.sheds_finishOp (s : State) (p i : Nat) : s.sheds (s.finishOp p i) := by
  unfold State.finishOp
  split
  · exact s.sheds_refl
  · split
    · exact s.sheds_refl
    · exact (s.sheds_modRun ..).trans (State.sheds_endIteration ..)

theorem State.sheds_finishTile (s : State) (p : Nat) (t : TileRef) (core place : Nat) (more : List TrapInfo) :
    s.sheds (s.finishTile p t core place more) := by
  unfold State.finishTile
  split
  · exact s.sheds_refl
  · split
    · exact s.sheds_refl
    · extract_lets g o rate sampled s₁ s₂ isle start heat s₃ s₄
      have h₃ : s.sheds s₃ := State.sheds_of_arrays (by unfold s₃; split <;> rfl)
      have h₄ : s.sheds s₄ := h₃.trans (State.sheds_forEach (fun s n => s.sheds_nanFound p n) _ s₃)
      split
      · exact h₄
      · split
        · exact h₄.trans (s₄.sheds_finishOp ..)
        · exact h₄

end Sys2Proof.Machine
end

section
/-! PROOFS. O43: an uncorrectable error of the accumulator memory (R145), and a core that goes out of service (R18, R21). -/

namespace Sys2Proof.Machine

/-! ### Cores out of service -/

/-- A core that has failed or is retired. -/
def State.outOfDuty (s : State) (p : Nat) : Prop := (s.core p).failed = true ∨ (s.core p).retired = true

theorem State.outOfDuty_of_cores {s t : State} (h : t.cores = s.cores) {p : Nat} (hp : s.outOfDuty p) : t.outOfDuty p := by
  rwa [State.outOfDuty, State.core, h]

/-- A core that goes out of service in a change of cores is out of service. -/
theorem State.outOfDuty_modCore_self (s : State) (p : Nat) {f : Core → Core}
    (h : (f (s.core p)).failed = true ∨ (f (s.core p)).retired = true) : (s.modCore p f).outOfDuty p := by
  rwa [State.outOfDuty, State.modCore_self]

/-- A window that is unmapped brings no core back. -/
theorem State.outOfDuty_unmapWindow {s : State} {p : Nat} (q : Nat) (h : s.outOfDuty p) : (s.unmapWindow q).outOfDuty p := by
  have hcore : ∀ t : State, t.cores = (s.modCore q fun k => { k with unmapped := true }).cores → t.outOfDuty p := by
    refine fun t ht => State.outOfDuty_of_cores ht ?_
    by_cases hq : p = q
    · subst hq
      exact s.outOfDuty_modCore_self p h
    · rwa [State.outOfDuty, State.modCore_ne _ _ hq]
  unfold State.unmapWindow
  dsimp only
  split <;> exact hcore _ rfl

theorem State.cores_replayLost (s : State) (p : Nat) : (s.replayLost p).cores = s.cores := by
  unfold State.replayLost
  split
  · rfl
  · split
    · exact (State.sheds_endRun ..).cores
    · rfl

theorem State.cores_dropJob (s : State) (c : Cmd) : (s.dropJob c).cores = s.cores := by
  unfold State.dropJob
  split
  · rfl
  · next j _ =>
    refine forEach_keep (g := fun s : State => s.cores) (fun s d =>
      forEach_keep (g := fun s : State => s.cores) (fun s r => ?_) _ s) _ s
    dsimp only
    split
    · split <;> rfl
    · exact (congrArg State.cores (State.quiet_writeMem ..) :)

theorem State.cores_moversGone (s : State) (gone : Nat → Bool) (target : Nat) (cause : Option Cmd) :
    (s.moversGone gone target cause).cores = s.cores := by
  refine forEach_keep (g := fun s : State => s.cores) (fun s j => ?_) _ s
  split
  · rfl
  · next c _ =>
    split
    · exact (congrArg State.cores (State.still_abort ..) :).trans (s.cores_dropJob c)
    · dsimp only
      split <;> rfl

theorem State.cores_clusterOut (s : State) (c : Nat) : (s.clusterOut c).cores = s.cores := by
  have hleave : ∀ (t : State) (p : Nat), (t.dropLeaving p).cores = t.cores := fun t p => by
    unfold State.dropLeaving
    split
    · rfl
    · dsimp only
      split
      · rfl
      · exact forEach_keep (g := fun s : State => s.cores) (fun s c => s.modCluster_cores c _) _ t
  unfold State.clusterOut
  split
  · rfl
  · dsimp only
    split
    · exact hleave ..
    · rfl

/-- A core that is taken out of service for a failure or an error is out of service, whatever goes with it. -/
theorem State.outOfDuty_coreOut (s : State) (p cause : Nat) (retire : Bool) : (s.coreOut p cause retire).outOfDuty p := by
  unfold State.coreOut
  extract_lets c j k s₁ s₂ s₃ s₄ s₅ s₆
  split
  · next h =>
    refine s.outOfDuty_modCore_self p ?_
    rw [Bool.or_eq_true] at h
    exact h.imp id fun hr => by simp [hr]
  · have h₁ : s₁.outOfDuty p := State.outOfDuty_modCore_self _ p (by cases retire <;> simp)
    clear_value s₁
    have h₂ : s₂.outOfDuty p := State.outOfDuty_of_cores (congrArg State.cores (State.quiet_postOwner ..) :) h₁
    clear_value s₂
    have hlost : ∀ {t : State} (q : Nat), t.outOfDuty p → (t.replayLost q).outOfDuty p := fun q ht =>
      State.outOfDuty_of_cores (State.cores_replayLost _ q) ht
    have h₃ : s₃.outOfDuty p := by
      unfold s₃
      split
      · exact hlost p (State.outOfDuty_unmapWindow p h₂)
      · split
        · split
          · exact hlost p (State.outOfDuty_unmapWindow _ h₂)
          · exact h₂
        · split
          · exact hlost p h₂
          · exact hlost p (State.outOfDuty_unmapWindow p h₂)
    clear_value s₃
    have h₄ : s₄.outOfDuty p := by
      unfold s₄
      split
      · split
        · exact State.outOfDuty_unmapWindow _ h₃
        · exact h₃
      · exact h₃
    clear_value s₄
    have h₆ : s₆.outOfDuty p := State.outOfDuty_of_cores (s₅.cores_moversGone ..) h₄
    split
    · exact h₆
    · exact State.outOfDuty_of_cores (s₆.cores_clusterOut c) h₆

/-! ### ACC_UNCORRECTABLE (R145) -/

/-- What the passes of an engine do not touch, dropping them leaves. -/
theorem State.dropBanks_view {γ : Type} {g : State → γ} (hrun : ∀ s p f, g (State.modRun s p f) = g s)
    (hengine : ∀ s e f, g (State.modEngine s e f) = g s) (s : State) (e : Nat) (hit : Nat → Bool) :
    g (s.dropBanks e hit) = g s := by
  unfold State.dropBanks
  exact (hengine ..).trans (forEach_keep (g := g) (fun s (b : Nat × Bank) => hrun s b.2.pav _) _ s)

theorem State.dropBanks_engine (s : State) (e : Nat) (hit : Nat → Bool) :
    (s.dropBanks e hit).engine e = (s.engine e).dropBanks fun k _ => hit k := by
  unfold State.dropBanks
  dsimp only
  rw [State.modEngine_self]
  exact congrArg (fun g : Engine => g.dropBanks fun k _ => hit k)
    (forEach_keep (g := fun s : State => s.engine e) (fun s (b : Nat × Bank) => s.modRun_engine b.2.pav _ e) _ s)

/-- The state after the pass of a bank is dropped for an error. -/
def State.dropBadPass (s : State) (e j : Nat) (b : Bank) : State :=
  let s := ((s.count (ctrId (placeCore (e / 2) (e % 2)) 1 5) 1).dropBanks e fun i => i == j).modRun b.pav fun r =>
    { r with notes := addNew r.notes 0x0105 }
  s.modEngine e fun g => { g with lastBad := some s.clock }

theorem State.dropBadPass_keeps (s : State) (e j : Nat) (b : Bank) :
    (s.dropBadPass e j b).cores = s.cores ∧ (s.dropBadPass e j b).mem = s.mem := by
  have h : ∀ t : State, (t.dropBanks e fun i => i == j).cores = t.cores ∧ (t.dropBanks e fun i => i == j).mem = t.mem :=
    fun t => ⟨State.dropBanks_view (g := fun s => s.cores) (fun _ _ _ => rfl) (fun _ _ _ => rfl) t e _,
      State.dropBanks_view (g := fun s => s.mem) (fun _ _ _ => rfl) (fun _ _ _ => rfl) t e _⟩
  exact h (s.count _ 1)

theorem State.dropBadPass_engine (s : State) (e j : Nat) (b : Bank) :
    (s.dropBadPass e j b).engine e = { (s.engine e).dropBanks fun i _ => i == j with lastBad := some s.clock } := by
  have hclock : ∀ t : State, (t.dropBanks e fun i => i == j).clock = t.clock := fun t =>
    State.dropBanks_view (g := State.clock) (fun _ _ _ => rfl) (fun _ _ _ => rfl) t e _
  unfold State.dropBadPass
  dsimp only
  rw [State.modEngine_self, State.modRun_engine, State.dropBanks_engine]
  exact congrArg (fun c => { (s.engine e).dropBanks fun i _ => i == j with lastBad := some c }) (hclock (s.count _ 1))

/-- A bank whose pass is abandoned is empty. -/
theorem Engine.dropBanks_find (g : Engine) (j : Nat) : tfind (g.dropBanks fun i _ => i == j).banks j = none :=
  tfind_tdel_self g.banks j

/-- No error stands within 1 s before now (R145, R197). -/
theorem no_recent_error {last : Option Nat} {now : Nat} (h : ∀ t, last = some t → t + 1000000000 ≤ now) :
    (last.any fun t => decide (now < t + 1000000000)) = false := by
  rw [Option.any_eq_false]
  intro t ht
  simpa using h t ht

section
variable {s : State} {e : Fin 384} {k : Fin 2} {b : Bank}
variable (hb : tfind (s.engine e.val).banks ((s.engine e.val).bankKey k.val) = some b)
include hb

/-- The pass of the bank is dropped, and the second error within 1 s takes the core out of service. -/
theorem accUncorrectable_eq : exec (.accUncorrectable e k) s = .next
    (if (s.engine e.val).lastBad.any (fun t => decide (s.clock < t + 1000000000)) then
      (s.dropBadPass e.val ((s.engine e.val).bankKey k.val) b).coreOut (e.val / 2) 4 false
    else s.dropBadPass e.val ((s.engine e.val).bankKey k.val) b) := by
  simp only [exec, execAccUncorrectable, hb]
  rfl

/-- The first error drops its pass and is remembered. -/
theorem accUncorrectable_first (hfirst : ∀ t, (s.engine e.val).lastBad = some t → t + 1000000000 ≤ s.clock) :
    ∃ t, exec (.accUncorrectable e k) s = .next t
      ∧ tfind (t.engine e.val).banks ((s.engine e.val).bankKey k.val) = none
      ∧ (t.engine e.val).lastBad = some s.clock ∧ t.cores = s.cores ∧ t.mem = s.mem := by
  obtain ⟨hcores, hmem⟩ := s.dropBadPass_keeps e.val ((s.engine e.val).bankKey k.val) b
  have hengine := s.dropBadPass_engine e.val ((s.engine e.val).bankKey k.val) b
  rw [accUncorrectable_eq hb, no_recent_error hfirst]
  refine ⟨_, rfl, ?_, ?_, hcores, hmem⟩
  · exact (congrArg (fun g => tfind g.banks _) hengine).trans (Engine.dropBanks_find ..)
  · exact congrArg Engine.lastBad hengine

/-- The second error within 1 s fails the core. -/
theorem accUncorrectable_second {a : Nat} (hlast : (s.engine e.val).lastBad = some a) (hsoon : s.clock < a + 1000000000) :
    ∃ t, exec (.accUncorrectable e k) s = .next t ∧ t.outOfDuty (e.val / 2) := by
  rw [accUncorrectable_eq hb, hlast, Option.any_some, decide_eq_true hsoon]
  exact ⟨_, rfl, State.outOfDuty_coreOut ..⟩

end

end Sys2Proof.Machine
end

section
/-! PROOFS. O43: passes and loadings of the array (R126, R130, R131, R142, R143, R151, R224). -/

namespace Sys2Proof.Machine

/-! ### Tiles in flight (R108) -/

/-- A change of a pavilion that leaves its run and its programs. -/
theorem State.runOf_modPav (s : State) (p : Nat) {f : Pav → Pav} (hrun : ∀ v, (f v).run = v.run)
    (hprog : ∀ v, (f v).handles = v.handles) :
    ((s.modPav p f).runOf p).map (·.2) = (s.runOf p).map (·.2) := by
  simp only [State.runOf, State.modPav_self]
  cases s.pav p with
  | none => rfl
  | some v =>
    simp only [Option.map_some, hrun, hprog]
    cases v.run with
    | none => rfl
    | some r => dsimp only; cases tfind v.handles r.handle <;> rfl

/-- Storing a code leaves the run and its program. -/
theorem State.runOf_putCode (s : State) (p hd : Nat) (h : Handle) (i sl : Nat) (c : Coord) (code : Nat) :
    ((s.putCode p hd h i sl c code).runOf p).map (·.2) = (s.runOf p).map (·.2) := by
  have hwrite : ∀ a l, ((s.writeMem a l).runOf p).map (·.2) = (s.runOf p).map (·.2) := fun a l =>
    (congrArg (fun s : State => (s.runOf p).map (·.2)) (s.quiet_writeMem a l) :)
  unfold State.putCode
  split
  · rfl
  · split
    · split <;> exact hwrite ..
    · exact s.runOf_modPav p (fun _ => rfl) fun _ => rfl
    · rfl

theorem State.runOf_putSnap (s : State) (p hd : Nat) (h : Handle) (x : Snap) :
    ((s.putSnap p hd h x).runOf p).map (·.2) = (s.runOf p).map (·.2) :=
  forEach_keep (g := fun s : State => (s.runOf p).map (·.2)) (fun s _ => s.runOf_putCode ..) _ s

section
variable {s : State} {p code : Nat} {v : Pav} {r : Run} {h : Handle} {t : TileRef} {x : Inst}

/-- What a tile computes from is its operation in the program that runs. -/
theorem State.inst_eq (hr : s.runOf p = some (v, r, h)) (t : TileRef) : ∃ u w,
    s.inst p t = some { s := u, v := w, hd := r.handle, h := h, o := h.image.op t.op, sl := t.slice } := by
  have hput : ∀ l : List Snap, ((forEach l (fun s x => s.putSnap p r.handle h x) s).runOf p).map (·.2) = some (r, h) :=
    fun l => by
      rw [forEach_keep (g := fun s : State => (s.runOf p).map (·.2)) (fun s x => s.runOf_putSnap ..) l s, hr]
      rfl
  obtain ⟨⟨w, y⟩, hw, hy⟩ := Option.map_eq_some_iff.mp (hput (r.snaps.filter fun x => x.op == t.op && x.slice == t.slice))
  obtain rfl : y = (r, h) := hy
  simp only [State.inst, hr]
  rw [hw]
  exact ⟨_, w, rfl⟩

theorem State.flying_isSome (hr : s.runOf p = some (v, r, h)) : (s.flying p code t).isSome = true ↔
    r.phase = 0 ∧ (h.image.op t.op).code = code ∧ t ∈ r.inflight.map (·.tile) := by
  obtain ⟨u, w, hi⟩ := State.inst_eq hr t
  simp [State.flying, hr, hi, and_assoc]

/-- A tile in flight is one of a running program. -/
theorem State.runOf_of_flying (hx : s.flying p code t = some x) : ∃ v r h, s.runOf p = some (v, r, h) := by
  cases hr : s.runOf p with
  | none => rw [State.flying, hr] at hx; cases hx
  | some y => exact ⟨y.1, y.2.1, y.2.2, rfl⟩

/-- A tile in flight has its operation's code. -/
theorem State.flying_code (hx : s.flying p code t = some x) : x.o.code = code := by
  obtain ⟨v, r, h, hr⟩ := State.runOf_of_flying hx
  obtain ⟨u, w, hi⟩ := State.inst_eq hr t
  obtain ⟨-, hc, -⟩ := (State.flying_isSome (code := code) (t := t) hr).mp (by rw [hx]; rfl)
  simp only [State.flying, hr, hi] at hx
  split at hx
  · exact Option.some.inj hx ▸ hc
  · cases hx

/-- A tile that a pass stacks stays in flight while its run stays in its phase with the same tiles. -/
theorem State.bankInst_isSome {u : State} {v' : Pav} {r' : Run} {b : Bank} (hr : s.runOf p = some (v, r, h))
    (hx : s.flying p code t = some x) (hcode : code = 1 ∨ code = 2) (hpav : b.pav = p)
    (hr' : u.runOf p = some (v', r', h)) (hphase : r'.phase = r.phase)
    (htiles : r'.inflight.map (·.tile) = r.inflight.map (·.tile)) : (u.bankInst b t).isSome = true := by
  have hfly : (u.flying p code t).isSome = true := by
    rw [State.flying_isSome hr', hphase, htiles, ← State.flying_isSome hr, hx]
    rfl
  unfold State.bankInst
  rw [hpav]
  split
  · rfl
  · next h1 =>
    rcases hcode with rfl | rfl
    · rw [h1] at hfly; cases hfly
    · exact hfly

/-! ### Loadings of the array (R130, R131) -/

theorem State.streamLoad_eq {b : Bank} (hx : s.bankInst b b.pass.tile = some x) (e k fixed : Nat) :
    ∃ f i m j n, s.streamLoad e k b fixed = ((s.modEngine e f).count i m).count j n
      ∧ ∀ g, (f g).stalled = false ∧ (f g).current = g.shadow ∧ (f g).nextBank = g.nextBank
        ∧ (f g).banks = tset g.banks k { b with
            loads := b.loads + 1, complete := decide (x.loads x.o.wide b.pass.stitch ≤ b.loads + 1) } := by
  unfold State.streamLoad
  rw [hx]
  exact ⟨_, _, _, _, _, rfl, fun g => ⟨rfl, rfl, rfl, rfl⟩⟩

/-- A loading that streams takes the shadow registers' codes, and is counted with its bank. -/
theorem State.streamLoad_spec {b : Bank} (hx : s.bankInst b b.pass.tile = some x) (e k fixed : Nat) :
    ((s.streamLoad e k b fixed).engine e).stalled = false
      ∧ ((s.streamLoad e k b fixed).engine e).current = (s.engine e).shadow
      ∧ tfind ((s.streamLoad e k b fixed).engine e).banks k = some { b with
          loads := b.loads + 1, complete := decide (x.loads x.o.wide b.pass.stitch ≤ b.loads + 1) }
      ∧ (∀ j, j ≠ e → (s.streamLoad e k b fixed).engine j = s.engine j) ∧ (s.streamLoad e k b fixed).mem = s.mem := by
  obtain ⟨f, i, m, j, n, heq, hf⟩ := State.streamLoad_eq hx e k fixed
  obtain ⟨hstalled, hcurrent, -, hbanks⟩ := hf (s.engine e)
  rw [heq]
  refine ⟨?_, ?_, ?_, fun j hj => s.modEngine_ne f hj, rfl⟩ <;> rw [State.count_engine, State.count_engine, State.modEngine_self]
  · exact hstalled
  · exact hcurrent
  · rw [hbanks, tfind_tset_self]

/-! ### Passes that begin (R142, R143, R151) -/

/-- The entries of a new pass with the values they begin with: those of the rows that a mask leaves of its tiles. -/
def State.passRows (s : State) (p : Nat) (q : PassRef) (x : Inst) (tiles : List (TileRef × Nat)) : Tbl (List Nat) :=
  (tiles.filterMap fun t => (s.flying p x.o.code t.1).map fun y => (t, y)).flatMap fun u =>
    (u.2.blockRows u.1.1 q.block).map fun r => (u.1.2 + r, u.2.firstRow u.1.1 q.block q.stitch r)

/-- The bank of a new pass. -/
def Inst.newBank (x : Inst) (p : Nat) (q : PassRef) (tiles : List (TileRef × Nat)) (rows : Tbl (List Nat)) : Bank :=
  { pav := p, pass := q, tiles := tiles, rows := rows.map (·.1), cols := (x.blockCols q.tile q.block).length
    stitches := x.stitches, tall := x.tall q.tile }

/-- An engine that takes a new pass: an idle one stalls until its shadow registers are loaded. -/
def Engine.takePass (g : Engine) (q : PassRef) (x : Inst) (b : Bank) (rows : Tbl (List Nat)) : Engine :=
  { g with
    shadow := x.weights x.o.wide q.tile q.block q.stitch 0, shadowReady := !g.banks.isEmpty, stalled := g.banks.isEmpty
    nextBank := if b.tall then 0 else 1 - q.bank.val, banks := tset g.banks q.bank.val b
    entries := rows.foldl (fun m y => tset m y.1 y.2) g.entries }

/-- A mask leaves rows of a pass exactly where it leaves rows of one of its tiles. -/
theorem State.passRows_ne_nil {q : PassRef} {tiles : List (TileRef × Nat)} : s.passRows p q x tiles ≠ [] ↔
    ∃ t ∈ tiles, ∃ y, s.flying p x.o.code t.1 = some y ∧ y.blockRows t.1 q.block ≠ [] := by
  constructor
  · intro h
    obtain ⟨a, ha⟩ := List.exists_mem_of_ne_nil _ h
    obtain ⟨u, hu, ha⟩ := List.mem_flatMap.mp ha
    obtain ⟨t, ht, hmap⟩ := List.mem_filterMap.mp hu
    obtain ⟨y, hy, rfl⟩ := Option.map_eq_some_iff.mp hmap
    obtain ⟨row, hrow, -⟩ := List.mem_map.mp ha
    exact ⟨t, ht, y, hy, List.ne_nil_of_mem hrow⟩
  · rintro ⟨t, ht, y, hy, hne⟩
    obtain ⟨a, ha⟩ := List.exists_mem_of_ne_nil _ hne
    have htile : (t, y) ∈ tiles.filterMap fun t => (s.flying p x.o.code t.1).map fun y => (t, y) :=
      List.mem_filterMap.mpr ⟨t, ht, by rw [hy]; rfl⟩
    exact List.ne_nil_of_mem (List.mem_flatMap.mpr ⟨(t, y), htile, List.mem_map_of_mem ha⟩)

/-- A pass without rows that is not of stitch 0 changes only counters and its tiles' progress. -/
theorem State.beginPass_skipped {q : PassRef} {tiles : List (TileRef × Nat)} (hrows : s.passRows p q x tiles = [])
    (hst : q.stitch ≠ 0) (fixed : Nat) : (s.beginPass p q x tiles fixed).engines = s.engines
      ∧ (s.beginPass p q x tiles fixed).mem = s.mem := by
  have hskip : ∃ i n, s.beginPass p q x tiles fixed
      = (s.markPass p q.eng.val (tiles.map (·.1)) q.block q.stitch).count i n :=
    ⟨_, _, (if_pos (List.isEmpty_iff.mpr hrows)).trans (if_pos hst)⟩
  obtain ⟨i, n, heq⟩ := hskip
  rw [heq]
  exact ⟨rfl, rfl⟩

/-- Marking a pass as begun keeps the run's phase and the tiles in flight. -/
theorem State.runOf_markPass (hr : s.runOf p = some (v, r, h)) (e : Nat) (ts : List TileRef) (block stitch : Nat) :
    ∃ v' r', (s.markPass p e ts block stitch).runOf p = some (v', r', h) ∧ r'.phase = r.phase
      ∧ r'.inflight.map (·.tile) = r.inflight.map (·.tile) := by
  refine ⟨_, _, State.runOf_modRun hr rfl, rfl, ?_⟩
  rw [List.map_map]
  refine List.map_congr_left fun y _ => ?_
  dsimp only [Function.comp]
  split <;> rfl

/-- A pass with rows takes its bank, and on a busy engine streams at once. -/
theorem State.beginPass_eq {q : PassRef} {tiles : List (TileRef × Nat)} (hr : s.runOf p = some (v, r, h))
    (hrows : s.passRows p q x tiles ≠ []) (fixed : Nat) :
    ∃ u v' r', u.runOf p = some (v', r', h) ∧ r'.phase = r.phase ∧ r'.inflight.map (·.tile) = r.inflight.map (·.tile)
      ∧ u.engine q.eng.val = (s.engine q.eng.val).takePass q x (x.newBank p q tiles (s.passRows p q x tiles))
        (s.passRows p q x tiles)
      ∧ u.mem = s.mem ∧ u.rings = s.rings
      ∧ s.beginPass p q x tiles fixed = if (s.engine q.eng.val).banks.isEmpty then u
        else u.streamLoad q.eng.val q.bank.val (x.newBank p q tiles (s.passRows p q x tiles)) fixed := by
  obtain ⟨v', r', hr', hphase, htiles⟩ := State.runOf_markPass hr q.eng.val (tiles.map (·.1)) q.block q.stitch
  have hbegin : ∃ i n, let rows := s.passRows p q x tiles
      let u := ((s.markPass p q.eng.val (tiles.map (·.1)) q.block q.stitch).count i n).modEngine q.eng.val fun g =>
        g.takePass q x (x.newBank p q tiles rows) rows
      s.beginPass p q x tiles fixed = if (s.engine q.eng.val).banks.isEmpty then u
        else u.streamLoad q.eng.val q.bank.val (x.newBank p q tiles rows) fixed :=
    ⟨_, _, if_neg (by rwa [List.isEmpty_iff])⟩
  obtain ⟨i, n, heq⟩ := hbegin
  dsimp only at heq
  refine ⟨_, v', r', ?_, hphase, htiles, ?_, ?_, ?_, heq⟩
  · exact hr'
  · exact State.modEngine_self ..
  · rfl
  · rfl

/-- What the state after a begun pass with rows holds. -/
theorem State.beginPass_spec {q : PassRef} {tiles : List (TileRef × Nat)} (hr : s.runOf p = some (v, r, h))
    (hx : s.flying p code q.tile = some x) (hcode : code = 1 ∨ code = 2) (hrows : s.passRows p q x tiles ≠ [])
    (fixed : Nat) :
    let t := s.beginPass p q x tiles fixed
    let e := q.eng.val
    ∃ b, tfind (t.engine e).banks q.bank.val = some b ∧ b.pav = p ∧ b.pass = q ∧ b.tiles = tiles ∧ b.stitches = x.stitches
      ∧ b.added = 0 ∧ (t.engine e).nextBank = (if x.tall q.tile = true then 0 else 1 - q.bank.val)
      ∧ ((s.engine e).banks = [] → (t.engine e).stalled = true ∧ b.loads = 0 ∧ b.complete = false
        ∧ (t.engine e).shadow = x.weights x.o.wide q.tile q.block q.stitch 0)
      ∧ ((s.engine e).banks ≠ [] → (t.engine e).stalled = false ∧ b.loads = 1
        ∧ (t.engine e).current = x.weights x.o.wide q.tile q.block q.stitch 0)
      ∧ t.mem = s.mem ∧ t.rings = s.rings := by
  obtain ⟨u, v', r', hr', hphase, htiles, hengine, hmem, hrings, heq⟩ := State.beginPass_eq hr hrows fixed
  dsimp only
  rw [heq]
  generalize s.passRows p q x tiles = rows at hengine ⊢
  by_cases hidle : (s.engine q.eng.val).banks = []
  · rw [if_pos (List.isEmpty_iff.mpr hidle), hengine]
    exact ⟨_, tfind_tset_self .., rfl, rfl, rfl, rfl, rfl, rfl,
      fun _ => ⟨List.isEmpty_iff.mpr hidle, rfl, rfl, rfl⟩, fun hbusy => absurd hidle hbusy, hmem, hrings⟩
  · obtain ⟨y, hy⟩ := Option.isSome_iff_exists.mp
      (State.bankInst_isSome (u := u) (b := x.newBank p q tiles rows) hr hx hcode rfl hr' hphase htiles)
    obtain ⟨f, j, m, j', m', hload, hf⟩ := State.streamLoad_eq (b := x.newBank p q tiles rows) hy q.eng.val q.bank.val fixed
    obtain ⟨hstalled, hcurrent, hnext, hbanks⟩ := hf (u.engine q.eng.val)
    rw [if_neg (by rwa [List.isEmpty_iff]), hload]
    rw [State.count_engine, State.count_engine, State.modEngine_self, hstalled, hcurrent, hnext, hbanks, hengine]
    exact ⟨_, tfind_tset_self .., rfl, rfl, rfl, rfl, rfl, rfl, fun h0 => absurd h0 hidle, fun _ => ⟨rfl, rfl, rfl⟩,
      hmem, hrings⟩

end

end Sys2Proof.Machine
end

section
/-! PROOFS. O43: which passes an engine may take, and operands that cannot be read (R143, R224). -/

namespace Sys2Proof.Machine

/-! ### Words in error (R221, R222, R224) -/

theorem State.quiet_listPage (s : State) (r : RetRec) : (s.listPage r).quiet = s.quiet := by
  unfold State.listPage
  dsimp only
  split
  · split
    · rfl
    · exact State.quiet_postModule ..
  · rfl

theorem State.quiet_corrected (s : State) (a : Nat) : (s.corrected a).quiet = s.quiet := by
  unfold State.corrected
  dsimp only
  split
  · rfl
  · split
    · rfl
    · exact State.quiet_listPage ..

theorem State.quiet_meet (s : State) (errs : MemErrors) (reads : Nat → Bool) : (s.meet errs reads).quiet = s.quiet := by
  refine forEach_keep (g := State.quiet) (fun s e => ?_) _ s
  dsimp only
  split
  · rfl
  · split
    · exact s.quiet_corrected _
    · rfl

theorem State.quiet_meetTiles (s : State) (p : Nat) (ts : List TileRef) (errs : MemErrors) :
    (s.meetTiles p ts errs).quiet = s.quiet := by
  unfold State.meetTiles
  split
  · rfl
  · rfl
  · exact s.quiet_meet ..

theorem State.pavs_memError (s : State) (w kind : Nat) : (s.memError w kind).pavs = s.pavs := by
  have hpost : ∀ (t : State) o code sev place d, (t.postOwner o code sev place d).pavs = t.pavs :=
    fun t o code sev place d => (congrArg State.pavs (t.quiet_postOwner o code sev place d) :)
  have hretire : ∀ (t : State) (a cause : Nat), (t.retirePage a cause).pavs = t.pavs := fun t a cause => by
    unfold State.retirePage
    dsimp only
    split
    · rfl
    · rw [hpost]
      refine (congrArg State.pavs (State.quiet_listPage ..) :).trans ?_
      split <;> rfl
  exact (hpost ..).trans (hretire ..)

/-- An operand that cannot be read ends the run (R224). -/
theorem State.failRunMemory_ends {s : State} {p : Nat} {v : Pav} {r : Run} {h : Handle} (hr : s.runOf p = some (v, r, h))
    (w : Nat) : ∃ u, (s.failRunMemory p w).pav p = some u ∧ u.run = none := by
  have hpavs := s.pavs_memError w 1
  have hr' : (s.memError w 1).runOf p = some (v, r, h) := by
    rw [← hr]
    unfold State.runOf State.pav
    rw [hpavs]
  obtain ⟨hruns, -⟩ := State.runGone_endRun hr' 0x0202 (s.placeOfAddr w * 65536 + 0xFFFF) (some (pack [(8, w)])) 6
  exact State.no_run_of_runs (State.pav_of_runOf hr').1 (State.standing_endRun ..) hruns

/-! ### The engine's choice (R142, R143) -/

/-- A pass of a running program that its engine may take: it has not begun, its engine's core is active, its bank is free,
and its core reaches every operand. -/
structure State.MayTake (s : State) (p : Nat) (q : PassRef) (x : Inst) (v : Pav) (r : Run) (h : Handle) : Prop where
  fresh : ∀ y ∈ r.inflight, y.tile = q.tile → (q.block, q.stitch) ∉ y.passes
  block : q.block < x.blocks q.tile
  stitch : q.stitch < x.stitches
  active : (s.activeCores (r.clustersFor v h x.o)).contains (q.eng.val / 2) = true
  takes : (s.engine q.eng.val).takes q.bank.val (x.tall q.tile) = true
  reach : ∀ t ∈ s.stack v r x q, s.tileReach p (q.eng.val / 2) t.1 = true

/-- An engine takes a pass only when no other is streaming (R143). -/
theorem Engine.no_pass_of_takes {g : Engine} {bank : Nat} {tall : Bool} (h : g.takes bank tall = true) :
    (g.banks.find? fun b => !b.2.complete) = none := by
  simp only [Engine.takes, Bool.and_eq_true, List.all_eq_true] at h
  rw [List.find?_eq_none]
  intro b hb
  simp [h.1.2 b hb]

section
variable {s : State} {p code : Nat} {q : PassRef} {x : Inst} {v : Pav} {r : Run} {h : Handle}
variable (hx : s.flying p code q.tile = some x) (hr : s.runOf p = some (v, r, h))
include hx hr

/-- A pass that may be taken meets the errors of its operands, fetches the sums held elsewhere and begins. -/
theorem State.matrixPass_of_mayTake (hm : s.MayTake p q x v r h) (errs : MemErrors) (fixed : Nat) :
    s.matrixPass p code q errs fixed =
      let u := s.meetTiles p ((s.stack v r x q).map (·.1)) errs
      match (s.stack v r x q).findSome? fun t => u.badTile p t.1 with
      | some w => u.failRunMemory p w
      | none => match u.putSums (q.eng.val / 12) (if q.stitch ≠ 0 then []
          else (u.sumsOf p q.block ((s.stack v r x q).map (·.1))).filter fun y => y.cluster != q.eng.val / 12) with
        | none => u
        | some u => u.beginPass p q x (s.stack v r x q) fixed := by
  obtain ⟨hfresh, hblock, hstitch, hactive, htakes, hreach⟩ := hm
  have hfresh' : (r.inflight.all fun y => y.tile != q.tile || !y.passes.contains (q.block, q.stitch)) = true := by
    rw [List.all_eq_true]
    intro y hy
    by_cases ht : y.tile = q.tile
    · simpa [ht] using hfresh y hy ht
    · simp [ht]
  have hreach' : ((s.stack v r x q).all fun t => s.tileReach p (q.eng.val / 2) t.1) = true := List.all_eq_true.mpr hreach
  have hat : decide (q.block < x.blocks q.tile ∧ q.stitch < x.stitches) = true := decide_eq_true ⟨hblock, hstitch⟩
  unfold State.matrixPass
  rw [hx, hr]
  dsimp only
  rw [Engine.no_pass_of_takes htakes, hfresh', hat, hactive, htakes, hreach']
  rfl

/-- A pass whose operands can be read begins; the sums held come to its cluster first. -/
theorem State.matrixPass_begins (hm : s.MayTake p q x v r h)
    (hhome : q.stitch = 0 → ∀ y ∈ s.sumsOf p q.block ((s.stack v r x q).map (·.1)), y.cluster = q.eng.val / 12)
    (hgood : ∀ t ∈ s.stack v r x q, s.badTile p t.1 = none) (fixed : Nat) :
    s.matrixPass p code q [] fixed = s.beginPass p q x (s.stack v r x q) fixed := by
  have haway : (if q.stitch ≠ 0 then [] else (s.sumsOf p q.block ((s.stack v r x q).map (·.1))).filter
      fun y => y.cluster != q.eng.val / 12) = [] := by
    split
    · rfl
    · next h0 =>
      rw [List.filter_eq_nil_iff]
      intro y hy
      simp [hhome (Classical.not_not.mp h0) y hy]
  have hmeet : s.meetTiles p ((s.stack v r x q).map (·.1)) [] = s := rfl
  rw [State.matrixPass_of_mayTake hx hr hm]
  dsimp only
  rw [hmeet, List.findSome?_eq_none_iff.mpr hgood, haway]
  rfl

/-- An operand of a pass that cannot be read ends the run. -/
theorem State.matrixPass_fails (hm : s.MayTake p q x v r h) {errs : MemErrors} {w : Nat}
    (hbad : ((s.stack v r x q).findSome? fun t => (s.meetTiles p ((s.stack v r x q).map (·.1)) errs).badTile p t.1) = some w)
    (fixed : Nat) : ∃ u, (s.matrixPass p code q errs fixed).pav p = some u ∧ u.run = none := by
  have hr' : (s.meetTiles p ((s.stack v r x q).map (·.1)) errs).runOf p = some (v, r, h) :=
    (congrArg (fun s : State => s.runOf p) (s.quiet_meetTiles p ((s.stack v r x q).map (·.1)) errs) :).trans hr
  rw [State.matrixPass_of_mayTake hx hr hm]
  dsimp only
  rw [hbad]
  exact State.failRunMemory_ends hr' w

/-! ### Passes that go on (R130, R131) -/

variable {k : Nat} {b : Bank} (hb : ((s.engine q.eng.val).banks.find? fun b => !b.2.complete) = some (k, b))
variable (hpav : b.pav = p) (hpass : b.pass = q) (hgo : (s.engine q.eng.val).stalled = false)
include hb hpav hpass hgo

/-- A further loading stalls while its shadow loading is not finished. -/
theorem State.matrixPass_stalls (hload : (s.engine q.eng.val).shadowReady = false) (fixed : Nat) :
    s.matrixPass p code q [] fixed = s.modEngine q.eng.val fun g => { g with stalled := true } := by
  unfold State.matrixPass
  rw [hx, hr]
  dsimp only
  rw [hb]
  simp [hpav, hpass, hgo, hload]

/-- A further loading whose shadow loading is finished streams. -/
theorem State.matrixPass_streams (hload : (s.engine q.eng.val).shadowReady = true)
    (hgood : ∀ t ∈ b.tiles, s.badTile p t.1 = none) (fixed : Nat) :
    s.matrixPass p code q [] fixed = s.streamLoad q.eng.val k b fixed := by
  have hmeet : s.meetTiles p (b.tiles.map (·.1)) [] = s := rfl
  unfold State.matrixPass
  rw [hx, hr]
  dsimp only
  rw [hb]
  simp [hpav, hpass, hgo, hload, hmeet, List.findSome?_eq_none_iff.mpr hgood]

end

/-- SHADOW_LOAD_DONE lets a stalled row stream, and else readies the next loading (R130). -/
theorem shadowLoadDone_eq {s : State} {e : Fin 384} {k : Nat} {b : Bank}
    (hb : ((s.engine e.val).banks.find? fun b => !b.2.complete) = some (k, b)) :
    exec (.shadowLoadDone e) s = .next (if (s.engine e.val).stalled then s.streamLoad e.val k b 0
      else s.modEngine e.val fun g => { g with shadowReady := true }) := by
  simp only [exec, execShadowLoadDone, hb]
  split <;> rfl

end Sys2Proof.Machine
end

section
/-! PROOFS. O43: drains and the stitch adder (R143, R146, R147, R188, R189, R197). -/

namespace Sys2Proof.Machine

/-! ### The stitch buffer (R188, R197) -/

/-- What a new sum leaves in the stitch buffers: it takes the place of its copies. -/
theorem State.putSum_stitches {s u : State} {c : Nat} {y : StitchSum} (h : s.putSum c y = some u) :
    ∃ k, u.stitches = s.stitches.filter (fun x => !x.same y) ++ [{ y with cluster := c, slot := k }] := by
  obtain ⟨k, -, rfl⟩ := Option.map_eq_some_iff.mp h
  exact ⟨k, (congrArg (fun a => a.2.2) (State.arrays_renew ..) :)⟩

/-- A held sum that no new one copies stays. -/
theorem State.putSums_keeps {c : Nat} {z : StitchSum} {l : List StitchSum} {s u : State} (h : s.putSums c l = some u)
    (hz : z ∈ s.stitches) (hnew : ∀ y ∈ l, z.same y = false) : z ∈ u.stitches := by
  induction l generalizing s with
  | nil => exact Option.some.inj h ▸ hz
  | cons y l ih =>
    obtain ⟨t, ht, hu⟩ := Option.bind_eq_some_iff.mp h
    obtain ⟨k, hk⟩ := State.putSum_stitches ht
    refine ih hu ?_ fun y' hy' => hnew y' (List.mem_cons_of_mem y hy')
    rw [hk]
    exact List.mem_append_left _ (List.mem_filter.mpr ⟨hz, by rw [hnew y List.mem_cons_self]; rfl⟩)

/-- Sums of different tiles are all held in the cluster's stitch buffer. -/
theorem State.putSums_holds {c : Nat} {l : List StitchSum} {s u : State} (h : s.putSums c l = some u)
    (hl : l.Pairwise fun x y => x.tile ≠ y.tile) : ∀ y ∈ l, ∃ z ∈ u.stitches, z.same y = true ∧ z.rows = y.rows ∧ z.cluster = c := by
  induction l generalizing s with
  | nil => simp
  | cons y l ih =>
    obtain ⟨t, ht, hu⟩ := Option.bind_eq_some_iff.mp h
    obtain ⟨hy, hl⟩ := List.pairwise_cons.mp hl
    intro y' hy'
    rcases List.mem_cons.mp hy' with rfl | hy'
    · obtain ⟨k, hk⟩ := State.putSum_stitches ht
      refine ⟨{ y' with cluster := c, slot := k }, State.putSums_keeps hu ?_ fun x hx => ?_, ?_, rfl, rfl⟩
      · rw [hk]; exact List.mem_append_right _ (List.mem_singleton.mpr rfl)
      · simp [StitchSum.same, hy x hx]
      · simp [StitchSum.same]
    · exact ih hu hl y' hy'

/-! ### Drains (R143, R146, R147) -/

/-- The sums that a raw drain hands over: one for each tile with rows. -/
def State.rawSums (s : State) (e : Nat) (b : Bank) : List StitchSum :=
  b.tiles.filterMap fun t =>
    let rows := s.tileSums e b t
    if rows.isEmpty then none
    else some ({ pav := b.pav, tile := t.1, block := b.pass.block, stitch := b.pass.stitch, rows := rows } : StitchSum)

/-- The raw sums of different tiles are of different tiles. -/
theorem State.rawSums_tiles {b : Bank} (h : (b.tiles.map (·.1)).Nodup) (s : State) (e : Nat) :
    (s.rawSums e b).Pairwise fun x y => x.tile ≠ y.tile := by
  have htile : ∀ {t : TileRef × Nat} {y : StitchSum}, (if (s.tileSums e b t).isEmpty then none
      else some ({ pav := b.pav, tile := t.1, block := b.pass.block, stitch := b.pass.stitch
                   rows := s.tileSums e b t } : StitchSum)) = some y → y.tile = t.1 := fun hy => by
    split at hy
    · cases hy
    · exact Option.some.inj hy ▸ rfl
  refine List.Pairwise.filterMap _ (fun t t' hne y hy y' hy' => ?_) (List.pairwise_map.mp h)
  rw [htile hy, htile hy']
  exact hne

theorem State.dropBank_find (s : State) (e k : Nat) : tfind ((s.dropBank e k).engine e).banks k = none := by
  rw [State.dropBank, State.modEngine_self]
  exact tfind_tdel_self ..

section
variable {s : State} {e : Fin 384} {k : Fin 2} {b : Bank}
variable (hb : tfind (s.engine e.val).banks k.val = some b) (hdone : b.complete = true)
include hb hdone

/-- A raw drain hands its sums over once they have room. -/
theorem bankDrain_raw (hst : b.pass.stitch ≠ 0) : exec (.bankDrain e k) s = .next
    (match s.putSums (s.closingCluster b.pav b.pass.block b.pass.tile (e.val / 12)) (s.rawSums e.val b) with
      | none => s
      | some t => t.dropBank e.val k.val) := by
  simp only [exec, execBankDrain, hb, hdone, State.rawDrain]
  exact (if_neg (by decide)).trans (if_pos hst)

/-- The final drain empties the bank and drains its tiles in turn. -/
theorem bankDrain_final (hst : b.pass.stitch = 0) (hadded : b.stitches ≤ b.added + 1) : exec (.bankDrain e k) s = .next
    (forEach (b.tiles.map fun t => (t, s.tileSums e.val b t)) (fun s x => s.drainTile e.val b x.1 x.2)
      (s.dropBank e.val k.val)) := by
  simp only [exec, execBankDrain, hb, hdone]
  exact (if_neg (by decide)).trans ((if_neg fun h => h hst).trans (if_neg (Nat.not_lt.mpr hadded)))

end

theorem State.sheds_noteNan (s : State) (p : Nat) (t : TileRef) (place : Nat) (loc : Nat → Nat → Nat) (ws : List Written) :
    s.sheds (s.noteNan p t place loc ws) := by
  unfold State.noteNan
  split
  · exact s.sheds_refl
  · exact s.sheds_modRun ..

theorem State.sheds_blockDrained (s : State) (p core place block : Nat) (x : Inst) (t : TileRef) :
    s.sheds (s.blockDrained p core place block x t) := by
  unfold State.blockDrained
  extract_lets s₁
  have h₁ : s.sheds s₁ := s.sheds_modRun ..
  split
  · exact h₁.trans (s₁.sheds_finishTile ..)
  · exact h₁.trans (s₁.sheds_nanStops ..)

/-- The state in which the sums of a tile's column block are released. -/
def State.release (s : State) (p block : Nat) (t : TileRef) : State :=
  let held := s.sumsOf p block [t]
  { s with stitches := s.stitches.filter fun y => !held.contains y }

theorem State.sheds_release (s : State) (p block : Nat) (t : TileRef) : s.sheds (s.release p block t) :=
  ⟨rfl, fun _ hz => (List.mem_filter.mp hz).1, fun _ _ h => h⟩

theorem State.release_gone (s : State) (p block : Nat) (t : TileRef) :
    ∀ z ∈ (s.release p block t).stitches, ¬(z.pav = p ∧ z.tile = t ∧ z.block = block) := by
  rintro z hz ⟨hp, ht, hblock⟩
  obtain ⟨hheld, hnot⟩ := List.mem_filter.mp hz
  simp [State.sumsOf, hheld, hp, ht, hblock] at hnot

section
variable {s : State} {b : Bank} {t : TileRef × Nat}

/-- The drain of a tile gives up its sums, and nothing comes instead. -/
theorem State.drainTile_releases {x : Inst} (hx : s.bankInst b t.1 = some x) (e : Nat) (rows : Tbl (List Nat)) :
    ∃ u, s.sheds u ∧ (u.release b.pav b.pass.block t.1).sheds (s.drainTile e b t rows) := by
  unfold State.drainTile
  rw [hx]
  dsimp only
  have hwrite := s.arrays_writeTile b.pav x.hd x.h x.o.out t.1 (x.drain t.1 b.pass.block rows)
  generalize s.writeTile b.pav x.hd x.h x.o.out t.1 (x.drain t.1 b.pass.block rows) = w at hwrite ⊢
  exact ⟨w.1, State.sheds_of_arrays hwrite, (State.sheds_noteNan ..).trans (State.sheds_blockDrained ..)⟩

theorem State.sheds_drainTile (e : Nat) (rows : Tbl (List Nat)) : s.sheds (s.drainTile e b t rows) := by
  cases hx : s.bankInst b t.1 with
  | none => rw [State.drainTile, hx]; exact s.sheds_refl
  | some x =>
    obtain ⟨u, hu, hdrained⟩ := State.drainTile_releases hx e rows
    exact (hu.trans (u.sheds_release ..)).trans hdrained

/-- A drained tile holds no sum of the column block. -/
theorem State.drainTile_gone {x : Inst} (hx : s.bankInst b t.1 = some x) (e : Nat) (rows : Tbl (List Nat)) :
    ∀ z ∈ (s.drainTile e b t rows).stitches, ¬(z.pav = b.pav ∧ z.tile = t.1 ∧ z.block = b.pass.block) := by
  obtain ⟨u, -, hdrained⟩ := State.drainTile_releases hx e rows
  exact fun z hz => u.release_gone b.pav b.pass.block t.1 z (hdrained.stitches z hz)

end

/-- Whether a pass stacks a tile depends on the runs alone. -/
theorem State.bankInst_dropBank {s : State} {b : Bank} {t : TileRef} {x : Inst} (e k : Nat) (hx : s.bankInst b t = some x) :
    ∃ y, (s.dropBank e k).bankInst b t = some y := by
  have hfly : ∀ {code : Nat}, code = 1 ∨ code = 2 → s.flying b.pav code t = some x →
      ∃ y, (s.dropBank e k).bankInst b t = some y := fun {code} hcode h => by
    obtain ⟨v, r, g, hr⟩ := State.runOf_of_flying h
    exact Option.isSome_iff_exists.mp (State.bankInst_isSome (u := s.dropBank e k) hr h hcode rfl hr rfl rfl)
  unfold State.bankInst at hx
  split at hx
  · next y hy => exact hfly (.inl rfl) (Option.some.inj hx ▸ hy)
  · exact hfly (.inr rfl) hx

/-! ### The stitch adder (R188, R189, R197) -/

theorem State.modRun_cluster (s : State) (p : Nat) (f : Run → Run) (c : Nat) : (s.modRun p f).cluster c = s.cluster c := rfl

/-- A complete bank of stitch 0 with sums still to add meets the guard of STITCH_ADD. -/
theorem stitchAdd_guard {b : Bank} (hdone : b.complete = true) (hst : b.pass.stitch = 0)
    (hmore : b.added + 1 < b.stitches) :
    (!b.complete || b.pass.stitch != 0 || decide (b.stitches ≤ b.added + 1)) = false := by
  rw [hdone, hst, decide_eq_false (Nat.not_le.mpr hmore)]
  rfl

section
variable {s : State} {e : Fin 384} {k : Fin 2} {b : Bank}
variable (hb : tfind (s.engine e.val).banks k.val = some b) (hdone : b.complete = true) (hst : b.pass.stitch = 0)
include hb hdone hst

/-- Without its sums the stitch adder waits. -/
theorem stitchAdd_waits (hnone : s.nextSums e.val b = none) : exec (.stitchAdd e k) s = .next s := by
  simp [exec, execStitchAdd, hb, hdone, hst, hnone]

variable {sums : List (TileRef × Nat × StitchSum)} (hmore : b.added + 1 < b.stitches)
variable (hsums : s.nextSums e.val b = some sums)
include hmore hsums

/-- Sums that can be read are added row by row. -/
theorem stitchAdd_adds (hgood : ∀ y ∈ sums, s.badRead y.2.2.addr y.2.2.bytes = none) :
    exec (.stitchAdd e k) s = .next (s.modEngine e.val fun g => { g with
      entries := (sums.flatMap fun y =>
        (addRows (s.tileSums e.val b (y.1, y.2.1)) y.2.2.rows).map fun r => (y.2.1 + r.1, r.2)).foldl
          (fun m y => tset m y.1 y.2) g.entries
      banks := tset g.banks k.val { b with added := b.added + 1 } }) := by
  have hnone : (sums.findSome? fun y => (s.badRead y.2.2.addr y.2.2.bytes).map fun w => (y.2.2, w)) = none :=
    List.findSome?_eq_none_iff.mpr fun y hy => by rw [hgood y hy]; rfl
  simp only [exec, execStitchAdd, hb, stitchAdd_guard hdone hst hmore, hsums, hnone]
  exact if_neg Bool.false_ne_true

/-- The first sum that cannot be read goes, once in 1 s. -/
theorem stitchAdd_loses {y : StitchSum} {w : Nat}
    (hbad : (sums.findSome? fun y => (s.badRead y.2.2.addr y.2.2.bytes).map fun w => (y.2.2, w)) = some (y, w))
    (hfirst : ∀ t, (s.cluster y.cluster).stitchBad = some t → t + 1000000000 ≤ s.clock) :
    ∃ t, exec (.stitchAdd e k) s = .next t ∧ y ∉ t.stitches ∧ (t.cluster y.cluster).stitchBad = some s.clock
      ∧ t.mem = s.mem := by
  simp only [exec, execStitchAdd, hb, stitchAdd_guard hdone hst hmore, hsums, hbad, no_recent_error hfirst]
  refine ⟨_, (if_neg Bool.false_ne_true).trans (if_neg Bool.false_ne_true), fun hy => ?_, ?_, rfl⟩
  · exact absurd rfl (bne_iff_ne.mp (List.mem_filter.mp hy).2)
  · rw [State.modRun_cluster, State.modCluster_self]
    rfl

end

end Sys2Proof.Machine

open Sys2Proof Sys2Proof.Machine

/-! ### O43 -/

/-- Settles O43: each command of an engine is one equation of `exec`; what the ends of tiles and runs give up with a drain or
an error is read back. -/
theorem matrixEnginesRunPasses : Obligations.MatrixEnginesRunPasses := by
  intro s
  refine ⟨fun p q cmd code x v r h hcmd hx hr => ?_, fun e k fixed b x hx => State.streamLoad_spec hx e k fixed,
    fun e k b hb => ?_, fun e k b hb hdone => ⟨fun hst => ?_, fun hst hadded => ?_⟩,
    fun e k b hb hdone hst hmore => ?_, fun e k b hb => ?_⟩
  · have hcode : code = 1 ∨ code = 2 := hcmd.imp And.right And.right
    have hexec : ∀ errs fixed, exec (cmd errs fixed) s = .next (s.matrixPass p.val code q errs fixed) := by
      intro errs fixed
      rcases hcmd with ⟨rfl, rfl⟩ | ⟨rfl, rfl⟩ <;> rfl
    have hfull : s.passRows p.val q x (s.stack v r x q) ≠ [] ↔ _ := State.passRows_ne_nil
    rw [State.flying_code hx] at hfull
    intro e k tiles full
    refine ⟨fun fixed hfresh hblock hstitch hactive htakes hreach hhome => ?_, fun k b fixed hb hpav hpass hgo => ?_⟩
    · have hm : s.MayTake p.val q x v r h := ⟨hfresh, hblock, hstitch, hactive, htakes, hreach⟩
      refine ⟨fun hgood hrows => ?_, fun hgood hrows hst => ?_, fun errs w hbad => ?_⟩
      · obtain ⟨b, hspec⟩ := State.beginPass_spec hr hx hcode (hfull.mpr hrows) fixed
        exact ⟨_, b, (hexec ..).trans (congrArg _ (State.matrixPass_begins hx hr hm hhome hgood fixed)), hspec⟩
      · exact ⟨_, (hexec ..).trans (congrArg _ (State.matrixPass_begins hx hr hm hhome hgood fixed)),
          State.beginPass_skipped (Classical.not_not.mp fun hne => hrows (hfull.mp hne)) hst fixed⟩
      · obtain ⟨u, hu⟩ := State.matrixPass_fails hx hr hm hbad fixed
        exact ⟨_, u, hexec .., hu⟩
    · exact ⟨fun hload => (hexec ..).trans (congrArg _ (State.matrixPass_stalls hx hr hb hpav hpass hgo hload fixed)),
        fun hload hgood =>
          (hexec ..).trans (congrArg _ (State.matrixPass_streams hx hr hb hpav hpass hgo hload hgood fixed))⟩
  · rw [shadowLoadDone_eq hb]
    exact ⟨fun hstall => by rw [if_pos hstall], fun hstall => by rw [hstall]; rfl⟩
  · rw [bankDrain_raw hb hdone hst]
    refine ⟨fun hnone => ?_, fun u hu => ⟨?_, u.dropBank_find .., fun hnodup => ?_⟩⟩
    · rw [State.rawSums, hnone]
    · rw [State.rawSums, hu]
    · exact State.putSums_holds hu (State.rawSums_tiles hnodup s e.val)
  · have hsheds := State.sheds_forEach (f := fun s (y : (TileRef × Nat) × Tbl (List Nat)) => s.drainTile e.val b y.1 y.2)
      fun s y => State.sheds_drainTile e.val y.2
    refine ⟨_, bankDrain_final hb hdone hst hadded, (hsheds _ _).banks _ _ (s.dropBank_find ..), fun y x hone hx => ?_⟩
    obtain ⟨z, hz⟩ := State.bankInst_dropBank e.val k.val hx
    rw [hone]
    exact State.drainTile_gone hz e.val _
  · exact ⟨stitchAdd_waits hb hdone hst, fun sums hsums => ⟨stitchAdd_adds hb hdone hst hmore hsums,
      fun y w hbad hfirst => stitchAdd_loses hb hdone hst hmore hsums hbad hfirst⟩⟩
  · exact ⟨accUncorrectable_first hb, fun a => accUncorrectable_second hb⟩
end

section
/-! PROOFS. O44: tiles of the vector engines and of the movers (R199, R203, R208, R211, R224, R225, R234, R243). -/

namespace Sys2Proof.Machine

/-! ### What a vector tile writes (R174, R208) -/

/-- Whether a tile is the last of its instance, which writes dγ and dβ too (R208). -/
def State.lastOfInst (s : State) (p : Nat) (x : Inst) (t : TileRef) : Bool :=
  (x.img.instTiles x.o t.op t.slice).all fun u => u == t || (s.runOf p).any fun y => y.2.1.done.contains u

/-- The elements of dγ or dβ that are written: those of tensor 0 are not. -/
def sumsWritten (i : Nat) (els : List Elem) : Nat := if i = 0 then 0 else els.length

/-- The counters of a vector engine with a tile of `n` elements. -/
def State.countVector (s : State) (place n : Nat) (work : Nat × Nat) : State :=
  ((s.count (ctrId place 2 1) n).count (ctrId place 2 2) work.1).count (ctrId place 2 3) work.2

@[simp] theorem sumsWritten_nil (i : Nat) : sumsWritten i [] = 0 := by
  simp [sumsWritten]

/-- Results without a NaN leave no record with their tile (R174). -/
theorem State.noteNan_of_no_nan {ws : List Written} (hnan : firstNan ws = none) (s : State) (p : Nat) (t : TileRef)
    (place : Nat) (loc : Nat → Nat → Nat) : s.noteNan p t place loc ws = s := by
  rw [State.noteNan, hnan]

theorem cdiv_zero_left (w : Nat) : cdiv 0 w = 0 := by
  rw [cdiv, Nat.zero_add]
  cases w with
  | zero => rfl
  | succ n => exact Nat.div_eq_of_lt n.lt_succ_self

/-- No sums, nothing written. -/
theorem State.writeSums_nil (s : State) (p place : Nat) (t : TileRef) (i : Nat) :
    s.writeSums p place t i [] = (s, []) := by
  unfold State.writeSums
  split
  · rfl
  · dsimp only
    rw [List.length_nil, cdiv_zero_left, ite_self]
    rfl

/-! ### Tiles that compute (R199 to R211) -/

section
variable {s : State} {p : Nat} {t : TileRef} {x : Inst}

section
variable {code : Nat} (hx : s.flying p code t = some x) (hreach : s.tileReach p (s.homeCore p t) t = true)
  (hgood : s.badTile p t = none)
include hx hreach hgood

/-- A tile whose operands can be reached and read, and whose results hold no NaN: counted, stored with its sums, and
finished. -/
theorem State.vectorTile_stores {sums : List Elem × List Elem}
    (hsums : (if code == 0x19 && s.lastOfInst p x t then x.normSums else ([], [])) = sums)
    {s1 s2 s3 : State} {ws : List Written} {m2 m3 : List TrapInfo}
    (hw : (s.countVector (placeCore (s.homeCore p t) 2) ((x.tile t).length + sumsWritten x.o.out2 sums.1
      + sumsWritten x.o.out3 sums.2) (x.workOf t)).writeTile p x.hd x.h x.o.out t (x.tile t) = (s1, ws))
    (hnan : firstNan ws = none)
    (h2 : s1.writeSums p (placeCore (s.homeCore p t) 2) t x.o.out2 sums.1 = (s2, m2))
    (h3 : s2.writeSums p (placeCore (s.homeCore p t) 2) t x.o.out3 sums.2 = (s3, m3)) :
    s.vectorTile p code t = s3.finishTile p t (s.homeCore p t) (placeCore (s.homeCore p t) 2) (m2 ++ m3) := by
  subst hsums
  unfold State.countVector sumsWritten State.lastOfInst at hw
  unfold State.lastOfInst at h2 h3
  unfold State.vectorTile
  rw [hx]
  dsimp only
  rw [hreach, hgood]
  dsimp only
  rw [hw]
  dsimp only
  rw [State.noteNan_of_no_nan hnan, h2]
  dsimp only
  rw [h3]
  rfl

/-- A tile that is not the last of a NORM_BWD instance has no sums to write. -/
theorem State.vectorTile_finishes (hlast : code = 0x19 → s.lastOfInst p x t = false) {s1 : State} {ws : List Written}
    (hw : (s.countVector (placeCore (s.homeCore p t) 2) (x.tile t).length (x.workOf t)).writeTile
      p x.hd x.h x.o.out t (x.tile t) = (s1, ws)) (hnan : firstNan ws = none) :
    s.vectorTile p code t = s1.finishTile p t (s.homeCore p t) (placeCore (s.homeCore p t) 2) := by
  have hnot : ¬ (code == 0x19 && s.lastOfInst p x t) = true := by
    rw [Bool.and_eq_true, beq_iff_eq]
    rintro ⟨hcode, hl⟩
    rw [hlast hcode] at hl
    cases hl
  exact State.vectorTile_stores hx hreach hgood (if_neg hnot) (by simpa using hw) hnan (s1.writeSums_nil ..)
    (s1.writeSums_nil ..)

end

/-! ### Tiles that movers copy (R224, R234, R243) -/

/-- The errors that a read meets leave the run (R221, R222, R224). -/
theorem State.runOf_meet (s : State) (errs : MemErrors) (reads : Nat → Bool) (p : Nat) :
    (s.meet errs reads).runOf p = s.runOf p :=
  (congrArg (fun s : State => s.runOf p) (s.quiet_meet errs reads) :)

section
variable {p : Fin 8}

/-- A gather copies its windows bit for bit (R234, R243). -/
theorem execWindowGather_copies (hx : s.flying p.val 0x20 t = some x)
    (hreach : s.tileReach p.val (s.homeCore p.val t) t = true) (hgood : s.badTile p.val t = none) :
    execWindowGather p t s = .next ((forEach (x.windowCodes t) (fun s e =>
      s.putCode p.val x.hd x.h x.o.out t.slice (x.img.tileCoord x.o.out t e.1 e.2.1) e.2.2) s).moverTile p.val 3 t
        (x.windowReads t * formatBits (x.img.tensor x.o.a).format / 8) (x.tileBytes x.o.out t)) := by
  unfold execWindowGather
  rw [hx]
  dsimp only
  rw [hreach, hgood]
  rfl

/-- The copy of a tile of tensor i that an OFFLOAD keeps (log 48). -/
def Inst.offHit (x : Inst) (i : Nat) (t : TileRef) (y : OffTile) : Bool := y.is x.hd i ((x.img.tensor i).key t.slice) t

/-- LPDDR5X for an offloaded tile, once an older copy is released (R243). -/
def State.offRoom (s : State) (p : Nat) (x : Inst) (t : TileRef) : Option (State × List (Nat × Nat)) :=
  (s.modPav p fun v => v.dropOff (x.offHit x.o.a t)).offRanges p (x.tileBytes x.o.a t)

/-- The bytes of an offloaded tile in its ranges. -/
def State.putOffloaded (s : State) (x : Inst) (t : TileRef) (rs : List (Nat × Nat)) : State :=
  (forEach rs (fun (a : State × List Byte) r => (a.1.writeMem r.1 (a.2.take r.2), a.2.drop r.2))
    (s, x.tileImage x.o.a t)).1.renew rs

/-- Whether every other tile of an offload is done, so that the faster storage is released. -/
def State.lastOffloaded (s : State) (p : Nat) (x : Inst) (t : TileRef) : Bool :=
  s.pavs.any fun e => e.1 == p && e.2.run.any fun r =>
    (x.img.opTiles t.op (s.heldSlices e.2 x.img)).all fun u => u == t || r.done.contains u

/-- A pavilion with an offloaded tile in `rs`, without the tensor's faster storage after the last one. -/
def Pav.withOffloaded (v : Pav) (x : Inst) (t : TileRef) (rs : List (Nat × Nat)) (last : Bool) : Pav :=
  { v with
    offTiles := v.offTiles ++ [{ handle := x.hd, tensor := x.o.a, slice := (x.img.tensor x.o.a).key t.slice, d3 := t.d3
                                 d2 := t.d2, row := t.row, col := t.col, ranges := rs }]
    data := if last = true then v.data.filter fun d => !(d.handle == x.hd && d.tensor == x.o.a) else v.data }

section
variable (hx : s.flying p.val 0x38 t = some x) (hreach : s.tileReach p.val (s.homeCore p.val t) t = true)
  (hgood : s.badTile p.val t = none)
include hx hreach hgood

/-- An offload waits while there is no room (R243). -/
theorem execOffloadOp_waits (hroom : s.offRoom p.val x t = none) : execOffloadOp p t s = .next s := by
  unfold State.offRoom Inst.offHit at hroom
  unfold execOffloadOp
  rw [hx]
  dsimp only
  rw [hreach, hgood]
  dsimp only
  rw [hroom]
  rfl

/-- An offload puts the bytes of its tile where there is room, and finishes it (R243). -/
theorem execOffloadOp_stores {s1 : State} {rs : List (Nat × Nat)} (hroom : s.offRoom p.val x t = some (s1, rs)) :
    execOffloadOp p t s = .next (((s1.putOffloaded x t rs).modPav p.val fun v =>
      v.withOffloaded x t rs ((s1.putOffloaded x t rs).lastOffloaded p.val x t)).moverTile p.val 4 t
        (x.tileBytes x.o.a t) (x.tileBytes x.o.a t)) := by
  unfold State.offRoom Inst.offHit at hroom
  unfold execOffloadOp
  rw [hx]
  dsimp only
  rw [hreach, hgood]
  dsimp only
  rw [hroom]
  rfl

end

/-- The tile of a restore with the codes that its bytes in LPDDR5X hold, which are released (R243). -/
def State.putRestored (s : State) (p : Nat) (x : Inst) (t : TileRef) (off : OffTile) : State :=
  (forEach (List.range (x.img.tileSize x.o.out t).1) (fun u r =>
    forEach (List.range (x.img.tileSize x.o.out t).2) (fun u c =>
      u.putCode p x.hd x.h x.o.out t.slice (x.img.tileCoord x.o.out t r c)
        (x.imageCode x.o.out (x.img.tileSize x.o.out t).2 r c (off.ranges.flatMap fun y => s.readMem y.1 y.2))) u) s).modPav
          p fun v => v.dropOff (x.offHit x.o.out t)

/-- The code words that the ranges of an offloaded tile meet. -/
def OffTile.touches (off : OffTile) (w : Nat) : Bool := off.ranges.any fun r => overlaps w (codeWord w) r.1 r.2

/-- The first word of an offloaded tile that cannot be read (R224). -/
def State.badOffloaded (s : State) (off : OffTile) : Option Nat := off.ranges.findSome? fun r => s.badRead r.1 r.2

section
variable (hx : s.flying p.val 0x39 t = some x)
include hx

/-- A tile that is not offloaded is where it was (R243). -/
theorem execRestoreOp_absent (hoff : x.v.offTiles.find? (x.offHit x.o.out t) = none) (errs : MemErrors) :
    execRestoreOp p ⟨t, errs⟩ s = .next (s.moverTile p.val 5 t (x.tileBytes x.o.out t) (x.tileBytes x.o.out t)) := by
  unfold Inst.offHit at hoff
  unfold execRestoreOp
  dsimp only
  rw [hx]
  dsimp only
  rw [hoff]

variable {off : OffTile} (hoff : x.v.offTiles.find? (x.offHit x.o.out t) = some off) {errs : MemErrors}
include hoff

/-- A restore whose words can all be read writes its tile and finishes it (R243). -/
theorem execRestoreOp_restores (hgood : (s.meet errs off.touches).badOffloaded off = none) :
    execRestoreOp p ⟨t, errs⟩ s = .next (((s.meet errs off.touches).putRestored p.val x t off).moverTile p.val 5 t
      (x.tileBytes x.o.out t) (x.tileBytes x.o.out t)) := by
  unfold Inst.offHit at hoff
  unfold State.badOffloaded OffTile.touches at hgood
  unfold execRestoreOp
  dsimp only
  rw [hx]
  dsimp only
  rw [hoff]
  dsimp only
  rw [hgood]
  rfl

/-- A word of an offloaded tile that cannot be read ends the run (R224). -/
theorem execRestoreOp_fails {w : Nat} (hbad : (s.meet errs off.touches).badOffloaded off = some w) :
    ∃ u v, execRestoreOp p ⟨t, errs⟩ s = .next u ∧ u.pav p.val = some v ∧ v.run = none := by
  obtain ⟨v, r, h, hr⟩ := State.runOf_of_flying hx
  obtain ⟨v', hend⟩ := State.failRunMemory_ends ((s.runOf_meet errs off.touches p.val).trans hr) w
  refine ⟨_, v', ?_, hend⟩
  unfold Inst.offHit at hoff
  unfold State.badOffloaded OffTile.touches at hbad
  unfold execRestoreOp
  dsimp only
  rw [hx]
  dsimp only
  rw [hoff]
  dsimp only
  rw [hbad]
  rfl

end

end

end

end Sys2Proof.Machine

open Sys2Proof Sys2Proof.Machine

/-! ### O44 -/

/-- Settles O44: the tiles of the seven vector operations are one function of the code, and each command of a mover is one
equation per branch. -/
theorem vectorAndMoverTilesFinish : Obligations.VectorAndMoverTilesFinish := by
  intro p t s x core place lasts counted hreach
  refine ⟨fun i code hi hx hgood hlast s1 ws hw hnan => ?_, fun hx hgood hlast => ?_,
    fun hx hgood => execWindowGather_copies hx hreach hgood,
    fun hx hgood => ⟨fun hroom => execOffloadOp_waits hx hreach hgood hroom,
      fun s1 rs hroom => execOffloadOp_stores hx hreach hgood hroom⟩,
    fun hx => ⟨fun hoff errs => execRestoreOp_absent hx hoff errs, fun off hoff =>
      ⟨fun hread => execRestoreOp_restores hx hoff (errs := []) (List.findSome?_eq_none_iff.mpr hread),
        fun errs w hbad => execRestoreOp_fails hx hoff hbad⟩⟩⟩
  · have hexec : exec i s = .next (s.vectorTile p.val code t) := by
      simp only [List.mem_cons, Prod.mk.injEq, List.not_mem_nil, or_false] at hi
      rcases hi with ⟨rfl, rfl⟩ | ⟨rfl, rfl⟩ | ⟨rfl, rfl⟩ | ⟨rfl, rfl⟩ | ⟨rfl, rfl⟩ | ⟨rfl, rfl⟩ | ⟨rfl, rfl⟩ <;> rfl
    exact hexec.trans (congrArg _ (State.vectorTile_finishes hx hreach hgood hlast hw hnan))
  · intro size s1 ws s2 m2 s3 m3 hw hnan h2 h3
    exact congrArg Host.Outcome.next (State.vectorTile_stores hx hreach hgood (if_pos hlast) hw hnan h2 h3)
end

section
/-! PROOFS. O49: what a sent message leaves (R353), and collectives that end with their run (R361). -/

namespace Sys2Proof.Machine

/-! ### Sending (R353) -/

/-- The state but for what waits at the ports, what has left them and the counters. -/
def State.offLinks (s : State) : State := { s with links := [], out := [], ctrs := [] }

section
variable (s : State)

theorem State.offLinks_serveLink (l fuel : Nat) : (s.serveLink l fuel).offLinks = s.offLinks := by
  induction fuel generalizing s with
  | zero => rfl
  | succ fuel ih =>
    rw [State.serveLink]
    dsimp only
    split
    · rfl
    · next i w _ =>
      split
      · rfl
      · rw [ih]
        split
        · cases w.counts <;> rfl
        · rfl

theorem State.offLinks_queueFor (l : Nat) (w : Waiting) : (s.queueFor l w).offLinks = s.offLinks := by
  unfold State.queueFor State.flushLink
  dsimp only
  split
  · rfl
  · exact (State.offLinks_serveLink ..).trans rfl

/-- A message waits at a port, leaves through it or is counted: nothing else changes. -/
theorem State.offLinks_trySend (p dest bytes t : Nat) (e : Emission) :
    (s.trySend p dest bytes t e).offLinks = s.offLinks := by
  unfold State.trySend
  split
  · dsimp only
    split
    · rfl
    · split
      · rfl
      · split
        · rfl
        · split
          · rfl
          · exact s.offLinks_queueFor ..
  · rfl

theorem State.pav_of_offLinks {s t : State} (h : t.offLinks = s.offLinks) (p : Nat) : t.pav p = s.pav p :=
  (congrArg (fun u : State => u.pav p) h :)

end

/-! ### Collectives that end (R361) -/

/-- An ended collective is gone from its pavilion, with the messages held for it. -/
theorem State.endColl_pav {s : State} {p : Nat} {v : Pav} (hv : s.pav p = some v) (op cause peer : Nat) :
    (s.endColl p op cause peer).pav p = some { v with
      colls := v.colls.filter (fun c => c.op != op), held := v.held.filter fun m => m.2.opIndex != op } := by
  unfold State.endColl
  split
  · next hn => rw [hv] at hn; cases hn
  · next w hw =>
    extract_lets own s₁ s₂ s₃
    have h₁ : s₁.pav p = s.pav p := by
      unfold s₁
      split
      · rfl
      · exact forEach_keep (g := fun s : State => s.pav p) (fun s x =>
          State.pav_of_offLinks (s.offLinks_trySend ..) p) _ s
    refine (congrArg (fun u : State => u.pav p) (s₃.quiet_postPav ..) :).trans ?_
    exact (s₁.modPav_self ..).trans (by rw [h₁, hv, Option.map_some])

/-- A pavilion's collectives. -/
def State.collsAt (s : State) (p : Nat) : List Coll := ((s.pav p).map (·.colls)).getD []

theorem State.collsAt_of_pavsKept {s t : State} (h : t.pavsKept = s.pavsKept) (p : Nat) : t.collsAt p = s.collsAt p := by
  have hc : ∀ u : State, u.collsAt p = ((u.pavsKept p).map (·.colls)).getD [] := fun u => by
    rw [State.collsAt, State.pavsKept]
    cases u.pav p <;> rfl
  rw [hc t, h, hc s]

theorem State.collsAt_modPav (s : State) (p : Nat) {f : Pav → Pav} (hf : ∀ v, (f v).colls = v.colls) :
    (s.modPav p f).collsAt p = s.collsAt p := by
  rw [State.collsAt, State.collsAt, State.modPav_self]
  cases s.pav p with
  | none => rfl
  | some v => exact hf v

theorem State.collsAt_parkIfDue (s : State) (p : Nat) : (s.parkIfDue p).collsAt p = s.collsAt p := by
  unfold State.parkIfDue
  split
  · rfl
  · split
    · rfl
    · extract_lets q s₁ s₂ s₃
      have h₂ : s₂.pavsKept = s₁.pavsKept := by
        unfold s₂
        split
        · exact s₁.pavsKept_abort ..
        · rfl
      have h₃ : s₃.collsAt p = s₂.collsAt p := s₂.collsAt_modPav p fun _ => rfl
      exact (State.collsAt_of_pavsKept (State.pavsKept_of_quiet (s₃.quiet_postTo ..)) p).trans
        (h₃.trans (State.collsAt_of_pavsKept (h₂.trans (s.pavsKept_dropUnstarted p)) p))

/-- A run that ends with a failure leaves no collective. -/
theorem State.collsAt_endRun {s : State} {p : Nat} {v₀ : Pav} {r₀ : Run} {h₀ : Handle}
    (hr : s.runOf p = some (v₀, r₀, h₀)) {st : Nat} (hst : st ≠ stDone) (d : Nat) (result : Option (List Byte))
    (cause : Nat) : (s.endRun p st d result cause).collsAt p = [] := by
  have hbad : (st == stDone) = false := beq_eq_false_iff_ne.mpr hst
  unfold State.endRun
  split
  · next hn => rw [hr] at hn; cases hn
  · extract_lets held res good s₁ r s₂ s₃ s₄ s₅ s₆ s₇ s₈
    have h₆ : s₆.collsAt p = [] := by
      simp only [s₆, State.collsAt, State.modPav_self, good, hbad]
      cases s₅.pav p <;> rfl
    have h₇ : s₇.pavsKept = s₆.pavsKept := forEach_keep (g := State.pavsKept) (fun s c => s.pavsKept_finish ..) _ s₆
    have h₈ : s₈.pavsKept = s₇.pavsKept := by
      unfold s₈
      split
      · rfl
      · split
        · exact s₇.pavsKept_finish ..
        · exact s₇.pavsKept_complete ..
    rw [State.collsAt_parkIfDue, State.collsAt_of_pavsKept (State.pavsKept_dropUnstarted ..),
      State.collsAt_of_pavsKept (h₈.trans h₇), h₆]

/-- A collective that fails ends its run with it. -/
theorem State.failColl_ends {s : State} {p : Nat} {v : Pav} {r : Run} {h : Handle} (hr : s.runOf p = some (v, r, h))
    (op cause peer : Nat) : ∃ u, (s.failColl p op cause peer).pav p = some u ∧ u.run = none ∧ u.colls = []
      ∧ (s.failColl p op cause peer).cmd r.cmd = none := by
  obtain ⟨hv, hrun, hh⟩ := State.pav_of_runOf hr
  have hend := State.endColl_pav hv op cause peer
  have hr' := State.runOf_of_pav hend hrun hh
  obtain ⟨hruns, hgone⟩ := State.runGone_endRun hr' 0x0205 (placeHub 0 6 0 * 65536 + peer % 65536) none 6
  obtain ⟨u, hu, hur⟩ := State.no_run_of_runs hend (State.standing_endRun ..) hruns
  have hcolls := State.collsAt_endRun hr' (st := 0x0205) (by decide) (placeHub 0 6 0 * 65536 + peer % 65536) none 6
  rw [State.collsAt, hu] at hcolls
  exact ⟨u, hu, hur, hcolls, hgone⟩

end Sys2Proof.Machine
end

section
/-! PROOFS. O49: a collective that is open in a running program: its changes, what credit lets it send (R354), and when it
waits on (R356, R358). -/

namespace Sys2Proof.Machine

/-! ### An open collective -/

/-- A pavilion that was v, but for its collective c: the other collectives, the layouts and the held messages are those
of v. -/
structure Pav.hasColl (u v : Pav) (c : Coll) : Prop where
  reshape : u.reshape = v.reshape
  held : u.held = v.held
  colls : u.colls = v.colls.filter (fun x => x.op != c.op) ++ [c]

/-- The program h runs in pavilion p, which was v, with the collective c. -/
def State.hasColl (t : State) (p : Nat) (v : Pav) (h : Handle) (c : Coll) : Prop :=
  ∃ u r, t.runOf p = some (u, r, h) ∧ u.hasColl v c

/-- A change of a pavilion that leaves its run and its programs. -/
theorem State.runOf_modPav_eq {s : State} {p : Nat} {v : Pav} {r : Run} {h : Handle} (hr : s.runOf p = some (v, r, h))
    {f : Pav → Pav} (hrun : (f v).run = v.run) (hprog : (f v).handles = v.handles) :
    (s.modPav p f).runOf p = some (f v, r, h) := by
  obtain ⟨hv, hr', hh⟩ := State.pav_of_runOf hr
  exact State.runOf_of_pav (by rw [State.modPav_self, hv, Option.map_some]) (hrun.trans hr') (by rw [hprog]; exact hh)

section
variable {s t : State} {p : Nat} {v : Pav} {h : Handle} {c : Coll}

theorem Pav.hasColl.find {u : Pav} (hu : u.hasColl v c) : u.colls.find? (fun x => x.op == c.op) = some c := by
  rw [hu.colls, List.find?_append, List.find?_eq_none.mpr (fun x hx => by simpa using (List.mem_filter.mp hx).2)]
  simp

theorem State.hasColl.coll (ht : t.hasColl p v h c) : t.coll p c.op = some c := by
  obtain ⟨u, r, hr, hu⟩ := ht
  rw [State.coll, (State.pav_of_runOf hr).1, Option.bind_some, hu.find]

theorem State.hasColl.congr {t' : State} (ht : t.hasColl p v h c) (hp : t'.pav p = t.pav p) : t'.hasColl p v h c := by
  obtain ⟨u, r, hr, hu⟩ := ht
  exact ⟨u, r, by rw [← hr, State.runOf, State.runOf, hp], hu⟩

theorem State.hasColl.modPav (ht : t.hasColl p v h c) {f : Pav → Pav} {c' : Coll} (hrun : ∀ u, (f u).run = u.run)
    (hprog : ∀ u, (f u).handles = u.handles) (hf : ∀ u : Pav, u.hasColl v c → (f u).hasColl v c') :
    (t.modPav p f).hasColl p v h c' := by
  obtain ⟨u, r, hr, hu⟩ := ht
  exact ⟨f u, r, State.runOf_modPav_eq hr (hrun u) (hprog u), hf u hu⟩

/-- A change of the collective changes it alone. -/
theorem State.hasColl.modColl (ht : t.hasColl p v h c) {f : Coll → Coll} (hop : (f c).op = c.op) :
    (t.modColl p c.op f).hasColl p v h (f c) := by
  refine ht.modPav (fun _ => rfl) (fun _ => rfl) fun u hu => ⟨hu.reshape, hu.held, ?_⟩
  have hothers : (v.colls.filter fun x => x.op != c.op).map (fun x => if x.op = c.op then f x else x)
      = v.colls.filter fun x => x.op != c.op :=
    (List.map_congr_left fun x hx => if_neg (by simpa using (List.mem_filter.mp hx).2)).trans (List.map_id' _)
  simp [hu.colls, hop, hothers]

/-- Opening a collective: it is new, with nothing sent, placed or folded. -/
theorem State.openColl_hasColl {r : Run} (hr : s.runOf p = some (v, r, h)) (op : Nat) (reduce : Bool) :
    (s.openColl p op reduce).hasColl p v h { op := op, reduce := reduce, startedAt := s.clock, lastMsg := s.clock } :=
  ⟨_, _, State.runOf_modRun (State.runOf_modPav_eq hr rfl rfl) rfl, rfl, rfl, rfl⟩

/-- Without held messages of its own, the collective takes none. -/
theorem State.hasColl.takeHeld (ht : t.hasColl p v h c) (hheld : ∀ x ∈ v.held, x.2.opIndex ≠ c.op) :
    (t.takeHeld p c.op).hasColl p v h c ∧ (t.takeHeld p c.op).ledger = t.ledger := by
  obtain ⟨u, r, hr, hu⟩ := id ht
  have hnow : (u.held.filter fun x => x.2.opIndex == c.op
      && (!(u.reshape.active.any fun l => l.takes x.2) || x.2.jobStep == u.reshape.jobStep)) = [] :=
    List.filter_eq_nil_iff.mpr fun x hx => by simp [hheld x (hu.held ▸ hx)]
  have heq : t.takeHeld p c.op
      = t.modPav p fun u => { u with held := u.held.filter fun x => !([] : List _).contains x } := by
    simp only [State.takeHeld, (State.pav_of_runOf hr).1, hnow]
    rfl
  rw [heq]
  exact ⟨ht.modPav (fun _ => rfl) (fun _ => rfl) fun u hu =>
    ⟨hu.reshape, (List.filter_eq_self.mpr fun _ _ => rfl).trans hu.held, hu.colls⟩, rfl⟩

/-! ### Credit (R354) -/

/-- One message of a collective, sent where the credit of its receiver allows. -/
def creditStep (p : Nat) (a : State × List (Nat × Nat × CollMsg) × List (Nat × Nat × Nat × Nat))
    (x : Nat × Nat × CollMsg) : State × List (Nat × Nat × CollMsg) × List (Nat × Nat × Nat × Nat) :=
  let n := collBytes x.2.1 x.2.2
  let used := sumNat ((a.2.2.filter fun u => u.1 == x.1).map fun u => u.2.2.2)
  if (a.2.1.any fun y => y.1 == x.1) || decide (creditLimit < used + n) then (a.1, a.2.1 ++ [x], a.2.2)
  else (a.1.trySend p x.1 n (x.2.1 - 0x20) (.coll x.1 x.2.1 x.2.2), a.2.1,
    a.2.2 ++ [(x.1, x.2.2.shard, x.2.2.elemOffset, n)])

theorem State.flushColl_eq {op : Nat} (hc : t.coll p op = some c) : t.flushColl p op =
    let a := c.outbox.foldl (creditStep p) (t, [], c.unacked)
    a.1.modColl p op fun x => { x with
      outbox := a.2.1, unacked := a.2.2
      lastMsg := if decide (a.2.1.length < c.outbox.length) then a.1.clock else x.lastMsg } := by
  simp only [State.flushColl, hc]
  rfl

/-- Every message waits for credit or for its acknowledgement, and sending changes nothing but the ports. -/
theorem creditStep_foldl (p : Nat) (l : List (Nat × Nat × CollMsg))
    (a : State × List (Nat × Nat × CollMsg) × List (Nat × Nat × Nat × Nat)) :
    (l.foldl (creditStep p) a).1.offLinks = a.1.offLinks
      ∧ (l.foldl (creditStep p) a).2.1.length + (l.foldl (creditStep p) a).2.2.length
        = l.length + (a.2.1.length + a.2.2.length) := by
  induction l generalizing a with
  | nil => exact ⟨rfl, (Nat.zero_add _).symm⟩
  | cons x l ih =>
    have hstep : (creditStep p a x).1.offLinks = a.1.offLinks
        ∧ (creditStep p a x).2.1.length + (creditStep p a x).2.2.length = a.2.1.length + a.2.2.length + 1 := by
      unfold creditStep
      dsimp only
      split
      · exact ⟨rfl, by simp; omega⟩
      · exact ⟨State.offLinks_trySend .., by simp; omega⟩
    obtain ⟨hoff, hlen⟩ := ih (creditStep p a x)
    refine ⟨hoff.trans hstep.1, ?_⟩
    rw [List.foldl_cons, hlen, hstep.2, List.length_cons]
    omega

theorem State.hasColl.flushColl (ht : t.hasColl p v h c) : ∃ rest un last,
    (t.flushColl p c.op).hasColl p v h { c with outbox := rest, unacked := un, lastMsg := last }
      ∧ rest.length + un.length = c.outbox.length + c.unacked.length ∧ (c.outbox = [] → last = c.lastMsg)
      ∧ (t.flushColl p c.op).ledger = t.ledger := by
  rw [State.flushColl_eq ht.coll]
  obtain ⟨hoff, hlen⟩ := creditStep_foldl p c.outbox (t, [], c.unacked)
  generalize c.outbox.foldl (creditStep p) (t, [], c.unacked) = a at hoff hlen
  have hsent : a.1.hasColl p v h c := ht.congr (State.pav_of_offLinks hoff p)
  refine ⟨a.2.1, a.2.2, _, hsent.modColl (f := fun x => { x with
      outbox := a.2.1, unacked := a.2.2
      lastMsg := if decide (a.2.1.length < c.outbox.length) then a.1.clock else x.lastMsg }) rfl, by simpa using hlen,
    fun h0 => ?_, (congrArg State.ledger hoff :)⟩
  simp [h0]

/-! ### Finishing (R356, R358) -/

section
variable {l : Layout} {m : MapEntry} (hl : v.reshape.active = some l)
  (hm : l.entryOf (h.image.collTensor (h.image.op c.op)) = some m) (hdone : c.done = false)
include hl hm hdone

/-- A reduce-scatter waits on while it has messages to send or to be acknowledged, or a shard is not folded whole. -/
theorem State.hasColl.reduce_waits (ht : t.hasColl p v h c) (hred : c.reduce = true)
    (hwait : c.outbox ≠ [] ∨ c.unacked ≠ [] ∨ ∃ x ∈ l.tensorShards (h.image.collTensor (h.image.op c.op)),
      coveredIn c.folded x.1 ≠ pieceElems m (h.image.dims (h.image.op c.op).a) x.2) : t.collCheck p c.op = t := by
  have hc := ht.coll
  obtain ⟨u, r, hr, hu⟩ := ht
  have hl' : u.reshape.active = some l := hu.reshape ▸ hl
  have hopen : (!c.outbox.isEmpty || !c.unacked.isEmpty || !(l.tensorShards (h.image.collTensor (h.image.op c.op))).all
      fun x => coveredIn c.folded x.1 == pieceElems m (h.image.dims (h.image.op c.op).a) x.2) = true := by
    rcases hwait with ho | hun | ⟨x, hx, hne⟩
    · simp [ho]
    · simp [hun]
    · have hshort : (l.tensorShards (h.image.collTensor (h.image.op c.op))).all
          (fun x => coveredIn c.folded x.1 == pieceElems m (h.image.dims (h.image.op c.op).a) x.2) = false :=
        List.all_eq_false.mpr ⟨x, hx, by simpa using hne⟩
      simp [hshort]
  simp only [State.collCheck, hc, Option.any_some, hdone, Bool.false_and, Bool.false_eq_true, if_false, hr, hl', hm, hred,
    if_true, hopen, Bool.true_or]

/-- A gather waits on while a shard is not placed whole. -/
theorem State.hasColl.gather_waits (ht : t.hasColl p v h c) (hred : c.reduce = false)
    (hwait : ∃ x ∈ l.tensorShards (h.image.collTensor (h.image.op c.op)),
      coveredIn c.placed x.1 ≠ pieceElems m (h.image.dims (h.image.op c.op).a) x.2) : t.collCheck p c.op = t := by
  have hc := ht.coll
  obtain ⟨u, r, hr, hu⟩ := ht
  have hl' : u.reshape.active = some l := hu.reshape ▸ hl
  obtain ⟨x, hx, hne⟩ := hwait
  have hshort : (l.tensorShards (h.image.collTensor (h.image.op c.op))).all
      (fun x => coveredIn c.placed x.1 == pieceElems m (h.image.dims (h.image.op c.op).a) x.2) = false :=
    List.all_eq_false.mpr ⟨x, hx, by simpa using hne⟩
  simp only [State.collCheck, hc, Option.any_some, hdone, Bool.false_and, Bool.false_eq_true, if_false, hr, hl', hm, hred,
    hshort]

end

end

/-! ### The start of a collective (R251) -/

/-- What a collective that may start starts from. -/
theorem State.collStart_some {s : State} {p op code : Nat} {v : Pav} {r : Run} {h : Handle} {l : Layout} {m : MapEntry}
    (hs : s.collStart p op code = some (v, r, h, l, m)) : s.runOf p = some (v, r, h) ∧ v.reshape.active = some l
      ∧ l.entryOf (h.image.collTensor (h.image.op op)) = some m := by
  have hready : ∀ y, s.opReady p op code = some y → s.runOf p = some y := fun y hy => by
    unfold State.opReady at hy
    split at hy
    · cases hy
    · next hr =>
      split at hy
      · rw [hr, hy]
      · cases hy
  unfold State.collStart at hs
  split at hs
  · cases hs
  · next v' r' h' hr =>
    split at hs
    · cases hs
    · next l' hl =>
      split at hs
      · cases hs
      · next m' hm =>
        dsimp only at hs
        split at hs
        · obtain ⟨rfl, rfl, rfl, rfl, rfl⟩ : v' = v ∧ r' = r ∧ h' = h ∧ l' = l ∧ m' = m := by simpa using hs
          exact ⟨hready _ hr, hl, hm⟩
        · cases hs

theorem Layout.holderOf_mem {l : Layout} {n : Nat} {x : Holder} (hx : l.holderOf n = some x) : x ∈ l.holders :=
  (List.mem_filter.mp (List.mem_of_getLast? hx)).1

/-- Among holders of level 3 no destination is of level 2 (R327). -/
theorem Layout.find_levelTwo {s : State} {l : Layout} (hlevel : ∀ y ∈ l.holders, s.levelTwo y.device = false) {ds : List Nat}
    (hds : ∀ d ∈ ds, ∃ y ∈ l.holders, y.device = d) : ds.find? s.levelTwo = none :=
  List.find?_eq_none.mpr fun d hd => by
    obtain ⟨y, hy, rfl⟩ := hds d hd
    exact Bool.eq_false_iff.mp (hlevel y hy)

end Sys2Proof.Machine
end

section
/-! PROOFS. O49: REDUCE_SCATTER (R251, R355, R356). -/

namespace Sys2Proof.Machine

/-! ### Own shards enter GATHERING (R272) -/

/-- A shard that enters GATHERING: its next gradient is not there yet. -/
def Rec.gathering (r : Rec) : Rec := { r with state := 1, gradNext := false }

/-- The own shards among those of a tensor enter GATHERING. -/
def State.enterGathering (s : State) (l : Layout) (shards : List (Nat × Nat)) : State :=
  forEach (shards.filter fun x => s.ownsIn l x.1) (fun s x => s.modShard x.1 Rec.gathering) s

/-- A change of a shard reads back. -/
theorem State.modShard_shard (s : State) (n k : Nat) (f : Rec → Rec) :
    (s.modShard n f).shard k = if k = n then f (s.shard n) else s.shard k := by
  by_cases hk : k = n
  · subst hk
    rw [if_pos rfl]
    exact tget_tset_self ..
  · rw [if_neg hk]
    exact tget_tset_ne _ _ _ hk

theorem State.forEach_gathering_shard (xs : List (Nat × Nat)) (s : State) (k : Nat) :
    (forEach xs (fun s x => s.modShard x.1 Rec.gathering) s).shard k =
      if k ∈ xs.map (·.1) then Rec.gathering (s.shard k) else s.shard k := by
  induction xs generalizing s with
  | nil => rfl
  | cons x xs ih =>
    rw [forEach_cons, ih, State.modShard_shard]
    by_cases hk : k = x.1
    · subst hk
      simp [Rec.gathering]
    · simp only [List.map_cons, List.mem_cons, hk, if_false, false_or]

theorem State.enterGathering_shard {s : State} {l : Layout} {shards : List (Nat × Nat)} {x : Nat × Nat} (hx : x ∈ shards)
    (hown : s.ownsIn l x.1 = true) : ((s.enterGathering l shards).shard x.1).state = 1
      ∧ ((s.enterGathering l shards).shard x.1).gradNext = false := by
  have hmem : x.1 ∈ (shards.filter fun x => s.ownsIn l x.1).map (·.1) :=
    List.mem_map_of_mem (List.mem_filter.mpr ⟨hx, hown⟩)
  rw [State.enterGathering, State.forEach_gathering_shard, if_pos hmem]
  exact ⟨rfl, rfl⟩

theorem State.enterGathering_keeps (s : State) (l : Layout) (shards : List (Nat × Nat)) :
    (s.enterGathering l shards).pavs = s.pavs ∧ (s.enterGathering l shards).route = s.route := by
  have h := forEach_keep (g := fun s : State => (s.pavs, s.route))
    (f := fun s (x : Nat × Nat) => s.modShard x.1 Rec.gathering) (fun _ _ => rfl) (shards.filter fun x => s.ownsIn l x.1) s
  exact ⟨congrArg Prod.fst h, congrArg Prod.snd h⟩

/-! ### Covered elements -/

theorem sumNat_eq_sum (l : List Nat) : sumNat l = l.sum := by
  induction l with
  | nil => rfl
  | cons a l ih => rw [sumNat, ih, List.sum_cons]

theorem coveredIn_append (a b : List (Nat × Nat × Nat × Nat)) (n : Nat) :
    coveredIn (a ++ b) n = coveredIn a n + coveredIn b n := by
  simp [coveredIn, sumNat_eq_sum]

theorem coveredIn_of_absent {l : List (Nat × Nat × Nat × Nat)} {n : Nat} (h : ∀ y ∈ l, y.1 ≠ n) :
    coveredIn l n = 0 := by
  rw [coveredIn, List.filter_eq_nil_iff.mpr fun y hy => by simpa using h y hy]
  rfl

/-- The pieces of a shard as a list of covered ranges. -/
def piecesOf (n : Nat) (l : List (Nat × List Nat)) : List (Nat × Nat × Nat × Nat) :=
  l.map fun y => (n, y.1, y.2.length, 0)

theorem coveredIn_piecesOf_self (n : Nat) (l : List (Nat × List Nat)) :
    coveredIn (piecesOf n l) n = (l.map (·.2.length)).sum := by
  have hall : (piecesOf n l).filter (fun x => x.1 == n) = piecesOf n l := List.filter_eq_self.mpr fun y hy => by
    obtain ⟨z, -, rfl⟩ := List.mem_map.mp hy
    exact beq_self_eq_true n
  rw [coveredIn, hall, sumNat_eq_sum, piecesOf, List.map_map]
  rfl

theorem coveredIn_piecesOf_ne {n k : Nat} (hk : k ≠ n) (l : List (Nat × List Nat)) : coveredIn (piecesOf n l) k = 0 :=
  coveredIn_of_absent fun y hy => by
    obtain ⟨z, -, rfl⟩ := List.mem_map.mp hy
    exact hk.symm

/-- Cutting loses no element (R352). -/
theorem cutData_covers {limit : Nat} (hlim : 0 < limit) {fuel : Nat} (off : Nat) {l : List Nat} (hf : l.length ≤ fuel) :
    ((cutData limit fuel off l).map (·.2.length)).sum = l.length := by
  induction fuel generalizing off l with
  | zero => rw [cutData]; simp_all
  | succ fuel ih =>
    cases l with
    | nil => rfl
    | cons a l =>
      rw [List.length_cons] at hf
      have hdrop : ((a :: l).drop limit).length ≤ fuel := by rw [List.length_drop, List.length_cons]; omega
      have hcut : cutData limit (fuel + 1) off (a :: l)
          = (off, (a :: l).take limit) :: cutData limit fuel (off + limit) ((a :: l).drop limit) := rfl
      rw [hcut, List.map_cons, List.sum_cons, ih _ hdrop, List.length_take, List.length_drop]
      omega

/-! ### The chains start (R355, R356) -/

section
variable (p op : Nat) (v : Pav) (l : Layout)

/-- A piece of a chain starts: it counts as folded and is passed on. -/
def State.chainPiece (s : State) (n : Nat) (y : Nat × List Nat) : State :=
  (s.modColl p op fun c => { c with folded := c.folded ++ [(n, y.1, y.2.length, 0)] }).passOn p op v l n y.1 0 y.2

/-- The chains of the shards start at the first position, with this module's slices folded onto +0. -/
def State.startChains (s : State) (r : Run) (h : Handle) (m : MapEntry) (shards : List (Nat × Nat)) : State :=
  forEach shards (fun s x =>
    let n := pieceElems m (h.image.dims (h.image.op op).a) x.2
    let sums := s.foldSlices v r.handle h (h.image.op op).a m x.2 ((List.range n).map fun e => (e, 0))
    forEach (cutData 952 n 0 sums) (fun s y => s.chainPiece p op v l x.1 y) s) s

end

/-- From a position with a next one, folded sums wait to be sent there. -/
theorem State.passOn_next {s : State} {v : Pav} {l : Layout} {d : Holder}
    (hnext : l.holders[(l.pos s.ownId).getD 0 + 1]? = some d) (p op n off stripe : Nat) (data : List Nat) :
    s.passOn p op v l n off stripe data = s.modColl p op fun c => { c with
      outbox := c.outbox ++ [(d.device, 0x20,
        { collMsg s.ownId v l op n off 0 data with stripe := stripe, nextSlice := d.firstSlice })] } := by
  simp only [State.passOn, hnext]

/-- A reduce-scatter whose running sums cover F, all of it still to be sent. -/
structure Coll.chains (c : Coll) (op : Nat) (F : List (Nat × Nat × Nat × Nat)) : Prop where
  op : c.op = op
  reduce : c.reduce = true
  done : c.done = false
  unacked : c.unacked = []
  folded : c.folded = F
  sends : F ≠ [] → c.outbox ≠ []

/-- The chains of a collective of s have begun as far as F, with nothing but the collective changed. -/
def State.chains (s t : State) (p op : Nat) (v : Pav) (h : Handle) (F : List (Nat × Nat × Nat × Nat)) : Prop :=
  (t.route = s.route ∧ t.ledger = s.ledger) ∧ ∃ c, t.hasColl p v h c ∧ c.chains op F

section
variable {s t : State} {p op : Nat} {v : Pav} {l : Layout} {h : Handle} {F : List (Nat × Nat × Nat × Nat)} {d : Holder}
  (hnext : l.holders[(l.pos s.ownId).getD 0 + 1]? = some d)
include hnext

theorem State.chains.chainPiece (ht : s.chains t p op v h F) (n : Nat) (y : Nat × List Nat) :
    s.chains (t.chainPiece p op v l n y) p op v h (F ++ piecesOf n [y]) := by
  obtain ⟨⟨hroute, hledger⟩, c, hc, hch⟩ := ht
  obtain rfl := hch.op
  have hown : t.ownId = s.ownId := by rw [State.ownId, State.ownId, hroute]
  have hfold := hc.modColl (f := fun c => { c with folded := c.folded ++ [(n, y.1, y.2.length, 0)] }) rfl
  rw [State.chainPiece, State.passOn_next (d := d) (by rw [← hnext, ← hown]; rfl)]
  exact ⟨⟨hroute, hledger⟩, _, hfold.modColl rfl, rfl, hch.reduce, hch.done, hch.unacked, by rw [← hch.folded]; rfl,
    fun _ => by simp⟩

theorem State.chains.pieces (n : Nat) (ys : List (Nat × List Nat)) (ht : s.chains t p op v h F) :
    s.chains (forEach ys (fun s y => s.chainPiece p op v l n y) t) p op v h (F ++ piecesOf n ys) := by
  induction ys generalizing t F with
  | nil => simpa [piecesOf] using ht
  | cons y ys ih => simpa [piecesOf] using ih (ht.chainPiece hnext n y)

/-- After the chains have started, every shard is covered whole, and no other has changed. -/
theorem State.chains.start {shards : List (Nat × Nat)} (hnd : (shards.map (·.1)).Nodup) (r : Run) (m : MapEntry)
    (ht : s.chains t p op v h F) : ∃ F', s.chains (t.startChains p op v l r h m shards) p op v h F'
      ∧ (∀ x ∈ shards, coveredIn F' x.1 = coveredIn F x.1 + pieceElems m (h.image.dims (h.image.op op).a) x.2)
      ∧ ∀ k, k ∉ shards.map (·.1) → coveredIn F' k = coveredIn F k := by
  induction shards generalizing t F with
  | nil => exact ⟨F, ht, by simp, fun _ _ => rfl⟩
  | cons x xs ih =>
    rw [List.map_cons, List.nodup_cons] at hnd
    obtain ⟨hx, hnd'⟩ := hnd
    let n := pieceElems m (h.image.dims (h.image.op op).a) x.2
    let sums := t.foldSlices v r.handle h (h.image.op op).a m x.2 ((List.range n).map fun e => (e, 0))
    have hlen : sums.length = n := by simp [sums, State.foldSlices]
    obtain ⟨F', hF', hin, hout⟩ := ih hnd' (ht.pieces hnext x.1 (cutData 952 n 0 sums))
    refine ⟨F', hF', fun z hz => ?_, fun k hk => ?_⟩
    · rcases List.mem_cons.mp hz with rfl | hz
      · rw [hout _ hx, coveredIn_append, coveredIn_piecesOf_self, cutData_covers (by decide) 0 (Nat.le_of_eq hlen), hlen]
      · have hne : z.1 ≠ x.1 := fun he => hx (he ▸ List.mem_map_of_mem hz)
        rw [hin z hz, coveredIn_append, coveredIn_piecesOf_ne hne, Nat.add_zero]
    · rw [List.map_cons, List.mem_cons, not_or] at hk
      rw [hout k hk.2, coveredIn_append, coveredIn_piecesOf_ne hk.1, Nat.add_zero]

end

/-! ### REDUCE_SCATTER -/

section
variable {p : Fin 8} {op : Nat} {s : State} {v : Pav} {r : Run} {h : Handle} {l : Layout} {m : MapEntry}

/-- What takes, sends and finishes when the collective has started (R354, R356). -/
def State.goOn (s : State) (p op : Nat) : State := ((s.takeHeld p op).flushColl p op).collCheck p op

/-- Between modules of level 3 the start opens the collective, own shards enter GATHERING, and the first position starts
the chains. -/
theorem reduceScatter_eq (hs : s.collStart p.val op 0x31 = some (v, r, h, l, m))
    (hlevel : ∀ y ∈ l.holders, s.levelTwo y.device = false) :
    let shards := l.tensorShards (h.image.collTensor (h.image.op op))
    let t := (s.openColl p.val op true).enterGathering l shards
    exec (.reduceScatter p op) s = .next ((if (l.pos s.ownId).getD 0 = 0 then t.startChains p.val op v l r h m shards
      else t).goOn p.val op) := by
  intro shards t
  have hexec : exec (.reduceScatter p op) s = execReduceScatter p op s := rfl
  rw [hexec, execReduceScatter, hs]
  dsimp only
  rw [Layout.find_levelTwo (s := s.openColl p.val op true) hlevel]
  · dsimp only
    split <;> rfl
  · -- the next position, or from the last position the holders of the shards
    intro d hd
    split at hd
    · next x hx => exact ⟨x, List.mem_of_getElem? hx, (List.mem_singleton.mp hd).symm⟩
    · obtain ⟨x, -, hx⟩ := List.mem_filterMap.mp (List.mem_filter.mp hd).1
      obtain ⟨y, hy, rfl⟩ := Option.map_eq_some_iff.mp hx
      exact ⟨y, Layout.holderOf_mem hy, rfl⟩

/-- A collective that has started and still waits goes on as it is, but for what it has sent. -/
theorem State.hasColl.goOn {t : State} {c : Coll} (ht : t.hasColl p.val v h c)
    (hheld : ∀ x ∈ v.held, x.2.opIndex ≠ c.op) :
    ∃ rest un last, rest.length + un.length = c.outbox.length + c.unacked.length ∧ (c.outbox = [] → last = c.lastMsg)
      ∧ ∃ u : State, u.hasColl p.val v h { c with outbox := rest, unacked := un, lastMsg := last }
        ∧ u.ledger = t.ledger ∧ t.goOn p.val c.op = u.collCheck p.val c.op := by
  obtain ⟨htake, hledger⟩ := ht.takeHeld hheld
  obtain ⟨rest, un, last, hc, hlen, hlast, hledger'⟩ := htake.flushColl
  exact ⟨rest, un, last, hlen, hlast, _, hc, hledger'.trans hledger, rfl⟩

variable (hs : s.collStart p.val op 0x31 = some (v, r, h, l, m)) (hheld : ∀ x ∈ v.held, x.2.opIndex ≠ op)
  (hlevel : ∀ y ∈ l.holders, s.levelTwo y.device = false)
  (hsome : ∃ x ∈ l.tensorShards (h.image.collTensor (h.image.op op)),
    0 < pieceElems m (h.image.dims (h.image.op op).a) x.2)

/-- The state in which own shards have entered GATHERING. -/
def State.scattering (s : State) (p op : Nat) (l : Layout) (h : Handle) : State :=
  (s.openColl p op true).enterGathering l (l.tensorShards (h.image.collTensor (h.image.op op)))

include hs in
theorem State.scattering_hasColl : (s.scattering p.val op l h).hasColl p.val v h
    { op := op, reduce := true, startedAt := s.clock, lastMsg := s.clock } :=
  (State.openColl_hasColl (State.collStart_some hs).1 op true).congr
    (congrArg (tfind · p.val) (State.enterGathering_keeps ..).1)

theorem State.scattering_shard {t : State} (hledger : t.ledger = (s.scattering p.val op l h).ledger) :
    ∀ x ∈ l.tensorShards (h.image.collTensor (h.image.op op)), s.ownsIn l x.1 = true →
      (t.shard x.1).state = 1 ∧ (t.shard x.1).gradNext = false := fun x hx hown => by
  rw [show t.shard x.1 = (s.scattering p.val op l h).shard x.1 by rw [State.shard, hledger, State.shard]]
  exact State.enterGathering_shard hx hown

include hs hheld hlevel hsome

/-- At a later position the collective is open and waits for its chains. -/
theorem reduceScatter_waits (hpos : (l.pos s.ownId).getD 0 ≠ 0) :
    ∃ t u, exec (.reduceScatter p op) s = .next t ∧ t.pav p.val = some u
      ∧ { op := op, reduce := true, startedAt := s.clock, lastMsg := s.clock } ∈ u.colls
      ∧ t.ledger = (s.scattering p.val op l h).ledger := by
  obtain ⟨-, hl, hm⟩ := State.collStart_some hs
  obtain ⟨rest, un, last, hlen, hlast, t, ht, hledger, hgo⟩ := (State.scattering_hasColl hs).goOn hheld
  obtain ⟨rfl, rfl⟩ : rest = [] ∧ un = [] := by
    simpa [List.length_eq_zero_iff] using hlen
  obtain rfl := hlast rfl
  obtain ⟨x, hx, hpos'⟩ := hsome
  have hcheck := ht.reduce_waits hl hm rfl rfl (.inr (.inr ⟨x, hx, (Nat.ne_of_gt hpos').symm⟩))
  obtain ⟨u, r', hr, hu⟩ := id ht
  refine ⟨t, u, ?_, (State.pav_of_runOf hr).1, ?_, hledger⟩
  · rw [reduceScatter_eq hs hlevel, if_neg hpos]
    exact congrArg _ (hgo.trans hcheck)
  · rw [hu.colls]
    exact List.mem_append_right _ (List.mem_singleton.mpr rfl)

/-- At the first position the chains of all shards have started, and their sums wait for credit or acknowledgement. -/
theorem reduceScatter_starts (hpos : (l.pos s.ownId).getD 0 = 0) {d : Holder} (hnext : l.holders[1]? = some d)
    (hnd : ((l.tensorShards (h.image.collTensor (h.image.op op))).map (·.1)).Nodup) :
    ∃ t u y, exec (.reduceScatter p op) s = .next t ∧ t.pav p.val = some u ∧ y ∈ u.colls ∧ y.op = op
      ∧ y.done = false ∧ (y.outbox ≠ [] ∨ y.unacked ≠ [])
      ∧ (∀ x ∈ l.tensorShards (h.image.collTensor (h.image.op op)),
        coveredIn y.folded x.1 = pieceElems m (h.image.dims (h.image.op op).a) x.2)
      ∧ t.ledger = (s.scattering p.val op l h).ledger := by
  obtain ⟨-, hl, hm⟩ := State.collStart_some hs
  have hroute : (s.scattering p.val op l h).route = s.route := (State.enterGathering_keeps ..).2
  have hnext' : l.holders[(l.pos (s.scattering p.val op l h).ownId).getD 0 + 1]? = some d := by
    rw [show (s.scattering p.val op l h).ownId = s.ownId by rw [State.ownId, hroute, State.ownId], hpos]
    exact hnext
  have hbegin : (s.scattering p.val op l h).chains (s.scattering p.val op l h) p.val op v h [] :=
    ⟨⟨rfl, rfl⟩, _, State.scattering_hasColl hs, rfl, rfl, rfl, rfl, rfl, fun hne => absurd rfl hne⟩
  obtain ⟨F, ⟨⟨-, hledger₀⟩, c, hc, hch⟩, hcov, -⟩ := hbegin.start hnext' hnd r m
  obtain rfl := hch.op
  obtain ⟨rest, un, last, hlen, -, t, ht, hledger, hgo⟩ := hc.goOn hheld
  have hF : F ≠ [] := fun hF => by
    obtain ⟨x, hx, hpos'⟩ := hsome
    have := hcov x hx
    rw [hF, Nat.left_eq_add] at this
    omega
  have hwait : rest ≠ [] ∨ un ≠ [] := by
    have := List.length_pos_iff.mpr (hch.sends hF)
    rw [← List.length_pos_iff, ← List.length_pos_iff]
    omega
  have hcheck := State.hasColl.reduce_waits hl hm (c := { c with outbox := rest, unacked := un, lastMsg := last }) hch.done
    ht hch.reduce (hwait.imp_right .inl)
  obtain ⟨u, r', hr, hu⟩ := id ht
  refine ⟨t, u, { c with outbox := rest, unacked := un, lastMsg := last }, ?_, (State.pav_of_runOf hr).1, ?_, rfl,
    hch.done, hwait, fun x hx => ?_, hledger.trans hledger₀⟩
  · rw [reduceScatter_eq hs hlevel, if_pos hpos]
    exact congrArg _ (hgo.trans hcheck)
  · rw [hu.colls]
    exact List.mem_append_right _ (List.mem_singleton.mpr rfl)
  · exact (congrArg (coveredIn · x.1) hch.folded).trans ((hcov x hx).trans (Nat.zero_add _))

end

end Sys2Proof.Machine
end

section
/-! PROOFS. O49: GATHER_SHARDS (R251, R252, R358). -/

namespace Sys2Proof.Machine

/-! ### What the address map reads (R97, R101) -/

/-- The shards, the routes and the active layouts are those of s: what the place of an element depends on. -/
structure State.sameMap (s t : State) : Prop where
  ledger : t.ledger = s.ledger
  route : t.route = s.route
  active : ∀ q a, (t.pavs.any fun e => e.1 == q && e.2.reshape.active == a)
    = s.pavs.any fun e => e.1 == q && e.2.reshape.active == a

theorem mem_of_tfind {α : Type} {t : Tbl α} {i : Nat} {v : α} (h : tfind t i = some v) : (i, v) ∈ t := by
  induction t with
  | nil => cases h
  | cons e t ih =>
    by_cases he : i = e.1
    · obtain rfl : e.2 = v := by simpa [tfind, he] using h
      exact he ▸ List.mem_cons_self
    · exact List.mem_cons_of_mem _ (ih (by simpa [tfind, he] using h))

/-- A test that a new value of an entry does not change. -/
theorem any_tset_of_tfind {α : Type} {t : Tbl α} {i : Nat} {v w : α} (h : tfind t i = some v) {f : Nat × α → Bool}
    (hf : f (i, w) = f (i, v)) : (tset t i w).any f = t.any f := by
  induction t with
  | nil => cases h
  | cons e t ih =>
    obtain ⟨k, x⟩ := e
    by_cases hk : i = k
    · subst hk
      obtain rfl : x = v := by simpa [tfind] using h
      simp [tset, hf]
    · have h' : tfind t i = some v := by simpa [tfind, hk] using h
      rw [tset]
      split
      · -- the new entry stands before the old one, which the test does not tell from it
        rw [List.any_cons, hf]
        cases hv : f (i, v) with
        | false => rfl
        | true => simpa using .inr ⟨i, v, mem_of_tfind h', hv⟩
      · simp [ih h']

section
variable {s t : State}

theorem State.sameMap.modPav (ht : s.sameMap t) (p : Nat) {f : Pav → Pav} (hf : ∀ u, (f u).reshape = u.reshape) :
    s.sameMap (t.modPav p f) := by
  refine ⟨ht.ledger, ht.route, fun q a => (ht.active q a).symm ▸ ?_⟩
  unfold State.modPav
  dsimp only
  split
  · rfl
  · next v hv => exact any_tset_of_tfind hv (by rw [hf])

theorem State.sameMap.of_quiet {t' : State} (ht : s.sameMap t) (h : t'.quiet = t.quiet) : s.sameMap t' :=
  ⟨(congrArg State.ledger h :).trans ht.ledger, (congrArg State.route h :).trans ht.route, fun q a => by
    rw [show t'.pavs = t.pavs from (congrArg State.pavs h :)]
    exact ht.active q a⟩

/-- Under the same map, elements have the same places. -/
theorem State.sameMap.place (ht : s.sameMap t) {u v : Pav} (hu : u.reshape = v.reshape) (h : Handle) (i sl : Nat)
    (c : Coord) : t.place u h i sl c = s.place v h i sl c := by
  have hlow : t.lowestSlice u h.image = s.lowestSlice v h.image := by
    unfold State.lowestSlice State.heldSlices State.ownId
    rw [hu, ht.route]
  have hshard : ∀ n, t.shard n = s.shard n := fun n => by rw [State.shard, ht.ledger, State.shard]
  simp only [State.place, hlow, hshard, ht.active, hu]

end

/-! ### Writes that meet no bad word (R225) -/

theorem State.badUnder_eq_none {s : State} {l : List (Nat × Nat)}
    (h : ∀ w ∈ s.mem.bad, ∀ r ∈ l, overlaps w (codeWord w) r.1 r.2 = false) : s.badUnder l = none :=
  List.find?_eq_none.mpr fun w hw => by
    simp only [Bool.and_eq_true, not_and]
    intro hany
    obtain ⟨r, hr, ho⟩ := List.any_eq_true.mp hany
    rw [h w hw r hr] at ho
    cases ho

theorem State.writeMem_bad (s : State) (a : Nat) (l : List Byte) : (s.writeMem a l).mem.bad ⊆ s.mem.bad := by
  unfold State.writeMem
  split
  · exact fun _ h => h
  · exact List.filter_sublist.subset

theorem State.renew_bad (s : State) (l : List (Nat × Nat)) : (s.renew l).mem.bad ⊆ s.mem.bad := by
  unfold State.renew
  split
  · exact fun _ h => h
  · exact List.filter_sublist.subset

theorem State.quiet_renew (s : State) (l : List (Nat × Nat)) : (s.renew l).quiet = s.quiet := by
  unfold State.renew
  split <;> rfl

/-! ### Pieces are placed (R358) -/

/-- A gather that has placed nothing but own shards. -/
structure Coll.gathers (c : Coll) (s : State) (op : Nat) (l : Layout) : Prop where
  op : c.op = op
  reduce : c.reduce = false
  done : c.done = false
  startedAt : c.startedAt = s.clock
  placed : ∀ y ∈ c.placed, s.ownsIn l y.1 = true

/-- The gather of s has begun: nothing has changed but the collective and the stored elements. -/
structure State.gathers (s t : State) (p op : Nat) (v : Pav) (h : Handle) (l : Layout) : Prop where
  map : s.sameMap t
  bad : t.mem.bad ⊆ s.mem.bad
  coll : ∃ c, t.hasColl p v h c ∧ c.gathers s op l

section
variable {s t : State} {p op : Nat} {v : Pav} {h : Handle} {l : Layout}

theorem State.gathers.of_quiet {t' : State} (ht : s.gathers t p op v h l) (hq : t'.quiet = t.quiet)
    (hb : t'.mem.bad ⊆ t.mem.bad) : s.gathers t' p op v h l := by
  obtain ⟨c, hc, hg⟩ := ht.coll
  exact ⟨ht.map.of_quiet hq, fun _ hw => ht.bad (hb hw), c, hc.congr (congrArg (fun u : State => u.pav p) hq :), hg⟩

theorem State.gathers.putCode (ht : s.gathers t p op v h l) (hd : Nat) (h' : Handle) (i sl : Nat) (c : Coord) (code : Nat) :
    s.gathers (t.putCode p hd h' i sl c code) p op v h l := by
  have hwrite : ∀ a b, s.gathers (t.writeMem a b) p op v h l := fun a b =>
    ht.of_quiet (t.quiet_writeMem a b) (t.writeMem_bad a b)
  unfold State.putCode
  split
  · exact ht
  · split
    · split <;> exact hwrite ..
    · obtain ⟨x, hx, hg⟩ := ht.coll
      exact ⟨ht.map.modPav p fun _ => rfl, ht.bad, x,
        hx.modPav (fun _ => rfl) (fun _ => rfl) fun u hu => ⟨hu.reshape, hu.held, hu.colls⟩, hg⟩
    · exact ht

/-- No element of the output lies over an uncorrectable code word. -/
def State.clearUnder (s : State) (v : Pav) (h : Handle) (i : Nat) : Prop :=
  ∀ k a b hi, s.place v h i 0 k = .mem a b hi → ∀ w ∈ s.mem.bad, overlaps w (codeWord w) a (max 1 (b / 8)) = false

/-- A piece of an own shard is placed and passed on (R358). -/
theorem State.gathers.placePiece (ht : s.gathers t p op v h l) (hclear : s.clearUnder v h (h.image.op op).out) (hd : Nat)
    (m : MapEntry) (k : Nat) {x : CollMsg} (hown : s.ownsIn l x.shard = true) :
    s.gathers (t.placePiece p op hd h l m k x) p op v h l := by
  obtain ⟨c, ⟨u, r, hr, hu⟩, hg⟩ := ht.coll
  have hpav := (State.pav_of_runOf hr).1
  unfold State.placePiece
  extract_lets g o own cell rs s₁ next
  have hnone : t.badUnder rs = none := by
    refine State.badUnder_eq_none fun w hw r hr => ?_
    unfold rs at hr
    rw [hpav] at hr
    split at hr
    · cases hr
    · obtain ⟨i, -, hi⟩ := List.mem_filterMap.mp hr
      split at hi
      · next a b high hplace =>
        obtain rfl := Option.some.inj hi
        exact hclear _ a b high ((ht.map.place hu.reshape ..).symm.trans hplace) w (ht.bad hw)
      · cases hi
  rw [hnone]
  have hs₁ : s.gathers s₁ p op v h l := forEach_inv (P := fun t => s.gathers t p op v h l)
    (fun t e ht => ht.putCode ..) _ _ (ht.of_quiet (t.quiet_renew rs) (t.renew_bad rs))
  obtain ⟨c₁, hc₁, hg₁⟩ := hs₁.coll
  obtain rfl := hg₁.op
  refine ⟨hs₁.map.modPav p fun _ => rfl, hs₁.bad, _, hc₁.modColl rfl, rfl, hg₁.reduce, hg₁.done, hg₁.startedAt,
    fun y hy => ?_⟩
  rcases List.mem_append.mp hy with hy | hy
  · exact hg₁.placed y hy
  · exact List.mem_singleton.mp hy ▸ hown

end

/-! ### GATHER_SHARDS -/

/-- What every turn over the members of a list keeps, the whole iteration keeps. -/
theorem forEach_inv_mem {σ β : Type} {P : σ → Prop} {f : σ → β → σ} {l : List β} (h : ∀ a ∈ l, ∀ s, P s → P (f s a)) {s : σ}
    (hs : P s) : P (forEach l f s) :=
  List.foldlRecOn l f hs fun s hs a ha => h a ha s hs

theorem Layout.gatherNext_mem {l : Layout} {o m d : Nat} (hd : d ∈ l.gatherNext o m) : ∃ y ∈ l.holders, y.device = d := by
  have hfilter : ∀ f : Nat → Bool, d ∈ (l.holders.map (·.device)).filter f → ∃ y ∈ l.holders, y.device = d :=
    fun f hd => List.mem_map.mp (List.mem_filter.mp hd).1
  have hget : ∀ {q : Prop} [Decidable q] {i : Nat} {y : Holder}, y ∈ (if q then l.holders[i]? else none).toList →
      y ∈ l.holders := fun {q} _ {i y} hy => by
    split at hy
    · exact List.mem_of_getElem? (Option.mem_toList.mp hy)
    · cases hy
  unfold Layout.gatherNext at hd
  split at hd
  · dsimp only at hd
    split at hd
    · rcases List.mem_append.mp hd with hd | hd
      · rcases List.mem_append.mp hd with hd | hd <;> exact hfilter _ hd
      · exact hfilter _ hd
    · split at hd
      · rcases List.mem_append.mp hd with hd | hd <;> exact hfilter _ hd
      · split at hd
        · exact hfilter _ hd
        · cases hd
  · split at hd
    · obtain ⟨y, hy, rfl⟩ := List.mem_map.mp hd
      rcases List.mem_append.mp hy with hy | hy
      · exact ⟨y, hget hy, rfl⟩
      · exact ⟨y, hget hy, rfl⟩
    · cases hd

section
variable {p : Fin 8} {op : Nat} {s : State} {v : Pav} {r : Run} {h : Handle} {l : Layout} {m : MapEntry}

/-- The own shards of a tensor can be read whole. -/
def State.ownReadable (s : State) (l : Layout) (tensor : Nat) : Prop :=
  ∀ x ∈ l.tensorShards tensor, s.ownsIn l x.1 = true → s.ledger.unreadable.contains x.1 = false
    ∧ (s.shard x.1).damaged = false
    ∧ s.badRead ((s.shard x.1).slotAddr (s.shard x.1).cur) (2 * (s.shard x.1).length) = none

/-- The pieces of the own shards of a gather are placed. -/
def State.placeOwn (s : State) (p op hd : Nat) (v : Pav) (h : Handle) (l : Layout) (m : MapEntry)
    (mine : List (Nat × Nat)) : State :=
  forEach mine (fun t x =>
    let q := t.shard x.1
    let hi := words 2 (t.readMem (q.slotAddr q.cur) (2 * q.length))
    forEach (cutData 1904 hi.length 0 hi) (fun t y =>
      t.placePiece p op hd h l m x.2 (collMsg s.ownId v l op x.1 y.1 0 y.2)) t) (s.openColl p op false)

/-- A gather whose own shards can be read, between modules of level 3, opens and places them. -/
theorem gatherShards_eq (hs : s.collStart p.val op 0x30 = some (v, r, h, l, m))
    (hlevel : ∀ y ∈ l.holders, s.levelTwo y.device = false)
    (hwin : r.windowAllows h.image (s.heldSlices v h.image) op = true)
    (hread : s.ownReadable l (h.image.op op).a) :
    exec (.gatherShards p op) s = .next (((((s.placeOwn p.val op r.handle v h l m
      ((l.tensorShards (h.image.op op).a).filter fun x => s.ownsIn l x.1)).flushColl p.val op).takeHeld p.val op)).collCheck
        p.val op) := by
  have hown : ∀ x ∈ (l.tensorShards (h.image.op op).a).filter fun x => s.ownsIn l x.1,
      s.ledger.unreadable.contains x.1 = false ∧ (s.shard x.1).damaged = false
      ∧ s.badRead ((s.shard x.1).slotAddr (s.shard x.1).cur) (2 * (s.shard x.1).length) = none := fun x hx =>
    have hx' := List.mem_filter.mp hx
    hread x hx'.1 hx'.2
  have hunread := List.find?_eq_none.mpr fun x hx => Bool.eq_false_iff.mp (hown x hx).1
  have hdamaged := List.find?_eq_none.mpr fun x hx => Bool.eq_false_iff.mp (hown x hx).2.1
  have hbad := List.findSome?_eq_none_iff.mpr fun x hx => by
    exact congrArg (Option.map fun w => (x.1, w)) (hown x hx).2.2
  have hnone : (l.holders.flatMap fun q => l.gatherNext q.device s.ownId).find? (s.openColl p.val op false).levelTwo
      = none := Layout.find_levelTwo hlevel fun d hd => by
    obtain ⟨q, -, hd⟩ := List.mem_flatMap.mp hd
    exact Layout.gatherNext_mem hd
  have hexec : exec (.gatherShards p op) s = execGatherShards p op s := rfl
  rw [hexec, execGatherShards, hs]
  dsimp only
  rw [hwin, Bool.not_true, if_neg Bool.false_ne_true, hunread, hdamaged]
  dsimp only
  rw [hbad]
  dsimp only
  rw [hnone]
  rfl

/-- Own shards go into the output and to the others, and nothing else of the gather changes. -/
theorem State.placeOwn_gathers (hs : s.collStart p.val op 0x30 = some (v, r, h, l, m))
    (hclear : s.clearUnder v h (h.image.op op).out) {mine : List (Nat × Nat)} (hmine : ∀ x ∈ mine, s.ownsIn l x.1 = true)
    (hd : Nat) : s.gathers (s.placeOwn p.val op hd v h l m mine) p.val op v h l := by
  obtain ⟨hr, -, -⟩ := State.collStart_some hs
  have hopen : s.gathers (s.openColl p.val op false) p.val op v h l := by
    have hmap : s.sameMap (s.openColl p.val op false) := by
      unfold State.openColl State.modRun
      refine State.sameMap.modPav (State.sameMap.modPav ⟨rfl, rfl, fun _ _ => rfl⟩ _ ?_) _ ?_ <;> exact fun _ => rfl
    exact ⟨hmap, fun _ hw => hw, _, State.openColl_hasColl hr op false, rfl, rfl, rfl, rfl, fun y hy => by cases hy⟩
  exact forEach_inv_mem (P := fun t => s.gathers t p.val op v h l) (fun x hx t ht =>
    forEach_inv (P := fun t => s.gathers t p.val op v h l) (fun t y ht =>
      ht.placePiece hclear hd m x.2 (hmine x hx)) _ _ ht) hopen

/-- A gather that has shards of others to wait for is open once it has started. -/
theorem gatherShards_opens (hs : s.collStart p.val op 0x30 = some (v, r, h, l, m))
    (hheld : ∀ x ∈ v.held, x.2.opIndex ≠ op) (hlevel : ∀ y ∈ l.holders, s.levelTwo y.device = false)
    (hwin : r.windowAllows h.image (s.heldSlices v h.image) op = true)
    (hread : s.ownReadable l (h.image.op op).a)
    (hclear : s.clearUnder v h (h.image.op op).out)
    (hothers : ∃ x ∈ l.tensorShards (h.image.collTensor (h.image.op op)), s.ownsIn l x.1 = false
      ∧ 0 < pieceElems m (h.image.dims (h.image.op op).a) x.2) :
    ∃ t u, exec (.gatherShards p op) s = .next t ∧ t.pav p.val = some u
      ∧ ∃ x ∈ u.colls, x.op = op ∧ x.reduce = false ∧ x.done = false ∧ x.startedAt = s.clock := by
  obtain ⟨-, hl, hm⟩ := State.collStart_some hs
  obtain ⟨-, -, c, hc, hg⟩ := State.placeOwn_gathers hs hclear (fun x hx => (List.mem_filter.mp hx).2) r.handle
    (mine := (l.tensorShards (h.image.op op).a).filter fun x => s.ownsIn l x.1)
  obtain rfl := hg.op
  obtain ⟨rest, un, last, hsent, -, -, -⟩ := hc.flushColl
  obtain ⟨htook, -⟩ := hsent.takeHeld hheld
  obtain ⟨x, hx, hfar, hpos⟩ := hothers
  have hshort : coveredIn c.placed x.1 ≠ pieceElems m (h.image.dims (h.image.op c.op).a) x.2 := by
    rw [coveredIn_of_absent fun y hy he => by
      have := hg.placed y hy
      rw [he, hfar] at this
      cases this]
    exact (Nat.ne_of_gt hpos).symm
  have hcheck := State.hasColl.gather_waits hl hm (c := { c with outbox := rest, unacked := un, lastMsg := last }) hg.done
    htook hg.reduce ⟨x, hx, hshort⟩
  obtain ⟨u, r', hr, hu⟩ := id htook
  refine ⟨_, u, (gatherShards_eq hs hlevel hwin hread).trans (congrArg _ hcheck), (State.pav_of_runOf hr).1,
    { c with outbox := rest, unacked := un, lastMsg := last }, ?_, rfl, hg.reduce, hg.done, hg.startedAt⟩
  rw [hu.colls]
  exact List.mem_append_right _ (List.mem_singleton.mpr rfl)

end

end Sys2Proof.Machine
end

section
/-! PROOFS. O49: collective messages (R309, R351 to R357), their endings and the progress time (R360, R361). -/

namespace Sys2Proof.Machine

/-! ### Data messages (R309, R354, R357) -/

/-- The data messages of a collective, each with its packet TYPE. -/
theorem dataMessage_arrives {p : Fin 8} {m : CollMsg} {i : Instr} {type : Nat}
    (hi : (i, type) ∈ [(Instr.chainSum p m, 0x20), (.chainResult p m, 0x21), (.gatherPiece p m, 0x22)]) (s : State) :
    exec i s = .next (s.collArrive p.val type m) := by
  simp only [List.mem_cons, Prod.mk.injEq, List.not_mem_nil, or_false] at hi
  rcases hi with ⟨rfl, rfl⟩ | ⟨rfl, rfl⟩ | ⟨rfl, rfl⟩ <;> rfl

/-- An operation of the pavilion is in progress. -/
def Pav.collActive (v : Pav) (op : Nat) : Bool := v.colls.any fun c => c.op == op && !c.done
/-- The run in progress has still to finish the operation. -/
def Pav.opAhead (v : Pav) (op : Nat) : Bool := v.run.any fun r => !r.finished.contains op

theorem Layout.takes_of_eq {l : Layout} {m : CollMsg} (hj : m.job = l.job) (he : m.epoch = l.epoch) : l.takes m = true := by
  simp [Layout.takes, hj, he]

theorem Pav.collActive_iff {v : Pav} {op : Nat} : v.collActive op = true ↔ ∃ x ∈ v.colls, x.op = op ∧ x.done = false := by
  simp [Pav.collActive]

section
variable {p : Nat} {s : State} {v : Pav} {l : Layout} {m : CollMsg} {type : Nat} (hv : s.pav p = some v)
  (hl : v.reshape.active = some l) (hshut : s.shut p = false)
include hv hl hshut

/-- A message of the job: passed on, taken or held. -/
theorem State.collArrive_of_takes (htakes : l.takes m = true) : s.collArrive p type m =
    match s.relayTo l type m with
    | some d => ((s.count (ctrId (placeHub 0 6 0) 6 1) (collBytes type m)).count (ctrId (placeHub 0 6 0) 6 18) 1).trySend
        p d (collBytes type m) 0 (.coll d 0x20 m)
    | none =>
      if m.jobStep = v.reshape.jobStep ∧ v.collActive m.opIndex then s.takeMsg p type m
      else if (m.jobStep = v.reshape.jobStep ∧ (v.opAhead m.opIndex ∨ v.run.isNone)) ∨ m.jobStep = v.reshape.jobStep + 1 then
        s.modPav p fun v => { v with held := v.held ++ [(type, m)] }
      else s := by
  simp only [State.collArrive, hshut, Bool.false_eq_true, if_false, hv, hl, htakes, Bool.not_true]
  rfl

theorem State.collArrive_relays (htakes : l.takes m = true) {d : Nat} (hrelay : s.relayTo l type m = some d) :
    s.collArrive p type m = ((s.count (ctrId (placeHub 0 6 0) 6 1) (collBytes type m)).count
      (ctrId (placeHub 0 6 0) 6 18) 1).trySend p d (collBytes type m) 0 (.coll d 0x20 m) := by
  rw [State.collArrive_of_takes hv hl hshut htakes, hrelay]

theorem State.collArrive_reaches (htakes : l.takes m = true) (hrelay : s.relayTo l type m = none)
    (hstep : m.jobStep = v.reshape.jobStep) (hactive : v.collActive m.opIndex = true) :
    s.collArrive p type m = s.takeMsg p type m := by
  rw [State.collArrive_of_takes hv hl hshut htakes, hrelay]
  exact if_pos ⟨hstep, hactive⟩

theorem State.collArrive_holds (htakes : l.takes m = true) (hrelay : s.relayTo l type m = none)
    (hahead : m.jobStep = v.reshape.jobStep + 1 ∨ m.jobStep = v.reshape.jobStep ∧ v.collActive m.opIndex = false
      ∧ (v.opAhead m.opIndex = true ∨ v.run = none)) :
    s.collArrive p type m = s.modPav p fun v => { v with held := v.held ++ [(type, m)] } := by
  have hnow : ¬(m.jobStep = v.reshape.jobStep ∧ v.collActive m.opIndex = true) := by
    rintro ⟨hstep, hactive⟩
    rcases hahead with hnext | ⟨-, hidle, -⟩
    · bv_omega
    · rw [hidle] at hactive; cases hactive
  rw [State.collArrive_of_takes hv hl hshut htakes, hrelay]
  refine (if_neg hnow).trans (if_pos ?_)
  rcases hahead with hnext | ⟨hstep, -, hrun⟩
  · exact .inr hnext
  · exact .inl ⟨hstep, hrun.imp_right (by rintro h; rw [h]; rfl)⟩

/-- A message of another JOB_ID or EPOCH ends an operation in progress; else it is answered, and held for one that is
ahead (log 53). -/
theorem State.collArrive_of_mismatch (htakes : l.takes m = false) : s.collArrive p type m =
    if v.collActive m.opIndex then s.failColl p m.opIndex 3 m.src
    else
      let t := s.trySend p m.src 32 4 (.coll m.src 0x24 (collMsg s.ownId v l m.opIndex 0 0 0 []))
      if v.opAhead m.opIndex then t.modPav p fun v => { v with held := v.held ++ [(type, m)] } else t := by
  simp only [State.collArrive, hshut, Bool.false_eq_true, if_false, hv, hl, htakes, Bool.not_false, if_true]
  rfl

end

/-! ### Acknowledgements, COLL_ABORT and silence (R354, R360, R361) -/

section
variable {p : Fin 8} {s : State} {v : Pav} {l : Layout} {m : CollMsg}

/-- Two changes of a pavilion that agree on it. -/
theorem State.modPav_congr {s : State} {p : Nat} {v : Pav} (hv : s.pav p = some v) {f g : Pav → Pav} (hfg : f v = g v) :
    s.modPav p f = s.modPav p g := by
  rw [State.pav] at hv
  simp only [State.modPav, hv, hfg]

theorem collAck_eq (hv : s.pav p.val = some v) (hshut : s.shut p.val = false) {x : Coll}
    (hx : (v.colls.find? fun c => c.op == m.opIndex) = some x) {hit : Nat × Nat × Nat × Nat → Bool}
    (hhit : hit = fun u => u.1 == m.src && u.2.1 == m.shard && u.2.2.1 == m.elemOffset) (hany : x.unacked.any hit = true) :
    exec (.collAck p m) s = .next (((s.modColl p.val x.op fun c => { c with
      unacked := c.unacked.eraseP hit, lastMsg := s.clock }).flushColl p.val x.op).collCheck p.val x.op) := by
  subst hhit
  have hexec : exec (.collAck p m) s = execCollAck p m s := rfl
  simp only [hexec, execCollAck, hshut, Bool.false_eq_true, if_false, hv, Option.bind_some, hx, hany, Bool.not_true]

variable (hv : s.pav p.val = some v) (hl : v.reshape.active = some l) (hshut : s.shut p.val = false)
include hv hl hshut

/-- COLL_ABORT of an operation in progress ends it: with cause 2, or with cause 3 where it is of another JOB_ID or EPOCH. -/
theorem collAbort_of_active (hstep : l.takes m = true → m.jobStep = v.reshape.jobStep)
    (hactive : v.collActive m.opIndex = true) : exec (.collAbort p m) s = .next
      (s.failColl p.val m.opIndex (if l.takes m then 2 else 3) m.src) := by
  have hexec : exec (.collAbort p m) s = execCollAbort p m s := rfl
  have hactive' : (v.colls.any fun c => c.op == m.opIndex && !c.done) = true := hactive
  simp only [hexec, execCollAbort, hshut, Bool.false_eq_true, if_false, hv, hl, hactive', if_true]
  cases htakes : l.takes m with
  | false => rfl
  | true => exact if_neg (not_not_intro (hstep htakes))

/-- COLL_ABORT of an operation that is not in progress discards what is held or still to be sent of it, and is held for one
that is ahead (log 53). -/
theorem collAbort_of_idle (htakes : l.takes m = true) (hstep : m.jobStep = v.reshape.jobStep)
    (hidle : v.collActive m.opIndex = false) :
    exec (.collAbort p m) s = .next ((s.dropColl p.val m.opIndex).modPav p.val fun v => { v with
      held := v.held.filter (fun x => !(x.2.opIndex == m.opIndex && x.2.jobStep == m.jobStep))
        ++ if (v.run.any fun r => !r.finished.contains m.opIndex) = true then [(0x24, m)] else [] }) := by
  have hexec : exec (.collAbort p m) s = execCollAbort p m s := rfl
  have hidle' : (v.colls.any fun c => c.op == m.opIndex && !c.done) = false := hidle
  have hdrop : (s.dropColl p.val m.opIndex).pav p.val = some { v with colls := v.colls.filter fun c => c.op != m.opIndex } := by
    rw [State.dropColl, State.modPav_self, hv, Option.map_some]
  simp only [hexec, execCollAbort, hshut, Bool.false_eq_true, if_false, hv, hl, hidle', htakes, Bool.not_true, hstep, ne_eq,
    not_true_eq_false]
  exact congrArg _ (State.modPav_congr hdrop rfl)

end

/-- After a silence of the progress time a collective in progress fails with cause 1. -/
theorem collectiveTimeout_fails {p : Fin 8} {op : Nat} {s : State} {v : Pav} {r : Run} {h : Handle} {l : Layout} {x : Coll}
    (hr : s.runOf p.val = some (v, r, h)) (hl : v.reshape.active = some l) (hx : s.coll p.val op = some x)
    (hdone : x.done = false) (hlate : x.lastMsg + r.progressMs * 1000000 ≤ s.clock) :
    ∃ peer, exec (.collectiveTimeout p op) s = .next (s.failColl p.val op 1 peer) := by
  have hexec : exec (.collectiveTimeout p op) s = execCollectiveTimeout p op s := rfl
  simp only [hexec, execCollectiveTimeout, hr, hx, hdone, Nat.not_lt.mpr hlate, decide_false, Bool.or_self,
    Bool.false_eq_true, if_false, hl]
  exact ⟨_, rfl⟩

end Sys2Proof.Machine

open Sys2Proof Sys2Proof.Machine

/-! ### O49 -/

/-- Settles O49: a collective that starts is open and waits, each message is one equation per branch, and a collective that
fails ends its run. -/
theorem collectivesRunAndEnd : Obligations.CollectivesRunAndEnd := by
  intro p s v l hv hl step
  refine ⟨fun op r h m hheld hlevel => ⟨fun hs => ⟨fun hpos hsome => ?_, fun hpos hnext hnd hsome => ?_⟩,
      fun hs hwin hread hclear hothers => gatherShards_opens hs hheld hlevel hwin hread hclear hothers⟩,
    fun m i type hshut hi => ⟨fun hj he hrelay => ⟨fun hstep hactive => ?_, fun hahead => ?_⟩, fun hj he d hrelay => ?_,
      fun htakes hactive => ?_, fun htakes hidle => ?_⟩,
    fun m x hshut hx hany => collAck_eq hv hshut hx rfl hany,
    fun m hshut => ⟨fun r h hr hstep hactive => ?_, fun htakes hstep hidle => ?_⟩,
    fun op x r h hr hx hdone hlate => ?_⟩
  · obtain ⟨t, u, hexec, hu, hc, hledger⟩ := reduceScatter_waits hs hheld hlevel hsome hpos
    exact ⟨t, u, hexec, hu, hc, State.scattering_shard hledger⟩
  · obtain ⟨d, hd⟩ := Option.isSome_iff_exists.mp hnext
    obtain ⟨t, u, y, hexec, hu, hc, hop, hdone, hwait, hcov, hledger⟩ := reduceScatter_starts hs hheld hlevel hsome hpos hd hnd
    exact ⟨t, u, y, hexec, hu, hc, hop, hdone, hwait, hcov, State.scattering_shard hledger⟩
  · rw [dataMessage_arrives hi, State.collArrive_reaches hv hl hshut (Layout.takes_of_eq hj he) hrelay hstep hactive]
  · rw [dataMessage_arrives hi, State.collArrive_holds hv hl hshut (Layout.takes_of_eq hj he) hrelay hahead]
  · rw [dataMessage_arrives hi, State.collArrive_relays hv hl hshut (Layout.takes_of_eq hj he) hrelay]
  · rw [dataMessage_arrives hi, State.collArrive_of_mismatch hv hl hshut htakes]
    exact congrArg _ (if_pos hactive)
  · rw [dataMessage_arrives hi, State.collArrive_of_mismatch hv hl hshut htakes]
    exact congrArg _ (if_neg (Bool.eq_false_iff.mp hidle))
  · obtain ⟨u, hu⟩ := State.failColl_ends hr m.opIndex (if l.takes m then 2 else 3) m.src
    exact ⟨_, u, collAbort_of_active hv hl hshut hstep (Pav.collActive_iff.mpr hactive), hu⟩
  · exact collAbort_of_idle hv hl hshut htakes hstep (Bool.eq_false_iff.mpr fun ha => by
      obtain ⟨x, hx, hop, hopen⟩ := Pav.collActive_iff.mp ha
      rw [hidle x hx hop] at hopen
      cases hopen)
  · obtain ⟨peer, hexec⟩ := collectiveTimeout_fails hr hl hx hdone hlate
    obtain ⟨u, hu⟩ := State.failColl_ends hr op 1 peer
    exact ⟨_, u, hexec, hu⟩
end

section
/-! PROOFS. O48: the layouts of a pavilion through a reshape, its commit, its abort and its release (R303, R308 to R311). -/

namespace Sys2Proof.Machine

/-! ### The reshape record of a pavilion (R303) -/

/-- The reshape record of a pavilion that exists. -/
def State.reshapeOf (s : State) (p : Nat) : Option Reshape := (s.pav p).map (·.reshape)

section
variable {s t : State} {p : Nat} {v : Pav}

theorem State.reshapeOf_of_pav (hv : s.pav p = some v) : s.reshapeOf p = some v.reshape := by
  rw [State.reshapeOf, hv, Option.map_some]

theorem State.pav_of_reshapeOf {x : Reshape} (h : s.reshapeOf p = some x) : ∃ u, s.pav p = some u ∧ u.reshape = x :=
  Option.map_eq_some_iff.mp h

theorem State.reshapeOf_of_pavsKept (h : t.pavsKept = s.pavsKept) : t.reshapeOf p = s.reshapeOf p := by
  have hr : ∀ u : State, u.reshapeOf p = (u.pavsKept p).map (·.reshape) := fun u => by
    rw [State.reshapeOf, State.pavsKept, Option.map_map]
    rfl
  rw [hr t, h, hr s]

theorem State.reshapeOf_modPav {f : Pav → Pav} {x y : Reshape} (hx : s.reshapeOf p = some x)
    (hf : ∀ v, v.reshape = x → (f v).reshape = y) : (s.modPav p f).reshapeOf p = some y := by
  obtain ⟨v, hv, hvx⟩ := State.pav_of_reshapeOf hx
  rw [State.reshapeOf, State.modPav_self, hv]
  exact congrArg some (hf v hvx)

/-- Entering a reshape state changes STATE alone of the record; its event changes no pavilion. -/
theorem State.reshapeOf_reshapeTo {x : Reshape} (hx : s.reshapeOf p = some x) (st epoch : Nat) :
    (s.reshapeTo p st epoch).reshapeOf p = some { x with state := st } :=
  (State.reshapeOf_of_pavsKept (State.pavsKept_of_quiet (State.quiet_postPav ..))).trans
    (State.reshapeOf_modPav hx fun _ hv => by rw [hv])

theorem State.pavsKept_modShards (ns : List Nat) (f : Rec → Rec) :
    (forEach ns (fun s n => s.modShard n f) s).pavsKept = s.pavsKept :=
  forEach_keep (g := State.pavsKept) (f := fun s n => s.modShard n f) (fun _ _ => rfl) ns s

theorem State.ledger_reshapeTo (st epoch : Nat) : (s.reshapeTo p st epoch).ledger = s.ledger :=
  (congrArg State.ledger (State.quiet_postPav ..) :)

theorem State.reshapeOf_finish (c : Cmd) (l : List Byte) : (s.finish c l).reshapeOf p = s.reshapeOf p :=
  State.reshapeOf_of_pavsKept (s.pavsKept_finish ..)

theorem State.ledger_finish (c : Cmd) (l : List Byte) : (s.finish c l).ledger = s.ledger :=
  (congrArg State.ledger (s.still_finish ..) :)

theorem State.shard_of_ledger (h : t.ledger = s.ledger) (n : Nat) : t.shard n = s.shard n := by
  rw [State.shard, State.shard, h]

end

/-! ### Shards that are given up (R310, R311) -/

theorem State.pavsKept_dropShard (s : State) (n : Nat) : (s.dropShard n).pavsKept = s.pavsKept := by
  unfold State.dropShard
  dsimp only
  split
  · rfl
  · exact (State.pavsKept_freeMem _ _ _ :).trans (s.pavsKept_freeMem _ _)

/-- A shard that was given up is not valid, and no shard becomes valid by it. -/
theorem State.dropShard_invalid {s : State} {n k : Nat} (h : n = k ∨ (s.shard n).valid = false) :
    ((s.dropShard k).shard n).valid = false := by
  unfold State.dropShard
  dsimp only
  split
  · next hk =>
    rcases h with rfl | h
    · simpa using hk
    · exact h
  · by_cases hn : n = k
    · subst hn
      simp [State.shard, State.modLedger, tget]
    · have hold := h.resolve_left hn
      simpa [State.shard, State.modLedger, State.freeMem, tget, hn] using hold

theorem State.dropShards_invalid {ns : List Nat} {n : Nat} (hn : n ∈ ns) (s : State) :
    ((forEach ns (fun s n => s.dropShard n) s).shard n).valid = false := by
  induction ns generalizing s with
  | nil => cases hn
  | cons k ns ih =>
    rw [forEach_cons]
    rcases List.mem_cons.mp hn with rfl | hn
    · exact forEach_inv (P := fun s : State => (s.shard n).valid = false) (fun s k hs => State.dropShard_invalid (.inr hs)) ns _
        (State.dropShard_invalid (.inl rfl))
    · exact ih hn _

/-! ### RESHAPE_COMMIT (R308) -/

section
variable {s : State} {c : Cmd} {v : Pav} {l : Layout}

/-- The record of a reshape whose pending layout becomes the active one. -/
def Reshape.committed (x : Reshape) (l : Layout) : Reshape :=
  { x with
    previous := x.active, active := some l, pending := none, commitAt := none, jobStep := 0
    previousStep := x.jobStep, sealedInEpoch := false }

/-- A commit makes the pending layout the active one and completes its command. -/
theorem State.reshapeCommit_spec {p : Nat} (hv : s.pav p = some v) (hl : v.reshape.pending = some l) :
    (s.reshapeCommit p c).reshapeOf p = some { v.reshape.committed l with state := 3 }
      ∧ (s.reshapeCommit p c).cmd c.serial = none := by
  have hkept : (forEach v.reshape.arrived (fun s n => s.modShard n fun r => { r with migrating := false }) s).reshapeOf p
      = some v.reshape :=
    (State.reshapeOf_of_pavsKept (State.pavsKept_modShards ..)).trans (State.reshapeOf_of_pav hv)
  simp only [State.reshapeCommit, hv, hl]
  refine ⟨?_, State.finish_cmd_self ..⟩
  rw [State.reshapeOf_finish, State.reshapeOf_reshapeTo (x := v.reshape.committed l)]
  exact State.reshapeOf_modPav hkept fun _ _ => rfl

/-- The AT_TIME of RESHAPE_COMMIT: 0, at once, in the basic form. -/
def Cmd.commitTime (c : Cmd) : Nat := if c.expert = true then c.word 1 else 0

variable (hv : s.pav c.pavilion = some v) (hl : v.reshape.pending = some l) (hready : v.reshape.state = 2)
  (hfree : v.reshape.commitAt = none) (hepoch : l.epoch = bits (c.word 0) 63 32)
include hv hl hready hfree hepoch

/-- RESHAPE_COMMIT in READY, for the pending epoch, goes by AT_TIME. -/
theorem bodyReshapeCommit_of_ready : bodyReshapeCommit s c =
    if c.commitTime = 0 then .ok (s.reshapeCommit c.pavilion c)
    else (do
      need s.timeOn (c.bad 0x01F0 1 1)
      need (decide (s.now ≤ c.commitTime)) (c.bad 0x01D0 1 6)
      .ok ((s.started c).modPav c.pavilion fun v => { v with
        reshape := { v.reshape with commitAt := some (c.serial, c.commitTime) } })) := by
  unfold bodyReshapeCommit
  dsimp only
  rw [hv]
  dsimp only
  rw [need_of (by simp [hready]), need_of (by simp [hready, hfree]), need_of (by simp [hl, hepoch])]
  rfl

theorem bodyReshapeCommit_now (hat : c.commitTime = 0) : bodyReshapeCommit s c = .ok (s.reshapeCommit c.pavilion c) :=
  (bodyReshapeCommit_of_ready hv hl hready hfree hepoch).trans (if_pos hat)

theorem bodyReshapeCommit_later (hat : c.commitTime ≠ 0) (hon : s.timeOn = true) (hnow : s.now ≤ c.commitTime) :
    bodyReshapeCommit s c = .ok ((s.started c).modPav c.pavilion fun v => { v with
      reshape := { v.reshape with commitAt := some (c.serial, c.commitTime) } }) := by
  rw [bodyReshapeCommit_of_ready hv hl hready hfree hepoch, if_neg hat, need_of hon, need_of (decide_eq_true hnow)]
  rfl

end

/-- Building time reaches AT_TIME: the armed commit takes effect. -/
theorem reshapeCommitAt_eq {q : Fin 8} {s : State} {v : Pav} {c : Cmd} {id at_ : Nat} (hv : s.pav q.val = some v)
    (harmed : v.reshape.commitAt = some (id, at_)) (hc : s.cmd id = some c) (hdue : at_ ≤ s.now) :
    exec (.reshapeCommitAt q) s = .next (s.reshapeCommit q.val c) := by
  change execReshapeCommitAt q s = _
  simp only [execReshapeCommitAt, hv, Option.bind_some, harmed, hc, if_pos hdue]

/-! ### RESHAPE_ABORT (R310) -/

section
variable {s : State} {c : Cmd} {v : Pav}

/-- The record of a reshape that is given up: the layout before it, its JOB_STEP, and nothing of the transfer. -/
def Reshape.aborted (x : Reshape) : Reshape :=
  { state := x.state
    active := if x.state = 3 then x.previous else x.active
    jobStep := if x.state = 3 then x.previousStep else x.jobStep
    sealedInEpoch := x.state != 3 && x.sealedInEpoch }

/-- The EPOCH of the layout that an abort gives up. -/
def Reshape.goneEpoch (x : Reshape) : Nat := ((if x.state = 3 then x.active else x.pending).map (·.epoch)).getD 0

/-- What an abort does before it returns to the old layout: the reshape's commands end, what has arrived is given up, and
what was leaving stays. -/
def State.withdraw (s : State) (p status : Nat) (cause : Option Cmd) (x : Reshape) : State :=
  let s := forEach ([x.cmd, x.commitAt.map (·.1)].filterMap id) (fun s id => match s.cmd id with
    | some c => s.abort c status (pavTarget p) cause
    | none => s) s
  let s := forEach x.arrived (fun s n => s.dropShard n) s
  forEach (s.shardsOf p) (fun s n => s.modShard n fun r => { r with migrating := false }) s

theorem State.pavsKept_withdraw (p status : Nat) (cause : Option Cmd) (x : Reshape) :
    (s.withdraw p status cause x).pavsKept = s.pavsKept := by
  unfold State.withdraw
  extract_lets s₁ s₂
  have h₁ : s₁.pavsKept = s.pavsKept := by
    refine forEach_keep (g := State.pavsKept) (fun s id => ?_) _ s
    split
    · exact s.pavsKept_abort ..
    · rfl
  have h₂ : s₂.pavsKept = s₁.pavsKept := forEach_keep (g := State.pavsKept) (fun s n => s.pavsKept_dropShard n) _ s₁
  exact (State.pavsKept_modShards ..).trans (h₂.trans h₁)

theorem State.reshapeAbort_state {p : Nat} (hv : s.pav p = some v) (status : Nat) (cause : Option Cmd) :
    (s.reshapeAbort p status cause).1 = ((s.withdraw p status cause v.reshape).modPav p fun u => { u with
      reshape := v.reshape.aborted }).reshapeTo p 0 v.reshape.goneEpoch := by
  unfold State.reshapeAbort
  rw [hv]
  rfl

theorem State.reshapeAbort_reshape {p : Nat} (hv : s.pav p = some v) (status : Nat) (cause : Option Cmd) :
    (s.reshapeAbort p status cause).1.reshapeOf p = some { v.reshape.aborted with state := 0 } := by
  have hold : (s.withdraw p status cause v.reshape).reshapeOf p = some v.reshape :=
    (State.reshapeOf_of_pavsKept (State.pavsKept_withdraw ..)).trans (State.reshapeOf_of_pav hv)
  rw [State.reshapeAbort_state hv, State.reshapeOf_reshapeTo (x := v.reshape.aborted)]
  exact State.reshapeOf_modPav hold fun _ _ => rfl

/-- What a permitted RESHAPE_ABORT reports: the EPOCH returned to and the shards given up. -/
def State.abortResult (a : State × Nat) (p : Nat) : List Byte :=
  pack [(4, ((a.1.pav p).bind fun v => v.reshape.active.map (·.epoch)).getD 0), (4, a.2)]

theorem bodyReshapeAbort_ok (hv : s.pav c.pavilion = some v) (hok : v.abortReason = none) (hbound : v.atBoundary = true) :
    bodyReshapeAbort s c = .ok ((s.reshapeAbort c.pavilion 0x0303 (some c)).1.finish c
      (State.abortResult (s.reshapeAbort c.pavilion 0x0303 (some c)) c.pavilion)) := by
  unfold bodyReshapeAbort
  dsimp only
  rw [hv]
  dsimp only
  rw [hok]
  dsimp only
  rw [need_of hbound]
  rfl

/-! ### RESHAPE_RELEASE (R311) -/

/-- The record of a reshape that ends: no way back to the layout before it, and nothing of the transfer. -/
def Reshape.released (x : Reshape) : Reshape :=
  { x with previous := none, sent := [], unacked := [], expect := [], arrived := [], retried := [] }

/-- The shards of a pavilion that have left it. -/
def State.departed (s : State) (p : Nat) : List Nat := (s.shardsOf p).filter fun n => (s.shard n).migrating

/-- The end of a reshape: what has left is given up, and the record returns to NONE. -/
def State.releaseShards (s : State) (p epoch : Nat) : State :=
  ((forEach (s.departed p) (fun s n => s.dropShard n) s).modPav p fun v => { v with
    reshape := v.reshape.released }).reshapeTo p 0 epoch

theorem State.releaseShards_reshape {p : Nat} (hv : s.pav p = some v) (epoch : Nat) :
    (s.releaseShards p epoch).reshapeOf p = some { v.reshape.released with state := 0 } := by
  have hold : (forEach (s.departed p) (fun s n => s.dropShard n) s).reshapeOf p = some v.reshape :=
    (State.reshapeOf_of_pavsKept (forEach_keep (g := State.pavsKept) (fun s n => s.pavsKept_dropShard n) _ s)).trans
      (State.reshapeOf_of_pav hv)
  rw [State.releaseShards, State.reshapeOf_reshapeTo (x := v.reshape.released)]
  exact State.reshapeOf_modPav hold fun _ hu => congrArg Reshape.released hu

theorem State.releaseShards_invalid {p n : Nat} (hn : n ∈ s.departed p) (epoch : Nat) :
    ((s.releaseShards p epoch).shard n).valid = false := by
  rw [State.releaseShards, State.shard_of_ledger (State.ledger_reshapeTo ..)]
  exact State.dropShards_invalid hn s

theorem bodyReshapeRelease_ok (hv : s.pav c.pavilion = some v) (hstate : v.reshape.state = 3)
    (hepoch : v.reshape.active.map (·.epoch) = some (bits (c.word 0) 63 32)) :
    bodyReshapeRelease s c = .ok ((s.releaseShards c.pavilion (bits (c.word 0) 63 32)).finish c
      (pack [(4, (s.departed c.pavilion).length)])) := by
  unfold bodyReshapeRelease
  dsimp only
  rw [hv]
  dsimp only
  rw [need_of (by simp [hstate]), need_of (by simp [hepoch])]
  rfl

/-! ### LAYOUT_QUERY (R313) -/

/-- The fields that both forms of LAYOUT_QUERY report. -/
def State.layoutReport (s : State) (p : Nat) (x : Reshape) : List Byte :=
  let f := (x.active.map fun l => l.held s.ownId).getD (0, 0)
  pack [(4, (x.active.map (·.job)).getD 0), (4, (x.active.map (·.epoch)).getD 0), (4, f.1), (4, f.2),
    (4, s.shardsHeld p), (1, x.state), (3, 0), (4, (x.pending.map (·.epoch)).getD 0),
    (4, (x.active.map (·.holders.length)).getD 0)]

theorem bodyLayoutQuery_basic (hv : s.pav c.pavilion = some v) (hx : c.expert = false) :
    bodyLayoutQuery s c = .ok (s.finish c (s.layoutReport c.pavilion v.reshape)) := by
  simp only [bodyLayoutQuery, hv, hx]
  rfl

/-- A range that the function may write takes its bytes. -/
theorem State.toBuffer_ok {i a align : Nat} {l : List Byte} (ha : a % align = 0) (htakes : s.takes c a l.length) :
    s.toBuffer c i a l align = .ok (s.writeMem a l) := by
  unfold State.toBuffer
  rw [State.checkAddr_ok ha htakes.1, htakes.2]
  rfl

/-- The expert form also writes the layout block that it asks for. -/
theorem bodyLayoutQuery_expert (hv : s.pav c.pavilion = some v) (hx : c.expert = true) {l : List Byte}
    (hl : ((if bitAt (c.word 1) 0 = true then v.reshape.pending else v.reshape.active).map (·.bytes)).getD [] = l)
    (htakes : s.takes c (c.word 0) l.length) : bodyLayoutQuery s c
      = .ok ((s.writeMem (c.word 0) l).finish c (s.layoutReport c.pavilion v.reshape ++ pack [(4, l.length)])) := by
  simp only [bodyLayoutQuery, hv, hx, hl, State.toBuffer_ok (Nat.mod_one _) htakes]
  rfl

end

end Sys2Proof.Machine

open Sys2Proof Sys2Proof.Machine

/-! ### O48 -/

/-- Settles O48: each command's body is computed where it is permitted, and the record of the reshape is read back. -/
theorem reshapesCommitAndEnd : Obligations.ReshapesCommitAndEnd := by
  intro id c s v p at_ committed hv
  have hcommit : ∀ (c' : Cmd) (l : Layout), c'.serial = id → v.reshape.pending = some l →
      committed (s.reshapeCommit p c') l := fun c' l hid hl => by
    obtain ⟨hx, hgone⟩ := State.reshapeCommit_spec (c := c') hv hl
    obtain ⟨u, hu, hux⟩ := State.pav_of_reshapeOf hx
    refine ⟨u, hu, ?_⟩
    rw [hux]
    exact ⟨rfl, rfl, rfl, rfl, rfl, hid ▸ hgone⟩
  refine ⟨fun l hl hready => ⟨fun hdue hfree hepoch => ⟨fun hat => ?_, fun hat hon hnow => ?_⟩,
    fun q at1 hq harmed hc hnow => ?_⟩, fun hdue hok hbound => ?_,
    fun hdue hstate hepoch => ?_, fun hdue => ⟨fun hx => ?_, fun hx htakes => ?_⟩⟩
  · exact ⟨_, congrArg Host.Outcome.next (State.startCmd_ok hdue (bodyReshapeCommit_now hv hl hready hfree hepoch hat)),
      hcommit c l (State.cmd_serial hdue.1) hl⟩
  · rw [← State.cmd_serial hdue.1]
    exact congrArg Host.Outcome.next (State.startCmd_ok (State.cmd_serial hdue.1 ▸ hdue)
      (bodyReshapeCommit_later hv hl hready hfree hepoch hat hon hnow))
  · refine ⟨_, reshapeCommitAt_eq (hq ▸ hv) harmed hc hnow, ?_⟩
    rw [hq]
    exact hcommit c l (State.cmd_serial hc) hl
  · obtain ⟨u, hu, hux⟩ := State.pav_of_reshapeOf
      ((State.reshapeOf_finish ..).trans (State.reshapeAbort_reshape hv 0x0303 (some c)))
    refine ⟨_, u, congrArg Host.Outcome.next (State.startCmd_ok hdue (bodyReshapeAbort_ok hv hok hbound)),
      State.cmd_serial hdue.1 ▸ State.finish_cmd_self .., hu, ?_⟩
    rw [hux]
    exact ⟨rfl, rfl, rfl, rfl⟩
  · obtain ⟨u, hu, hux⟩ := State.pav_of_reshapeOf
      ((State.reshapeOf_finish ..).trans (State.releaseShards_reshape hv (bits (c.word 0) 63 32)))
    refine ⟨_, u, congrArg Host.Outcome.next (State.startCmd_ok hdue (bodyReshapeRelease_ok hv hstate hepoch)),
      State.cmd_serial hdue.1 ▸ State.finish_cmd_self .., hu, ?_⟩
    rw [hux]
    refine ⟨rfl, rfl, rfl, fun n hn hgone => ?_⟩
    rw [State.shard_of_ledger (State.ledger_finish ..)]
    exact State.releaseShards_invalid (List.mem_filter.mpr ⟨hn, hgone⟩) _
  · exact congrArg Host.Outcome.next (State.startCmd_ok hdue (bodyLayoutQuery_basic hv hx))
  · exact congrArg Host.Outcome.next (State.startCmd_ok hdue (bodyLayoutQuery_expert hv hx rfl htakes))
end

section
/-! PROOFS. O47: a state in which the event of OPEN (R303) overwrites the slot of a shard that is about to leave. -/

namespace Sys2Proof.Machine

/-! ### A shard in the ring set's memory

Pavilion 0 holds shard 0, and the event ring of its virtual function on port 0 starts in the slot of that shard. No hypothesis
of O47 keeps the two apart. RESHAPE_BEGIN with VERIFY_SOURCE finds the slot as its DIGEST says, enters OPEN and posts the
event of R303, whose entry lands in the slot; the slot's digest, which is taken when the shard is sent, is another by then,
and the command ends. -/

/-- The layout before: this module, 5, holds the one shard of a 2 × 2 parameter. -/
def clashOld : Layout :=
  { bytes := [], job := 1, epoch := 2, sliceCount := 1, holders := [{ pav := 0, device := 5, firstSlice := 0 }]
    map := [{ initAddr := 0, pieceRows := 2, pieces := 1, cols := 2, layer := 0, tensor := 1, cls := 2, form := 0
              slotTier := false, gradTier := false }]
    perDie := 1, base := 0 }

/-- The block of the layout after (R298): EPOCH 3, and module 6 as its holder. -/
def clashBlock : List Byte :=
  leBytes 48 0x10000000300000001000000800000004000000060000100010000400000000000000000000000000154534C50
    ++ leBytes 16 119305039994277297699671136980832714981 ++ leBytes 8 (6 * 2 ^ 32) ++ List.replicate 24 0
    ++ leBytes 32 (2 * 2 ^ 160 + 2 ^ 128 + 2 * 2 ^ 104 + 2 ^ 76 + 2 * 2 ^ 74)

/-- The layout after. -/
def clashNew : Layout :=
  { clashOld with bytes := clashBlock, epoch := 3, holders := [{ pav := 0, device := 6, firstSlice := 0 }] }

/-- The memory of the ring set. -/
def clashBase : Nat := 4 * gib
/-- The layout block's address. -/
def clashBuffer : Nat := 5 * gib

/-- The open ring set of virtual function 1, which takes every event. -/
def clashRing : RingSet :=
  { ready := true, isOpen := true, eqLog2 := 6, cqLog2 := 7, sqLog2 := 6, base := clashBase, eventMask := 0xFFFF }

/-- Shard 0: its first slot starts with the event ring, and its DIGEST is that of the zeros there. -/
def clashShard : Rec :=
  { slotPage := (clashBase + eqOffset) / 4096, gradPage := (clashBase + 2 * eqOffset) / 4096, length := 4, cols := 2, tensor := 1
    valid := true, cls := 2, state := 4, digest := 114268687748811223277491640801709736057 }

/-- The pavilion, with the layout before as its active one and no run. -/
def clashPav : Pav :=
  { role := 1, homePort := 0, partition := 7, clusters := [0], hbm := [(0, 4), (0, 5)], lpddr := [], dstore := []
    reshape := { active := some clashOld } }

/-- RESHAPE_BEGIN, expert form, with VERIFY_SOURCE. -/
def clashCmd : Cmd :=
  { serial := 1, port := 0, fn := 0, slot := 0, opcode := 0x0430, tag := 5, pavilion := 0, target := 0, deadline := 0
    paramRef := 0, expert := true, fence := false, deferOk := false, notify := false
    params := [clashBuffer, 128, 1], hot := true }

/-- The state: the command is due, the block stands in memory and module 6 can be reached. -/
def clash : State :=
  { pavs := [(0, clashPav)], cmds := [clashCmd], rings := [(1, clashRing)], ledger := { recs := [(0, clashShard)] }
    mem := { cells := cellsPut [] clashBuffer clashBlock }
    route := { active := some { epoch := 2, selfId := 5, accept := []
                                entries := [(6, { port := 3, dateline := true, partition := 7, level2 := false })] } } }

/-- Whether a check passes with a given answer. -/
def chkAnswers {α : Type} [DecidableEq α] (x : Chk α) (a : α) : Bool :=
  match x with
  | .ok b => decide (b = a)
  | .error _ => false

theorem eq_ok_of_chkAnswers {α : Type} [DecidableEq α] {x : Chk α} {a : α} (h : chkAnswers x a = true) : x = .ok a := by
  cases x with
  | error e => cases h
  | ok b => exact congrArg Except.ok (of_decide_eq_true h)

/-- Shard 0 leaves. -/
theorem clash_leaving : ((clash.shardsOf 0).filter fun k => !(clash.shard k).migrating).filter
    (fun k => !clash.ownsIn clashNew k) = [0] := by decide +kernel

/-- The slot is as its DIGEST says when the command starts. -/
theorem clash_digest : slotDigest 0 0 (clash.readArrays clashShard (clashShard.slotAddr false)) = clashShard.digest := by
  decide +kernel

theorem clash_parse : parseLayout (clash.readMem clashBuffer 128) 128 5 0 = .ok clashNew :=
  eq_ok_of_chkAnswers (by decide +kernel)

/-- Shard 0 may be sent: its new holder can be reached, and nothing of it is lost. -/
theorem clash_sendable : (∀ x, clashNew.holderOf (clashNew.owner 0) = some x → clash.reaches x.device = true)
    ∧ (clash.shard 0).damaged = false ∧ ((clash.shard 0).paired = true → (clash.shard 0).mirrorPending = false)
    ∧ clash.badSlot (clash.shard 0) ((clash.shard 0).slotAddr (clash.shard 0).cur) = none := by
  have hholder : clashNew.holderOf (clashNew.owner 0) = some { pav := 0, device := 6, firstSlice := 0 } := by decide
  refine ⟨fun x hx => ?_, rfl, fun _ => rfl, by decide +kernel⟩
  obtain rfl := Option.some.inj (hholder.symm.trans hx)
  decide

/-- The state that the command answers. -/
def clashEnd : State := clash.startCmd 1 0x0430 bodyReshapeBegin

theorem clash_exec : exec (.reshapeBegin 1) clash = .next clashEnd := rfl

/-- The pavilion has no reshape command any more. -/
theorem clash_ends : (clashEnd.reshapeOf 0).map (·.cmd) = some none := by decide +kernel

end Sys2Proof.Machine

open Sys2Proof Sys2Proof.Machine

/-! ### O47 -/

/-- Refutes O47: the event of OPEN is written into the slot of a shard in the event ring's memory, so that under
VERIFY_SOURCE the command does not stay open. -/
theorem not_reshapesMoveShards : ¬ Obligations.ReshapesMoveShards := by
  intro h
  have hdue : clash.due 1 0x0430 clashCmd := by decide +kernel
  have hrange : clash.badRange 0 0 clashBuffer 128 = none := by decide +kernel
  have hread : clash.badRead clashBuffer 128 = none := by decide +kernel
  have hfits : clash.layoutRelation 0 clashPav clashNew false = .ok () :=
    eq_ok_of_chkAnswers (by decide +kernel)
  obtain ⟨t, u, hexec, hu, -, -, hopen, -⟩ := (h.1 1 clashCmd clash clashPav hdue rfl rfl rfl rfl (by decide) (by decide)
    hrange hread clashNew clash_parse hfits (by decide +kernel) (by decide +kernel) (fun k hk => by
      have hk : k ∈ [0] := clash_leaving ▸ hk
      obtain rfl := List.mem_singleton.mp hk
      obtain ⟨hreach, hgood, hpair, hslot⟩ := clash_sendable
      exact ⟨hreach, hgood, hpair, hslot, fun _ => clash_digest⟩)).1 rfl
  obtain rfl : clashEnd = t := Host.Outcome.next.inj (clash_exec.symm.trans hexec)
  have hcmd : u.reshape.cmd = some 1 := (hopen fun hnone =>
    List.cons_ne_nil 0 [] (clash_leaving.symm.trans (List.append_eq_nil_iff.mp hnone).1)).2.1
  have hend : (clashEnd.reshapeOf clashCmd.pavilion).map (·.cmd) = some none := clash_ends
  rw [State.reshapeOf_of_pav hu, Option.map_some, hcmd] at hend
  cases hend
end

section
/-! PROOFS. O1, O59 and O60: what every command answers, and the queue (log 4). One lemma for each operation of the state,
for each body of a command and for each command says that it leaves the queue as it is. -/

namespace Sys2Proof.Machine

/-- Whatever state the check lets through has the queue `q`. -/
def ChkKeeps (q : List Instr) (x : Chk State) : Prop := ∀ t, x = .ok t → t.pending = q

/-- The command answers a next state, and that state has the queue `q`. -/
def Answers (q : List Instr) (o : Host.Outcome State Fault Refusal) : Prop := ∃ t, o = .next t ∧ t.pending = q

@[simp] theorem answers_next (q : List Instr) (t : State) : Answers q (.next t) ↔ t.pending = q :=
  ⟨fun ⟨_, h, hq⟩ => by cases h; exact hq, fun h => ⟨t, rfl, h⟩⟩

@[simp] theorem chkKeeps_ok (q : List Instr) (t : State) : ChkKeeps q (.ok t) ↔ t.pending = q :=
  ⟨fun h => h t rfl, fun h _ e => by cases e; exact h⟩
@[simp] theorem chkKeeps_error (q : List Instr) (r : Rej) : ChkKeeps q (.error r) ↔ True :=
  ⟨fun _ => trivial, fun _ _ e => by cases e⟩

/-- What follows a check keeps the queue where it does after every answer of the check. -/
theorem ChkKeeps.bind {α : Type} {q : List Instr} {x : Chk α} {f : α → Chk State} (h : ∀ a, x = .ok a → ChkKeeps q
    (f a)) :
    ChkKeeps q (x >>= f) := by
  cases x with
  | error r => exact (chkKeeps_error q r).mpr trivial
  | ok a => exact h a rfl

/-- The same where the check answers no state. -/
@[simp] theorem chkKeeps_bind {α : Type} {q : List Instr} {x : Chk α} {f : α → Chk State} (h : ∀ a, ChkKeeps q (f a)) :
    ChkKeeps q (x >>= f) := ChkKeeps.bind fun a _ => h a

/-- A choice between two checks keeps the queue where both do. -/
theorem chkKeeps_ite {q : List Instr} {p : Prop} [Decidable p] {x y : Chk State} (hx : ChkKeeps q x)
    (hy : ChkKeeps q y) :
    ChkKeeps q (if p then x else y) := by
  split
  · exact hx
  · exact hy

/-- A choice between two answers keeps the queue where both do. -/
theorem answers_ite {q : List Instr} {p : Prop} [Decidable p] {x y : Host.Outcome State Fault Refusal}
    (hx : Answers q x)
    (hy : Answers q y) : Answers q (if p then x else y) := by
  split
  · exact hx
  · exact hy

@[simp] theorem State.pending_ite (p : Prop) [Decidable p] (s t : State) :
    (if p then s else t).pending = if p then s.pending else t.pending := apply_ite State.pending p s t
theorem pending_of_fst {β : Type} {x : State × β} {t : State} {b : β} (h : x = (t, b)) :
    t.pending = x.1.pending := by
  rw [h]
@[simp] theorem forEach_pending {α : Type} {f : State → α → State} (h : ∀ s a, (f s a).pending = s.pending) (l : List α)
    (s : State) : (forEach l f s).pending = s.pending := forEach_keep h l s
@[simp] theorem foldl_pending {α : Type} {f : State → α → State} (h : ∀ s a, (f s a).pending = s.pending) (l : List α)
    (s : State) : (l.foldl f s).pending = s.pending := forEach_keep h l s
@[simp] theorem foldl_fst_pending {α β : Type} {f : State × β → α → State × β} (h : ∀ a x,
    (f a x).1.pending = a.1.pending)
    (l : List α) (a : State × β) : (l.foldl f a).1.pending = a.1.pending := forEach_keep
    (g := fun a => a.1.pending) h l a

/-! ### The operations of the state leave the queue -/

/-! #### Ops -/

@[simp] theorem State.writeMem_pending (s : State) (a : Nat) (l : List Byte) :
    (s.writeMem a l).pending = s.pending := by
  simp [State.writeMem]

@[simp] theorem State.zeroMem_pending (s : State) (a n : Nat) : (s.zeroMem a n).pending = s.pending := rfl

@[simp] theorem State.hostWrite_pending (s : State) (port a : Nat) (l : List Byte) :
    (s.hostWrite port a l).pending = s.pending := by
  simp [State.hostWrite]

@[simp] theorem State.sendMsix_pending (s : State) (port fn vec : Nat) :
    (s.sendMsix port fn vec).pending = s.pending := by
  simp [State.sendMsix]

@[simp] theorem State.ringEvent_pending (s : State) (k : Nat) (e : Event) :
    (s.ringEvent k e).pending = s.pending := by
  simp [State.ringEvent]

@[simp] theorem State.logEvent_pending (s : State) (e : Event) : (s.logEvent e).pending = s.pending := by
  simp [State.logEvent]

@[simp] theorem State.postTo_pending (s : State) (ks : List Nat) (e : Event) :
    (s.postTo ks e).pending = s.pending := by
  simp [State.postTo]

@[simp] theorem State.postModule_pending (s : State) (code sev place : Nat) (data : List Byte) :
    (s.postModule code sev place data).pending = s.pending := by
  simp [State.postModule]

@[simp] theorem State.postPav_pending (s : State) (p code sev place : Nat) (data : List Byte) :
    (s.postPav p code sev place data).pending = s.pending := by
  simp [State.postPav]

@[simp] theorem State.postRing_pending (s : State) (k code sev : Nat) (data : List Byte) :
    (s.postRing k code sev data).pending = s.pending := by
  simp [State.postRing]

@[simp] theorem State.postOwner_pending (s : State) (o : Option Nat) (code sev place : Nat) (data : List Byte) :
    (s.postOwner o code sev place data).pending = s.pending := by
  unfold State.postOwner
  split <;> simp

@[simp] theorem State.cqWrite_pending (s : State) (k : Nat) (notify : Bool) (tag status detail : Nat)
    (result : List Byte) :
    (s.cqWrite k notify tag status detail result).pending = s.pending := by
  simp [State.cqWrite]

@[simp] theorem State.enterCloseHold_pending (s : State) (k : Nat) : (s.enterCloseHold k).pending = s.pending := rfl

@[simp] theorem State.writeMirror_pending (s : State) (k : Nat) : (s.writeMirror k).pending = s.pending := by
  simp [State.writeMirror]

@[simp] theorem State.releaseHold_pending (s : State) (k : Nat) : (s.releaseHold k).pending = s.pending := rfl

@[simp] theorem State.endHold_pending (s : State) (k : Nat) : (s.endHold k).pending = s.pending := by
  simp [State.endHold]

@[simp] theorem State.finalEntry_pending (s : State) (c : Cmd) (status detail : Nat) (result : List Byte) :
    (s.finalEntry c status detail result).pending = s.pending := by
  simp [State.finalEntry]

theorem State.allocMem_pending {s : State} {p tier n align use : Nat} {allowed : Nat → Bool} {x : Nat × State}
    (h : s.allocMem p tier n align use allowed = some x) : x.2.pending = s.pending := by
  obtain ⟨a, -, rfl⟩ := Option.map_eq_some_iff.mp h
  rfl

@[simp] theorem State.freeMem_pending (s : State) (p a : Nat) : (s.freeMem p a).pending = s.pending := rfl

@[simp] theorem State.freeRing_pending (s : State) (k : Nat) : (s.freeRing k).pending = s.pending := by
  simp [State.freeRing]

@[simp] theorem State.resetRing_pending (s : State) (k : Nat) : (s.resetRing k).pending = s.pending := by
  simp [State.resetRing]

@[simp] theorem State.closeCheck_pending (s : State) (k : Nat) : (s.closeCheck k).pending = s.pending := by
  unfold State.closeCheck
  split <;> simp

@[simp] theorem State.complete_pending (s : State) (c : Cmd) (status detail : Nat) (result : List Byte) :
    (s.complete c status detail result).pending = s.pending := by
  simp [State.complete]

@[simp] theorem State.recordNotes_pending (s : State) (c : Cmd) (notes : List Nat) :
    (s.recordNotes c notes).pending = s.pending := by
  simp [State.recordNotes]

@[simp] theorem State.finish_pending (s : State) (c : Cmd) (result : List Byte) (detail : Nat) (low : Nat) :
    (s.finish c result detail low).pending = s.pending := by
  unfold State.finish
  split <;> simp

@[simp] theorem State.reject_pending (s : State) (c : Cmd) (r : Rej) : (s.reject c r).pending = s.pending := by
  simp [State.reject]

@[simp] theorem State.fail_pending (s : State) (c : Cmd) (status place low : Nat) (result : List Byte) :
    (s.fail c status place low result).pending = s.pending := by
  simp [State.fail]

@[simp] theorem State.abort_pending (s : State) (c : Cmd) (status target : Nat) (cause : Option Cmd) :
    (s.abort c status target cause).pending = s.pending := by
  simp [State.abort]

@[simp] theorem State.forCmds_pending (s : State) (f : Cmd → Bool) {g : State → Cmd → State}
    (h : ∀ s c, (g s c).pending = s.pending) : (s.forCmds f g).pending = s.pending :=
  forEach_pending (fun s id => by split <;> simp [h]) _ s

@[simp] theorem State.abortAll_pending (s : State) (f : Cmd → Bool) (status target : Nat) (cause : Option Cmd) :
    (s.abortAll f status target cause).pending = s.pending := by
  simp [State.abortAll]

@[simp] theorem State.deferCmd_pending (s : State) (c : Cmd) (onCondition : Bool) :
    (s.deferCmd c onCondition).pending = s.pending := by
  simp [State.deferCmd]

@[simp] theorem State.listPage_pending (s : State) (r : RetRec) : (s.listPage r).pending = s.pending := by
  simp [State.listPage]

@[simp] theorem State.fact_pending (s : State) (kind : Nat) : (s.fact kind).pending = s.pending := rfl

@[simp] theorem State.retirePage_pending (s : State) (a cause : Nat) :
    (s.retirePage a cause).pending = s.pending := by
  simp [State.retirePage]

@[simp] theorem State.corrected_pending (s : State) (a : Nat) : (s.corrected a).pending = s.pending := by
  simp [State.corrected]

@[simp] theorem State.releasePages_pending (s : State) (released : Nat → Bool) :
    (s.releasePages released).pending = s.pending := by
  simp [State.releasePages]

@[simp] theorem State.meet_pending (s : State) (errs : MemErrors) (reads : Nat → Bool) :
    (s.meet errs reads).pending = s.pending := by
  simp [State.meet]

@[simp] theorem State.meetIn_pending (s : State) (errs : MemErrors) (a n : Nat) :
    (s.meetIn errs a n).pending = s.pending := by
  simp [State.meetIn]

@[simp] theorem State.memError_pending (s : State) (w kind : Nat) : (s.memError w kind).pending = s.pending := by
  simp [State.memError]

@[simp] theorem State.failMemory_pending (s : State) (c : Cmd) (w : Nat) :
    (s.failMemory c w).pending = s.pending := by
  simp [State.failMemory]

/-- A buffer write is one write of device memory. -/
theorem State.toBuffer_pending {s t : State} {c : Cmd} {i a al : Nat} {l : List Byte}
    (h : s.toBuffer c i a l al = .ok t) :
    t.pending = s.pending := by
  refine ChkKeeps.bind (q := s.pending) (x := s.checkAddr c i a l.length al) (fun _ _ => ?_) t h
  split <;> simp
theorem ChkKeeps.toBuffer_bind {q : List Instr} {s : State} {c : Cmd} {i a al : Nat} {l : List Byte}
    {f : State → Chk State}
    (h : ∀ t, t.pending = s.pending → ChkKeeps q (f t)) : ChkKeeps q (s.toBuffer c i a l al >>= f) :=
  ChkKeeps.bind fun t ht => h t (State.toBuffer_pending ht)

/-- The start of a command leaves the queue where the command's body does. -/
@[simp] theorem State.startCmd_pending (s : State) (id op : Nat) {body : State → Cmd → Chk State}
    (h : ∀ c, ChkKeeps s.pending (body s c)) : (s.startCmd id op body).pending = s.pending := by
  unfold State.startCmd
  split
  · rfl
  · next c _ =>
    split
    · rfl
    · split
      · simp
      · dsimp only
        split
        · next t ht => split <;> simp [h c t ht]
        · split
          · rfl
          · split
            · simp
            · split <;> simp

@[simp] theorem State.started_pending (s : State) (c : Cmd) : (s.started c).pending = s.pending := rfl

@[simp] theorem State.throttle_pending (s : State) : s.throttle.pending = s.pending := by
  simp [State.throttle]

@[simp] theorem State.idle_pending (s : State) : s.idle.pending = s.pending := by
  simp [State.idle]

/-! #### Egress -/

@[simp] theorem State.serveLink_pending (s : State) (l fuel : Nat) : (s.serveLink l fuel).pending = s.pending := by
  induction fuel generalizing s with
  | zero => rfl
  | succ n ih =>
    unfold State.serveLink
    dsimp only
    split
    · rfl
    · next i w _ =>
      split
      · rfl
      · rw [ih]
        cases w.counts <;> simp

@[simp] theorem State.flushLink_pending (s : State) (l : Nat) : (s.flushLink l).pending = s.pending := by
  unfold State.flushLink
  dsimp only
  split <;> simp

@[simp] theorem State.queueFor_pending (s : State) (l : Nat) (w : Waiting) :
    (s.queueFor l w).pending = s.pending := by
  simp [State.queueFor]

@[simp] theorem State.queuePacket_pending (s : State) (l : Nat) (k : Pkt) :
    (s.queuePacket l k).pending = s.pending := by
  simp [State.queuePacket]

@[simp] theorem State.trySend_pending (s : State) (p dest bytes t : Nat) (e : Emission) :
    (s.trySend p dest bytes t e).pending = s.pending := by
  unfold State.trySend
  dsimp only
  (repeat' split) <;> simp

/-! #### Operands -/

@[simp] theorem State.modShard_pending (s : State) (n : Nat) (f : Rec → Rec) :
    (s.modShard n f).pending = s.pending := rfl

@[simp] theorem State.putCode_pending (s : State) (p hd : Nat) (h : Handle) (i sl : Nat) (c : Coord) (code : Nat) :
    (s.putCode p hd h i sl c code).pending = s.pending := by
  unfold State.putCode
  dsimp only
  (repeat' split) <;> simp

@[simp] theorem State.spoilCode_pending (s : State) (p hd : Nat) (h : Handle) (i sl : Nat) (c : Coord) :
    (s.spoilCode p hd h i sl c).pending = s.pending := by
  simp [State.spoilCode]

@[simp] theorem State.renew_pending (s : State) (l : List (Nat × Nat)) : (s.renew l).pending = s.pending := by
  simp [State.renew]

@[simp] theorem State.writeTile_pending (s : State) (p hd : Nat) (h : Handle) (i : Nat) (t : TileRef)
    (els : List Elem) :
    (s.writeTile p hd h i t els).1.pending = s.pending := by
  unfold State.writeTile
  dsimp only
  cases s.pav p <;> simp

/-! #### Run -/

@[simp] theorem State.modRun_pending (s : State) (p : Nat) (f : Run → Run) :
    (s.modRun p f).pending = s.pending := rfl

@[simp] theorem State.putSnap_pending (s : State) (p hd : Nat) (h : Handle) (x : Snap) :
    (s.putSnap p hd h x).pending = s.pending := by
  simp [State.putSnap]

@[simp] theorem State.putTrap_pending (s : State) (p : Nat) (x : TrapInfo) (iter step pid : Nat) (runOn first : Bool) :
    (s.putTrap p x iter step pid runOn first).1.pending = s.pending := by
  unfold State.putTrap
  split <;> simp

@[simp] theorem State.recordNan_pending (s : State) (p : Nat) (x : TrapInfo) :
    (s.recordNan p x).1.pending = s.pending := by
  unfold State.recordNan
  split <;> simp

@[simp] theorem State.endColl_pending (s : State) (p op cause peer : Nat) :
    (s.endColl p op cause peer).pending = s.pending := by
  unfold State.endColl
  dsimp only
  (repeat' split) <;> simp

@[simp] theorem State.unseal_pending (s : State) (p : Nat) : (s.unseal p).pending = s.pending := by
  have hshards : ∀ (l : List Nat) (t : State), (forEach l (fun s n =>
      let r := s.shard n
      if r.state = 1 ∨ r.state = 2 ∨ r.state = 3 then
        s.modShard n fun r => { r with state := if r.gradCur then 4 else 0, gradNext := false, staged := false }
      else s) t).pending = t.pending := fun l t => forEach_pending (fun s n => by dsimp only; split <;> simp) l t
  have hpages : ∀ (l : List (Nat × Nat)) (t : State), (forEach l (fun s e => s.freeMem p
      (4096 * e.2)) t).pending = t.pending :=
    fun l t => forEach_pending (fun s e => State.freeMem_pending s p _) l t
  unfold State.unseal
  dsimp only
  split <;> simp [hshards, hpages]

@[simp] theorem State.spoilTile_pending (s : State) (p hd : Nat) (h : Handle) (i : Nat) (t : TileRef) :
    (s.spoilTile p hd h i t).pending = s.pending := by
  unfold State.spoilTile
  exact forEach_pending (fun s a => by dsimp only; split <;> simp) _ s

@[simp] theorem State.spoilRun_pending (s : State) (p : Nat) : (s.spoilRun p).pending = s.pending := by
  unfold State.spoilRun
  split <;> simp

@[simp] theorem State.dropUnstarted_pending (s : State) (p : Nat) : (s.dropUnstarted p).pending = s.pending :=
  forEach_pending (fun s q => by split <;> simp) _ s

@[simp] theorem State.parkIfDue_pending (s : State) (p : Nat) : (s.parkIfDue p).pending = s.pending := by
  unfold State.parkIfDue
  dsimp only
  (repeat' split) <;> simp

@[simp] theorem State.endRun_pending (s : State) (p status detail : Nat) (result : Option (List Byte)) (cause : Nat) :
    (s.endRun p status detail result cause).pending = s.pending := by
  unfold State.endRun
  split
  · rfl
  · next r _ _ =>
    dsimp only
    split <;> split <;> simp

@[simp] theorem State.abortRun_pending (s : State) (p status target : Nat) (cause : Option Cmd) :
    (s.abortRun p status target cause).pending = s.pending := by
  unfold State.abortRun
  split <;> simp

@[simp] theorem State.failRunMemory_pending (s : State) (p w : Nat) :
    (s.failRunMemory p w).pending = s.pending := by
  simp [State.failRunMemory]

@[simp] theorem State.nanFound_pending (s : State) (p : Nat) (x : TrapInfo) :
    (s.nanFound p x).pending = s.pending := by
  unfold State.nanFound
  split
  · rfl
  · dsimp only
    split <;> simp

@[simp] theorem State.clearStep_pending (s : State) (p : Nat) : (s.clearStep p).pending = s.pending := by
  unfold State.clearStep
  split
  · rfl
  · refine forEach_pending (fun s i => ?_) _ s
    dsimp only
    split
    · rfl
    · split
      · exact forEach_pending (fun s sl => by split <;> simp) _ s
      · split
        · split
          · rfl
          · exact forEach_pending (fun s x => State.zeroMem_pending s _ _) _ s
        · simp

@[simp] theorem State.beginStep_pending (s : State) (p : Nat) : (s.beginStep p).pending = s.pending := by
  simp [State.beginStep]

@[simp] theorem State.useInstant_pending (s : State) (p late : Nat) :
    (s.useInstant p late).pending = s.pending := by
  unfold State.useInstant
  dsimp only
  (repeat' split) <;> simp

@[simp] theorem State.stepStart_pending (s : State) (p : Nat) : (s.stepStart p).pending = s.pending := by
  unfold State.stepStart
  dsimp only
  (repeat' split) <;> simp

@[simp] theorem State.dropLeaving_pending (s : State) (p : Nat) : (s.dropLeaving p).pending = s.pending := by
  unfold State.dropLeaving
  split
  · rfl
  · dsimp only
    split
    · rfl
    · exact forEach_pending (fun s c => by simp) _ s

@[simp] theorem State.continueBoundary_pending (s : State) (p : Nat) :
    (s.continueBoundary p).pending = s.pending := by
  unfold State.continueBoundary
  dsimp only
  split <;> simp

@[simp] theorem State.markStep_pending (s : State) (p i : Nat) : (s.markStep p i).pending = s.pending := by
  unfold State.markStep
  dsimp only
  (repeat' split) <;> simp

@[simp] theorem State.endIteration_pending (s : State) (p : Nat) : (s.endIteration p).pending = s.pending := by
  unfold State.endIteration
  split <;> simp

@[simp] theorem State.finishOp_pending (s : State) (p i : Nat) : (s.finishOp p i).pending = s.pending := by
  unfold State.finishOp
  split <;> simp

@[simp] theorem State.finishTile_pending (s : State) (p : Nat) (t : TileRef) (core place : Nat) (more : List TrapInfo) :
    (s.finishTile p t core place more).pending = s.pending := by
  have hnans : ∀ (l : List TrapInfo) (u : State), (forEach l (fun s n => s.nanFound p n) u).pending = u.pending :=
    fun l u => forEach_pending (fun s n => State.nanFound_pending s p n) l u
  unfold State.finishTile
  split
  · rfl
  · split
    · rfl
    · dsimp only
      split
      · simp [hnans]
      · simp [apply_ite State.pending, hnans]

@[simp] theorem State.noteNan_pending (s : State) (p : Nat) (t : TileRef) (place : Nat) (accLoc : Nat → Nat → Nat)
    (ws : List Written) :
    (s.noteNan p t place accLoc ws).pending = s.pending := by
  unfold State.noteNan
  split <;> simp

@[simp] theorem State.nanStops_pending (s : State) (p : Nat) (t : TileRef) :
    (s.nanStops p t).1.pending = s.pending := by
  unfold State.nanStops
  split
  · rfl
  · split
    · rfl
    · split <;> simp

@[simp] theorem State.meetTiles_pending (s : State) (p : Nat) (ts : List TileRef) (errs : MemErrors) :
    (s.meetTiles p ts errs).pending = s.pending := by
  unfold State.meetTiles
  split <;> simp

/-! #### Ring -/

@[simp] theorem State.unserved_pending (s : State) (r : FnRef) : (s.unserved r).pending = s.pending := by
  simp [State.unserved]

@[simp] theorem State.discardWrite_pending (s : State) (r : FnRef) : (s.discardWrite r).pending = s.pending := rfl

@[simp] theorem State.doorbellInvalid_pending (s : State) (k v : Nat) :
    (s.doorbellInvalid k v).pending = s.pending := by
  simp [State.doorbellInvalid]

@[simp] theorem State.mirrorMessages_pending (s : State) (k : Nat) : (s.mirrorMessages k).pending = s.pending := by
  simp [State.mirrorMessages]

@[simp] theorem State.heartbeat_pending (s : State) (q : Nat) : (s.heartbeat q).pending = s.pending := by
  simp [State.heartbeat]

theorem State.allocRing_pending {s : State} {q fn : Nat} {x : Nat × State} (h : s.allocRing q fn = some x) :
    x.2.pending = s.pending := by
  unfold State.allocRing at h
  split at h
  · obtain ⟨a, -, rfl⟩ := Option.map_eq_some_iff.mp h
    rfl
  · exact State.allocMem_pending h

@[simp] theorem State.ringError_pending (s : State) (k e : Nat) : (s.ringError k e).pending = s.pending := rfl

@[simp] theorem State.writeCfg_pending (s : State) (k : Nat) (on : Bool) (eq cq sq : BitVec 4) :
    (s.writeCfg k on eq cq sq).pending = s.pending := rfl

@[simp] theorem State.disableRing_pending (s : State) (k : Nat) : (s.disableRing k).pending = s.pending := by
  simp [State.disableRing]

/-! #### Start -/

@[simp] theorem State.moduleReset_pending (s : State) : s.moduleReset.pending = s.pending := rfl

@[simp] theorem State.setStage_pending (s : State) (n : Nat) : (s.setStage n).pending = s.pending := rfl

@[simp] theorem State.chooseLead_pending (s : State) : s.chooseLead.pending = s.pending := by
  unfold State.chooseLead
  split <;> simp

@[simp] theorem setBootError_pending (s : State) (q e : Nat) : (setBootError s q e).pending = s.pending := rfl

@[simp] theorem State.identityFault_pending (s : State) (h : Nat) (o : IdOutcome) :
    (s.identityFault h o).pending = s.pending := by
  simp [State.identityFault]

@[simp] theorem State.hostRequest_pending (s : State) (q : Nat) (cmd : Option Nat) (addr len : Nat) :
    (s.hostRequest q cmd addr len).pending = s.pending := rfl

@[simp] theorem State.endLoad_pending (s : State) (e : Nat) : (s.endLoad e).pending = s.pending := by
  unfold State.endLoad
  split <;> simp

@[simp] theorem State.copyMem_pending (s : State) (src dst n : Nat) :
    (s.copyMem src dst n).pending = s.pending := by
  simp [State.copyMem]

@[simp] theorem State.backToStage3_pending (s : State) (e : Nat) : (s.backToStage3 e).pending = s.pending := rfl

@[simp] theorem State.setDuties_pending (s : State) (b : Bundle) (c : Nat) (bad : List Nat) :
    (s.setDuties b c bad).pending = s.pending := by
  unfold State.setDuties
  exact forEach_pending (fun s j => by simp) _ _

/-! #### Thermal -/

@[simp] theorem State.modUnitTemp_pending (s : State) (u : Nat) (f : UnitTemp → UnitTemp) :
    (s.modUnitTemp u f).pending = s.pending := rfl

@[simp] theorem State.setTemp_pending (s : State) (i t : Nat) : (s.setTemp i t).pending = s.pending := by
  simp [State.setTemp]

@[simp] theorem State.updateAlert_pending (s : State) : s.updateAlert.pending = s.pending := by
  simp [State.updateAlert]

@[simp] theorem State.updateLimited_pending (s : State) (u t : Nat) :
    (s.updateLimited u t).pending = s.pending := by
  simp [State.updateLimited]

@[simp] theorem State.capEvent_pending (s : State) (reason : Nat) : (s.capEvent reason).pending = s.pending := by
  simp [State.capEvent]

@[simp] theorem State.applyCap_pending (s : State) (c : Cmd) (capW windowMs : Nat) :
    (s.applyCap c capW windowMs).pending = s.pending := by
  simp [State.applyCap]

@[simp] theorem State.coolantEvent_pending (s : State) (reason : Nat) :
    (s.coolantEvent reason).pending = s.pending := by
  simp [State.coolantEvent]

/-! #### Counter -/

@[simp] theorem State.foldClass_pending (s : State) (b : Bool) (interval : Nat) :
    (s.foldClass b interval).pending = s.pending := by
  simp [State.foldClass]

@[simp] theorem State.resetCounters_pending (s : State) (hit : Nat → Bool) :
    (s.resetCounters hit).pending = s.pending := by
  simp [State.resetCounters]

/-! #### Program -/

@[simp] theorem State.freeHandle_pending (s : State) (p hd : Nat) : (s.freeHandle p hd).pending = s.pending := by
  unfold State.freeHandle
  split
  · rfl
  · split
    · rfl
    · rw [State.modPav_pending, forEach_pending fun s a => State.freeMem_pending s p a]

theorem State.allocAny_pending {s : State} {p n align use : Nat} {x : Nat × State}
    (h : s.allocAny p n align use = some x) : x.2.pending = s.pending := by
  unfold State.allocAny at h
  split at h
  · next heq => exact State.allocMem_pending (heq.trans h)
  · exact State.allocMem_pending h

theorem State.loadConstants_pending {s : State} {p : Nat} {g : Image} {l : List Nat} {x : List
    (Nat × Nat × Nat) × State}
    (h : s.loadConstants p g l = some x) : x.2.pending = s.pending := by
  induction l generalizing s x with
  | nil =>
    obtain rfl : ([], s) = x := Option.some.inj h
    rfl
  | cons i l ih =>
    unfold State.loadConstants at h
    dsimp only at h
    split at h
    · cases h
    · next a t ha =>
      split at h
      · cases h
      · next m u hu =>
        obtain rfl : ((i, a, g.boundBytes i 0) :: m, u) = x := Option.some.inj h
        exact (ih hu).trans ((State.writeMem_pending ..).trans (State.allocAny_pending ha))

@[simp] theorem State.writeSums_pending (s : State) (p place : Nat) (t : TileRef) (i : Nat) (els : List Elem) :
    (s.writeSums p place t i els).1.pending = s.pending := by
  unfold State.writeSums
  split
  · rfl
  · refine foldl_fst_pending (fun a k => ?_) _ _
    simp

@[simp] theorem State.vectorTile_pending (s : State) (p code : Nat) (t : TileRef) :
    (s.vectorTile p code t).pending = s.pending := by
  unfold State.vectorTile
  split
  · rfl
  · dsimp only
    split
    · rfl
    · split <;> simp

@[simp] theorem State.moverTile_pending (s : State) (p type : Nat) (t : TileRef) (read written : Nat) :
    (s.moverTile p type t read written).pending = s.pending := by
  simp [State.moverTile]

theorem State.offRanges_pending {s : State} {p n : Nat} {x : State × List (Nat × Nat)} (h : s.offRanges p n = some x) :
    x.1.pending = s.pending := by
  have hwhole : ∀ {y : State × List (Nat × Nat)}, (s.allocMem p 1 n 64 7).map (fun y => (y.2, [(y.1, n)])) = some y →
      y.1.pending = s.pending := fun h => by
    obtain ⟨z, hz, rfl⟩ := Option.map_eq_some_iff.mp h
    exact State.allocMem_pending hz
  unfold State.offRanges at h
  dsimp only at h
  split at h
  · exact hwhole h
  · split at h
    · exact hwhole h
    · next h1 =>
      split at h
      · exact hwhole h
      · next h2 =>
        obtain rfl := Option.some.inj h
        exact (State.allocMem_pending h2).trans (State.allocMem_pending h1)

/-! #### Ledger -/

@[simp] theorem State.writeSlot_pending (s : State) (r : Rec) (a : Nat) (arrays : List (List Byte)) :
    (s.writeSlot r a arrays).pending = s.pending := by
  simp [State.writeSlot]

@[simp] theorem State.shardDamaged_pending (s : State) (p n what : Nat) :
    (s.shardDamaged p n what).pending = s.pending := by
  simp [State.shardDamaged]

@[simp] theorem State.slotLost_pending (s : State) (n w : Nat) : (s.slotLost n w).pending = s.pending := by
  simp [State.slotLost]

@[simp] theorem State.recordLost_pending (s : State) (c : Cmd) (n : Nat) :
    (s.recordLost c n).pending = s.pending := by
  simp [State.recordLost]

theorem State.placeFresh_pending {s t : State} {n : Nat} (h : s.placeFresh n = some t) : t.pending = s.pending := by
  unfold State.placeFresh at h
  obtain ⟨x, hx, rfl⟩ := Option.map_eq_some_iff.mp h
  simp [State.allocMem_pending hx]

@[simp] theorem State.stageShard_pending (s : State) (n op : Nat) (hyper : List Byte) (seq : Nat) (runOn : Bool) :
    (s.stageShard n op hyper seq runOn).1.pending = s.pending := by
  unfold State.stageShard
  dsimp only
  split
  · simp
  · split
    · simp
    · split
      · simp
      · split
        · simp
        · next u hu =>
          split at hu
          · simp [State.placeFresh_pending hu]
          · obtain rfl := Option.some.inj hu
            simp

@[simp] theorem State.endRunShard_pending (s : State) (p status n : Nat) :
    (s.endRunShard p status n).pending = s.pending := by
  simp [State.endRunShard]

@[simp] theorem State.layerNorms_pending (s : State) (p seq : Nat) : (s.layerNorms p seq).pending = s.pending :=
  forEach_pending (fun s _ => State.modPav_pending s _ _) _ s

@[simp] theorem State.sealDone_pending (s : State) (p : Nat) : (s.sealDone p).pending = s.pending := by
  unfold State.sealDone
  dsimp only
  (repeat' split) <;> simp

@[simp] theorem State.writeSeal_pending (s : State) (p : Nat) (todo : List Nat) (programId opIndex kind : Nat)
    (cmd : Option Nat) (frozen : Nat) :
    (s.writeSeal p todo programId opIndex kind cmd frozen).pending = s.pending := by
  unfold State.writeSeal
  split <;> simp

@[simp] theorem State.commitShard_pending (s : State) (p n : Nat) : (s.commitShard p n).pending = s.pending := by
  simp [State.commitShard]

@[simp] theorem State.commitOne_pending (s : State) (p n : Nat) : (s.commitOne p n).1.pending = s.pending := by
  unfold State.commitOne
  dsimp only
  split
  · simp
  · split
    · simp
    · split
      · simp
      · simp
      · split
        · simp
        · next hu => simp [State.placeFresh_pending hu]

@[simp] theorem State.rollShard_pending (s : State) (p n : Nat) : (s.rollShard p n).1.pending = s.pending := by
  simp [State.rollShard]

@[simp] theorem State.leavePending_pending (s : State) (p seq count : Nat) :
    (s.leavePending p seq count).pending = s.pending := by
  simp [State.leavePending]

@[simp] theorem State.rollForward_pending (s : State) (p : Nat) : (s.rollForward p).1.pending = s.pending := by
  have hroll : ∀ (l : List Nat) (a : State × List Nat), (l.foldl (fun (a : State × List Nat) n =>
      let (s, ok) := a.1.rollShard p n
      (s, if ok then a.2 else a.2 ++ [n])) a).1.pending = a.1.pending :=
    foldl_fst_pending fun a n => State.rollShard_pending ..
  unfold State.rollForward
  split
  · rfl
  · split
    · rfl
    · next x _ =>
      dsimp only
      split
      · cases x.cmd <;> simp [hroll]
      · simp [hroll]

@[simp] theorem State.stageList_pending (s : State) (p seq grad : Nat) (hyper : List Byte) (l : List Nat) :
    (s.stageList p seq grad hyper l).1.pending = s.pending := by
  induction l generalizing s grad with
  | nil => rfl
  | cons n l ih =>
    have hstage : ∀ {x : State × StageEnd} (hx : State.stageShard (if grad = 0 then s
        else s.writeMem ((s.shard n).gradAddr (s.shard n).nextBuf) (s.readMem grad (gradLen
            (s.shard n)))) n 0xFFFFFF hyper seq false = x),
        x.1.pending = s.pending := fun hx => by rw [← hx]; simp
    unfold State.stageList
    dsimp only
    split
    · exact ih ..
    · split
      · next h => exact (ih ..).trans (hstage h)
      · next h => exact hstage h

@[simp] theorem State.repairForward_pending (s : State) (c : Cmd) : (s.repairForward c).pending = s.pending := by
  unfold State.repairForward
  dsimp only
  split <;> simp

@[simp] theorem State.repairRedigest_pending (s : State) (c : Cmd) (n : Nat) :
    (s.repairRedigest c n).pending = s.pending := by
  unfold State.repairRedigest
  dsimp only
  split <;> simp

/-! #### Reshape -/

theorem State.placeShard_pending {s : State} {p : Nat} {r : Rec} {a b : Bool} {x : Rec × State}
    (h : s.placeShard p r a b = some x) : x.2.pending = s.pending := by
  unfold State.placeShard at h
  dsimp only at h
  split at h
  · cases h
  · split at h
    · cases h
    · obtain rfl := Option.some.inj h
      simp

@[simp] theorem State.dropShard_pending (s : State) (n : Nat) : (s.dropShard n).pending = s.pending := by
  simp [State.dropShard]

theorem State.createShard_pending {s t : State} {p : Nat} {v : Pav} {l : Layout} {n : Nat}
    (h : s.createShard p v l n = some t) : t.pending = s.pending := by
  unfold State.createShard at h
  split at h
  · cases h
  · split at h
    · cases h
    · next w hp =>
      have hw : w.pending = s.pending := State.placeShard_pending hp
      extract_lets hi u d at h
      rw [← Option.some.inj h, State.modPav_pending, State.modShard_pending, State.writeSlot_pending, hw]

theorem State.createShards_pending {s : State} {p : Nat} {v : Pav} {l : Layout} {ns : List Nat} {x : State × Option Nat}
    (h : s.createShards p v l ns = .ok x) : x.1.pending = s.pending := by
  induction ns generalizing s with
  | nil =>
    obtain rfl := Except.ok.inj h
    rfl
  | cons n ns ih =>
    unfold State.createShards at h
    split at h
    · obtain rfl := Except.ok.inj h
      rfl
    · split at h
      · next ht => exact (ih h).trans (State.createShard_pending ht)
      · cases h

@[simp] theorem State.reshapeTo_pending (s : State) (p st epoch : Nat) :
    (s.reshapeTo p st epoch).pending = s.pending := by
  simp [State.reshapeTo]

@[simp] theorem State.reshapeCheck_pending (s : State) (p : Nat) : (s.reshapeCheck p).pending = s.pending := by
  unfold State.reshapeCheck
  dsimp only
  (repeat' split) <;> simp

@[simp] theorem State.sendShard_pending (s : State) (p : Nat) (l : Layout) (n : Nat) :
    (s.sendShard p l n).pending = s.pending := by
  unfold State.sendShard
  split <;> simp

@[simp] theorem State.reshapeFail_pending (s : State) (p status place low : Nat) :
    (s.reshapeFail p status place low).pending = s.pending := by
  unfold State.reshapeFail
  split <;> simp

@[simp] theorem State.reshapePeers_pending (s : State) : s.reshapePeers.pending = s.pending :=
  forEach_pending (fun s p => by
    split
    · rfl
    · split <;> simp) _ s

@[simp] theorem State.sendShards_pending (s : State) (p : Nat) (l : Layout) (verify : Bool) (ns : List Nat) :
    (s.sendShards p l verify ns).pending = s.pending := by
  induction ns generalizing s with
  | nil => simp [State.sendShards]
  | cons n ns ih =>
    unfold State.sendShards
    dsimp only
    split
    · simp
    · split
      · simp
      · split <;> simp [ih]

theorem State.receiveShard_pending {s : State} {p : Nat} {l : Layout} {m : ShardMsg} {x : State × Bool}
    (h : s.receiveShard p l m = some x) : x.1.pending = s.pending := by
  unfold State.receiveShard at h
  split at h
  · cases h
  · dsimp only at h
    split at h
    · obtain rfl := Option.some.inj h
      rfl
    · obtain ⟨y, hy, rfl⟩ := Option.map_eq_some_iff.mp h
      simp [State.placeShard_pending hy]

@[simp] theorem State.reshapeCommit_pending (s : State) (p : Nat) (c : Cmd) :
    (s.reshapeCommit p c).pending = s.pending := by
  unfold State.reshapeCommit
  split
  · rfl
  · split
    · rfl
    · dsimp only
      rw [State.finish_pending, State.reshapeTo_pending, State.modPav_pending,
          forEach_pending fun s n => State.modShard_pending s n _]

@[simp] theorem State.reshapeAbort_pending (s : State) (p status : Nat) (cause : Option Cmd) :
    (s.reshapeAbort p status cause).1.pending = s.pending := by
  unfold State.reshapeAbort
  split
  · rfl
  · dsimp only
    rw [State.reshapeTo_pending, State.modPav_pending, forEach_pending fun s n => State.modShard_pending s n _,
      forEach_pending fun s n => State.dropShard_pending s n, forEach_pending fun s id => ?_]
    split <;> simp

/-! #### Collective -/

@[simp] theorem State.modColl_pending (s : State) (p op : Nat) (f : Coll → Coll) :
    (s.modColl p op f).pending = s.pending := by
  simp [State.modColl]

@[simp] theorem State.dropColl_pending (s : State) (p op : Nat) : (s.dropColl p op).pending = s.pending := rfl

@[simp] theorem State.flushColl_pending (s : State) (p op : Nat) : (s.flushColl p op).pending = s.pending := by
  unfold State.flushColl
  split
  · rfl
  · rw [State.modColl_pending]
    refine foldl_fst_pending (fun a x => ?_) _ _
    dsimp only
    split <;> simp

@[simp] theorem State.failColl_pending (s : State) (p op cause peer : Nat) :
    (s.failColl p op cause peer).pending = s.pending := by
  simp [State.failColl]

@[simp] theorem State.placeSums_pending (s : State) (p op n : Nat) (m : CollMsg) :
    (s.placeSums p op n m).pending = s.pending := by
  unfold State.placeSums
  dsimp only
  split <;> simp

@[simp] theorem State.passOn_pending (s : State) (p op : Nat) (v : Pav) (l : Layout) (n off stripe : Nat)
    (data : List Nat) :
    (s.passOn p op v l n off stripe data).pending = s.pending := by
  unfold State.passOn
  dsimp only
  (repeat' split) <;> simp

@[simp] theorem State.collCheck_pending (s : State) (p op : Nat) : (s.collCheck p op).pending = s.pending := by
  unfold State.collCheck
  split
  · simp
  · split
    · split
      · rfl
      · dsimp only
        split
        · rfl
        · split
          · rfl
          · split
            · split
              · rfl
              · rw [apply_ite State.pending, State.finishOp_pending, ite_self,
                  foldl_pending fun s x => State.nanFound_pending s p x,
                      forEach_pending fun s x => State.modShard_pending s _ _,
                  State.dropColl_pending]
            · split <;> simp
    · rfl

@[simp] theorem State.placePiece_pending (s : State) (p op hd : Nat) (h : Handle) (l : Layout) (m : MapEntry)
    (k : Nat) (x : CollMsg) :
    (s.placePiece p op hd h l m k x).pending = s.pending := by
  unfold State.placePiece
  dsimp only
  split <;> simp

@[simp] theorem State.takeMsg_pending (s : State) (p type : Nat) (x : CollMsg) :
    (s.takeMsg p type x).pending = s.pending := by
  unfold State.takeMsg
  dsimp only
  (repeat' split) <;> simp

@[simp] theorem State.collArrive_pending (s : State) (p type : Nat) (x : CollMsg) :
    (s.collArrive p type x).pending = s.pending := by
  unfold State.collArrive
  dsimp only
  (repeat' split) <;> simp

@[simp] theorem State.takeHeld_pending (s : State) (p op : Nat) : (s.takeHeld p op).pending = s.pending := by
  unfold State.takeHeld
  split
  · rfl
  · dsimp only
    split
    · simp
    · split
      · simp
      · exact foldl_pending (fun s x => State.takeMsg_pending s p _ _) _ _

@[simp] theorem State.openColl_pending (s : State) (p op : Nat) (reduce : Bool) :
    (s.openColl p op reduce).pending = s.pending := rfl

/-! #### Mover -/

@[simp] theorem State.meetDesc_pending (s : State) (d : Desc) (errs : MemErrors) :
    (s.meetDesc d errs).pending = s.pending := by
  simp [State.meetDesc]

@[simp] theorem State.modJob_pending (s : State) (id : Nat) (f : MoveJob → MoveJob) :
    (s.modJob id f).pending = s.pending := by
  simp [State.modJob]

@[simp] theorem State.spoilDests_pending (s : State) (port : Nat) (j : MoveJob) :
    (s.spoilDests port j).pending = s.pending := by
  simp [State.spoilDests]

@[simp] theorem State.dropJob_pending (s : State) (c : Cmd) : (s.dropJob c).pending = s.pending := by
  unfold State.dropJob
  split <;> simp

@[simp] theorem State.failJob_pending (s : State) (c : Cmd) (status place low : Nat) (result : List Byte) :
    (s.failJob c status place low result).pending = s.pending := by
  simp [State.failJob]

@[simp] theorem State.abortJob_pending (s : State) (c : Cmd) (status target : Nat) (cause : Option Cmd) :
    (s.abortJob c status target cause).pending = s.pending := by
  simp [State.abortJob]

@[simp] theorem State.jobCheck_pending (s : State) (id : Nat) : (s.jobCheck id).pending = s.pending := by
  unfold State.jobCheck
  split <;> simp

@[simp] theorem State.movedBytes_pending (s : State) (id i read written : Nat) :
    (s.movedBytes id i read written).pending = s.pending := by
  unfold State.movedBytes
  split <;> simp

@[simp] theorem State.finishDesc_pending (s : State) (id i : Nat) (d : Desc) :
    (s.finishDesc id i d).pending = s.pending := by
  unfold State.finishDesc
  split <;> simp

@[simp] theorem State.putDst_pending (s : State) (port : Nat) (d : Desc) (a : Nat) (l : List Byte) :
    (s.putDst port d a l).pending = s.pending := by
  simp [State.putDst]

@[simp] theorem State.requestPiece_pending (s : State) (c : Cmd) (i : Nat) (d : Desc) (k : Nat) :
    (s.requestPiece c i d k).pending = s.pending := rfl

@[simp] theorem State.runDesc_pending (s : State) (c : Cmd) (j : MoveJob) (i : Nat) (d : Desc) (errs : MemErrors) :
    (s.runDesc c j i d errs).pending = s.pending := by
  unfold State.runDesc
  dsimp only
  (repeat' split) <;> simp

@[simp] theorem State.startDesc_pending (s : State) (id i : Nat) (errs : MemErrors) :
    (s.startDesc id i errs).pending = s.pending := by
  unfold State.startDesc
  dsimp only
  (repeat' split) <;> simp

@[simp] theorem State.placeHostPiece_pending (s : State) (c : Cmd) (j : MoveJob) (i k : Nat) (l : List Byte) :
    (s.placeHostPiece c j i k l).pending = s.pending := by
  unfold State.placeHostPiece
  dsimp only
  (repeat' split) <;> simp

@[simp] theorem State.placePull_pending (s : State) (q : Nat) (l : List Byte) :
    (s.placePull q l).pending = s.pending := by
  simp [State.placePull]

@[simp] theorem State.requestFailed_pending (s : State) (q : Nat) (cmd : Option Nat) (addr status : Nat) :
    (s.requestFailed q cmd addr status).pending = s.pending := by
  unfold State.requestFailed
  split
  · split <;> simp
  · split <;> simp

@[simp] theorem State.dropRequest_pending (s : State) (q tag : Nat) :
    (s.dropRequest q tag).pending = s.pending := rfl

@[simp] theorem State.openJob_pending (s : State) (c : Cmd) (ds : List Desc) (cs : List Nat) :
    (s.openJob c ds cs).pending = s.pending := by
  unfold State.openJob
  split <;> simp

@[simp] theorem State.moversGone_pending (s : State) (gone : Nat → Bool) (target : Nat) (cause : Option Cmd) :
    (s.moversGone gone target cause).pending = s.pending :=
  forEach_pending (fun s j => by
    split
    · rfl
    · split
      · simp
      · dsimp only
        split <;> simp) _ s

/-! #### Time -/

@[simp] theorem State.modSync_pending (s : State) (l : Nat) (f : SyncRec → SyncRec) :
    (s.modSync l f).pending = s.pending := rfl

@[simp] theorem State.setTimeState_pending (s : State) (st : Nat) : (s.setTimeState st).pending = s.pending := by
  unfold State.setTimeState
  split
  · rfl
  · dsimp only
    rw [State.postModule_pending, forEach_pending fun s l => State.count_pending s _ _, State.modTime_pending,
        State.modTime_pending]

@[simp] theorem State.chooseRoot_pending (s : State) : s.chooseRoot.pending = s.pending := by
  unfold State.chooseRoot
  dsimp only
  (repeat' split) <;> simp

@[simp] theorem State.steer_pending (s : State) : s.steer.pending = s.pending := by
  simp [State.steer]

@[simp] theorem State.cancelBarrier_pending (s : State) (p status target : Nat) (cause : Option Cmd) :
    (s.cancelBarrier p status target cause).pending = s.pending := by
  unfold State.cancelBarrier
  dsimp only
  (repeat' split) <;> simp

/-! #### Stop -/

@[simp] theorem State.disarm_pending (s : State) (c : Cmd) : (s.disarm c).pending = s.pending := by
  unfold State.disarm
  dsimp only
  (repeat' split) <;> simp

@[simp] theorem State.cutOff_pending (s : State) (c : Cmd) (status target : Nat) (cause : Option Cmd) :
    (s.cutOff c status target cause).pending = s.pending := by
  simp [State.cutOff]

@[simp] theorem State.stopPav_pending (s : State) (p status target : Nat) (cause : Option Cmd) (spare : Cmd → Bool) :
    (s.stopPav p status target cause spare).pending = s.pending := by
  simp [State.stopPav]

/-! #### Link -/

@[simp] theorem State.modLane_pending (s : State) (l i : Nat) (f : Lane → Lane) :
    (s.modLane l i f).pending = s.pending := rfl

@[simp] theorem State.linkEvent_pending (s : State) (l code sev : Nat) (data : List Byte) :
    (s.linkEvent l code sev data).pending = s.pending := by
  simp [State.linkEvent]

@[simp] theorem State.linkDown_pending (s : State) (l cause : Nat) : (s.linkDown l cause).pending = s.pending := by
  simp [State.linkDown]

@[simp] theorem State.planLanes_pending (s : State) (l : Nat) (ahead : BitVec 16) :
    (s.planLanes l ahead).pending = s.pending := by
  simp [State.planLanes]

@[simp] theorem State.ownLanes_pending (s : State) (l : Nat) : (s.ownLanes l).pending = s.pending := by
  simp [State.ownLanes]

@[simp] theorem State.retireLane_pending (s : State) (l i : Nat) : (s.retireLane l i).pending = s.pending := by
  simp [State.retireLane]

@[simp] theorem State.admitLane_pending (s : State) (l i : Nat) : (s.admitLane l i).pending = s.pending := by
  simp [State.admitLane]

@[simp] theorem State.resend_pending (s : State) (l : Nat) (q : BitVec 16) :
    (s.resend l q).pending = s.pending := by
  unfold State.resend
  rw [forEach_pending fun s x => State.emit_pending s _]

@[simp] theorem State.closeBridle_pending (s : State) (a : Nat) : (s.closeBridle a).pending = s.pending := by
  simp [State.closeBridle]

@[simp] theorem State.failJoin_pending (s : State) (a port reason : Nat) :
    (s.failJoin a port reason).pending = s.pending := by
  unfold State.failJoin
  dsimp only
  (repeat' split) <;> simp

@[simp] theorem State.lateStages_pending (s : State) (joined : Bool) :
    (s.lateStages joined).pending = s.pending := by
  simp [State.lateStages]

@[simp] theorem State.joinCheck_pending (s : State) (a : Nat) : (s.joinCheck a).pending = s.pending := by
  unfold State.joinCheck
  dsimp only
  (repeat' split) <;> simp

@[simp] theorem State.quarantine_pending (s : State) (l reason dev : Nat) :
    (s.quarantine l reason dev).pending = s.pending := by
  simp [State.quarantine]

@[simp] theorem State.linkUp_pending (s : State) (l : Nat) (t : TrainRec) : (s.linkUp l t).pending = s.pending := by
  simp [State.linkUp]

@[simp] theorem State.rejectJoin_pending (s : State) (a reason : Nat) :
    (s.rejectJoin a reason).pending = s.pending := by
  unfold State.rejectJoin
  dsimp only
  (repeat' split) <;> simp

@[simp] theorem State.joinGoesOn_pending (s : State) (a : Nat) : (s.joinGoesOn a).pending = s.pending := by
  unfold State.joinGoesOn
  split
  · rfl
  · split <;> simp

/-! #### Fabric -/

@[simp] theorem State.swapPlanes_pending (s : State) (c : Option Cmd) : (s.swapPlanes c).pending = s.pending := by
  unfold State.swapPlanes
  dsimp only
  (repeat' split) <;> simp

@[simp] theorem State.fence_pending (s : State) (part : Nat) (lift noStop : Bool) (cause : Option Cmd) :
    (s.fence part lift noStop cause).pending = s.pending := by
  unfold State.fence
  dsimp only
  split
  · rw [forEach_pending fun s p => State.modPav_pending s p _]
    simp
  · split
    · simp
    · rw [forEach_pending fun s p => ?_]
      · simp
      · simp

@[simp] theorem State.closeMask_pending (s : State) (mask : Nat) : (s.closeMask mask).pending = s.pending := by
  simp [State.closeMask]

/-! #### Twin -/

@[simp] theorem State.modTwin_pending (s : State) (p : Nat) (f : TwinSt → TwinSt) :
    (s.modTwin p f).pending = s.pending := rfl

@[simp] theorem State.twinEvent_pending (s : State) (p st : Nat) : (s.twinEvent p st).pending = s.pending := by
  simp [State.twinEvent]

@[simp] theorem State.toTwin_pending (s : State) (p type bytes : Nat) (e : Emission) :
    (s.toTwin p type bytes e).pending = s.pending := by
  simp [State.toTwin]

@[simp] theorem State.twinMsg_pending (s : State) (p : Nat) (m : TwinMsg) :
    (s.twinMsg p m).pending = s.pending := by
  simp [State.twinMsg]

@[simp] theorem State.modMirror_pending (s : State) (p n : Nat) (f : Mirror → Mirror) :
    (s.modMirror p n f).pending = s.pending := by
  simp [State.modMirror]

theorem State.newMirror_pending {s t : State} {p : Nat} {r : Rec} (h : s.newMirror p r = some t) :
    t.pending = s.pending := by
  obtain ⟨x, hx, rfl⟩ := Option.map_eq_some_iff.mp h
  simp [State.allocMem_pending hx]

@[simp] theorem State.freeMirrors_pending (s : State) (p : Nat) : (s.freeMirrors p).pending = s.pending := rfl

@[simp] theorem State.sendMirror_pending (s : State) (p n : Nat) (seed : Bool) :
    (s.sendMirror p n seed).pending = s.pending := by
  unfold State.sendMirror
  dsimp only
  split <;> simp

@[simp] theorem State.seedCheck_pending (s : State) (p : Nat) : (s.seedCheck p).pending = s.pending := by
  simp [State.seedCheck]

@[simp] theorem State.modDisagree_pending (s : State) (p n : Nat) (mirror : Bool) (f : Disagree → Disagree) :
    (s.modDisagree p n mirror f).pending = s.pending := by
  simp [State.modDisagree]

@[simp] theorem State.openDisagree_pending (s : State) (p n : Nat) (mirror hold : Bool) :
    (s.openDisagree p n mirror hold).pending = s.pending := by
  simp [State.openDisagree]

@[simp] theorem State.unblock_pending (s : State) (p : Nat) : (s.unblock p).pending = s.pending := by
  simp [State.unblock]

@[simp] theorem State.compareCheck_pending (s : State) (p : Nat) : (s.compareCheck p).pending = s.pending := by
  unfold State.compareCheck
  dsimp only
  (repeat' split) <;> simp

@[simp] theorem State.resolveDone_pending (s : State) (d : Disagree) (outcome reason blocks : Nat) :
    (s.resolveDone d outcome reason blocks).pending = s.pending := by
  unfold State.resolveDone
  split <;> simp

@[simp] theorem State.markCopy_pending (s : State) (p n : Nat) (mirror damaged : Bool) (digest : Option Nat) :
    (s.markCopy p n mirror damaged digest).pending = s.pending := by
  simp [State.markCopy]

@[simp] theorem State.unresolved_pending (s : State) (p : Nat) (d : Disagree) (reason : Nat) :
    (s.unresolved p d reason).pending = s.pending := by
  simp [State.unresolved]

@[simp] theorem State.closeDisagree_pending (s : State) (p : Nat) (d : Disagree) :
    (s.closeDisagree p d).pending = s.pending := rfl

@[simp] theorem State.putBlocks_pending (s : State) (p n : Nat) (mirror : Bool) (blocks : List (Nat × List Byte)) :
    (s.putBlocks p n mirror blocks).pending = s.pending := by
  simp [State.putBlocks]

@[simp] theorem State.resolvedEvent_pending (s : State) (p : Nat) (d : Disagree) (outcome blocks : Nat) :
    (s.resolvedEvent p d outcome blocks).pending = s.pending := by
  simp [State.resolvedEvent]

@[simp] theorem State.takeMirror_pending (s : State) (p : Nat) (m : ShardMsg) :
    (s.takeMirror p m).1.pending = s.pending := by
  have hroom : ∀ {known : Option Mirror} {fresh : Bool} {u : State}, (if fresh = true then some s
      else (match known with
        | some k => s.freeMem p (4096 * k.slotPage)
        | none => s).newMirror p m.rcd) = some u → u.pending = s.pending := by
    intro known fresh u hu
    split at hu
    · exact congrArg State.pending (Option.some.inj hu).symm
    · refine (State.newMirror_pending hu).trans ?_
      split <;> simp
  unfold State.takeMirror
  dsimp only
  split
  · rfl
  · next u hu =>
    have hpu := hroom hu
    split
    · exact hpu
    · split
      · simp [hpu]
      · split <;> split <;> simp [hpu]

@[simp] theorem State.answerMirror_pending (s : State) (p : Nat) (m : ShardMsg) :
    (s.answerMirror p m).pending = s.pending := by
  unfold State.answerMirror
  dsimp only
  split <;> next h => simp [pending_of_fst h]

@[simp] theorem State.takeWaiting_pending (s : State) (p : Nat) : (s.takeWaiting p).pending = s.pending := by
  simp [State.takeWaiting]

@[simp] theorem State.settle_pending (s : State) (p : Nat) (d : Disagree) (outcome blocks : Nat) :
    (s.settle p d outcome blocks).pending = s.pending := by
  simp [State.settle]

@[simp] theorem State.twinHeard_pending (s : State) (p : Nat) : (s.twinHeard p).pending = s.pending := by
  simp [State.twinHeard]

@[simp] theorem State.sendKeep_pending (s : State) (p : Nat) (d : Disagree) (own peer : Side) (outcome : Nat) :
    (s.sendKeep p d own peer outcome).pending = s.pending := by
  simp [State.sendKeep]

@[simp] theorem State.install_pending (s : State) (p : Nat) (d : Disagree) (own peer : Side) :
    (s.install p d own peer).pending = s.pending := by
  simp [State.install]

@[simp] theorem State.conclude_pending (s : State) (p : Nat) (d : Disagree) (own peer : Side) :
    (s.conclude p d own peer).pending = s.pending := by
  unfold State.conclude
  dsimp only
  (repeat' split) <;> simp

@[simp] theorem State.twinUnreachable_pending (s : State) (p : Nat) :
    (s.twinUnreachable p).pending = s.pending := by
  simp [State.twinUnreachable]

@[simp] theorem State.restartDisagree_pending (s : State) (p : Nat) (die : Nat) :
    (s.restartDisagree p die).pending = s.pending := by
  simp [State.restartDisagree]

theorem State.restoreShard_pending {s : State} {p : Nat} {l : Layout} {m : ShardMsg} {x : State × Bool}
    (h : s.restoreShard p l m = some x) : x.1.pending = s.pending := by
  unfold State.restoreShard at h
  split at h
  · cases h
  · extract_lets n base r0 at h
    split at h
    · obtain rfl := Option.some.inj h
      rfl
    · obtain ⟨y, hy, rfl⟩ := Option.map_eq_some_iff.mp h
      simp [State.placeShard_pending hy]

@[simp] theorem State.loosen_pending (s : State) (p : Nat) : (s.loosen p).pending = s.pending := by
  unfold State.loosen
  dsimp only
  rw [State.compareCheck_pending, State.modTwin_pending, forEach_pending fun s n => State.modShard_pending s n _,
    State.twinUnreachable_pending]

@[simp] theorem State.checkOwn_pending (s : State) (p : Nat) (gs : List Nat) :
    (s.checkOwn p gs).pending = s.pending :=
  forEach_pending (fun s n => by
    dsimp only
    split
    · simp
    · split <;> simp) _ s

@[simp] theorem State.checkMirrors_pending (s : State) (p : Nat) (gs : List Nat) :
    (s.checkMirrors p gs).pending = s.pending :=
  forEach_pending (fun s e => by
    dsimp only
    split
    · simp
    · split <;> simp) _ s

@[simp] theorem State.closeCompare_pending (s : State) (p : Nat) (o : OpenCmp) (bad : List (Nat × Nat)) :
    (s.closeCompare p o bad).pending = s.pending := by
  simp [State.closeCompare]

@[simp] theorem State.mismatches_pending (s : State) (p : Nat) (mirror full hold : Bool) (seq : Nat) (bad : List
    (Nat × Nat)) (ids : List Nat) :
    (s.mismatches p mirror full hold seq bad ids).pending = s.pending := by
  simp [State.mismatches]

@[simp] theorem State.matchPair_pending (s : State) (p : Nat) (o : PairOffer) :
    (s.matchPair p o).pending = s.pending := by
  unfold State.matchPair
  dsimp only
  (repeat' split) <;> simp

@[simp] theorem State.unpair_pending (s : State) (p : Nat) (keep : Bool) :
    (s.unpair p keep).pending = s.pending := by
  simp [State.unpair]

@[simp] theorem State.restoreEnd_pending (s : State) (p : Nat) : (s.restoreEnd p).pending = s.pending := by
  unfold State.restoreEnd
  dsimp only
  (repeat' split) <;> simp

@[simp] theorem State.answerRestore_pending (s : State) (p id pav : Nat) :
    (s.answerRestore p id pav).pending = s.pending := by
  unfold State.answerRestore
  dsimp only
  rw [State.twinMsg_pending, forEach_pending fun s e => ?_, State.modTwin_pending, State.loosen_pending]
  split <;> simp

@[simp] theorem State.restoreFail_pending (s : State) (p : Nat) : (s.restoreFail p).pending = s.pending := by
  unfold State.restoreFail
  dsimp only
  (repeat' split) <;> simp

@[simp] theorem State.takeKeep_pending (s : State) (p n digest : Nat) (blocks : List (Nat × List Byte)) :
    (s.takeKeep p n digest blocks).pending = s.pending := by
  unfold State.takeKeep
  split <;> simp

/-! #### Check -/

@[simp] theorem State.dropBanks_pending (s : State) (e : Nat) (hit : Nat → Bool) :
    (s.dropBanks e hit).pending = s.pending := by
  unfold State.dropBanks
  dsimp only
  rw [State.modEngine_pending, forEach_pending fun s b => ?_]
  simp

@[simp] theorem State.dropCoreWork_pending (s : State) (p : Nat) : (s.dropCoreWork p).pending = s.pending := by
  simp [State.dropCoreWork]

@[simp] theorem State.spoilMem_pending (s : State) (a n : Nat) : (s.spoilMem a n).pending = s.pending := by
  simp [State.spoilMem]

@[simp] theorem State.clusterOut_pending (s : State) (c : Nat) : (s.clusterOut c).pending = s.pending := by
  unfold State.clusterOut
  dsimp only
  (repeat' split) <;> simp

@[simp] theorem State.unmapWindow_pending (s : State) (p : Nat) : (s.unmapWindow p).pending = s.pending := by
  unfold State.unmapWindow
  dsimp only
  split <;> simp

@[simp] theorem State.replayLost_pending (s : State) (p : Nat) : (s.replayLost p).pending = s.pending := by
  unfold State.replayLost
  split <;> simp

@[simp] theorem State.unitFailed_pending (s : State) (o : Option Nat) (place cause : Nat) :
    (s.unitFailed o place cause).pending = s.pending := by
  simp [State.unitFailed]

@[simp] theorem State.coreOut_pending (s : State) (p cause : Nat) (retire : Bool) :
    (s.coreOut p cause retire).pending = s.pending := by
  unfold State.coreOut
  dsimp only
  (repeat' split) <;> simp

@[simp] theorem State.standinEvent_pending (s : State) (c core begins : Nat) :
    (s.standinEvent c core begins).pending = s.pending := by
  simp [State.standinEvent]

@[simp] theorem State.coreBack_pending (s : State) (p : Nat) : (s.coreBack p).pending = s.pending := rfl

theorem State.checkInst_pending {s : State} {p : Nat} {x : Sample} {y : State × Inst} (h : s.checkInst p x = some y) :
    y.1.pending = s.pending := by
  unfold State.checkInst at h
  split at h
  · cases h
  · obtain ⟨i, -, rfl⟩ := Option.map_eq_some_iff.mp h
    dsimp only
    rw [forEach_pending fun s y => State.putSnap_pending s _ _ _ _]
    split
    · exact forEach_pending (fun s e => State.putCode_pending s _ _ _ _ _ _ _) _ _
    · rfl

@[simp] theorem State.checkCodes_pending (s : State) (p : Nat) (x : Sample) (i : Inst) (sweep : Nat) :
    (s.checkCodes p x i sweep).1.pending = s.pending := by
  unfold State.checkCodes
  dsimp only
  split <;> simp

@[simp] theorem State.putEvidence_pending (s : State) (w : Nat) : (s.putEvidence w).1.pending = s.pending := by
  unfold State.putEvidence
  dsimp only
  split <;> simp

@[simp] theorem State.excess_pending (s : State) (p : Nat) (x : Sample) (e : CheckOut) (blame : Nat) :
    (s.excess p x e blame).pending = s.pending := by
  unfold State.excess
  split
  · rfl
  · dsimp only
    split <;> simp

@[simp] theorem State.countCheck_pending (s : State) (p : Nat) (x : Sample) (c : Nat) (fast : Bool) :
    (s.countCheck p x c fast).pending = s.pending := by
  unfold State.countCheck
  split <;> simp

@[simp] theorem State.setProbation_pending (s : State) (on : Bool) (rate until_ : Nat) :
    (s.setProbation on rate until_).pending = s.pending := by
  simp [State.setProbation]

@[simp] theorem State.testFailed_pending (s : State) (u : Nat) : (s.testFailed u).pending = s.pending := by
  unfold State.testFailed
  split <;> simp

@[simp] theorem State.testEnd_pending (s : State) (c : Cmd) (level tested : Nat) (bad : List Nat) :
    (s.testEnd c level tested bad).pending = s.pending := by
  simp [State.testEnd]

@[simp] theorem State.calibrateLane_pending (a : State × Nat × Nat × Nat) (l i : Nat) (fails : Bool) :
    (State.calibrateLane a l i fails).1.pending = a.1.pending := by
  unfold State.calibrateLane
  dsimp only
  split
  · rfl
  · split <;> simp

/-! #### Engine -/

@[simp] theorem State.streamLoad_pending (s : State) (e k : Nat) (b : Bank) (fixed : Nat) :
    (s.streamLoad e k b fixed).pending = s.pending := by
  unfold State.streamLoad
  split <;> simp

theorem State.putSum_pending {s t : State} {c : Nat} {y : StitchSum} (h : s.putSum c y = some t) :
    t.pending = s.pending := by
  obtain ⟨k, -, rfl⟩ := Option.map_eq_some_iff.mp h
  simp

theorem State.putSums_pending {s t : State} {c : Nat} {l : List StitchSum} (h : s.putSums c l = some t) :
    t.pending = s.pending := by
  induction l generalizing s with
  | nil =>
    obtain rfl := Option.some.inj h
    rfl
  | cons y l ih =>
    obtain ⟨u, hu, ht⟩ := Option.bind_eq_some_iff.mp h
    exact (ih ht).trans (State.putSum_pending hu)

@[simp] theorem State.markPass_pending (s : State) (p e : Nat) (ts : List TileRef) (block stitch : Nat) :
    (s.markPass p e ts block stitch).pending = s.pending := by
  simp [State.markPass]

@[simp] theorem State.blockDrained_pending (s : State) (p core place block : Nat) (x : Inst) (t : TileRef) :
    (s.blockDrained p core place block x t).pending = s.pending := by
  unfold State.blockDrained
  dsimp only
  split <;> simp

@[simp] theorem State.beginPass_pending (s : State) (p : Nat) (q : PassRef) (x : Inst) (tiles : List (TileRef × Nat))
    (fixed : Nat) : (s.beginPass p q x tiles fixed).pending = s.pending := by
  unfold State.beginPass
  dsimp only
  split
  · split <;> simp
  · split <;> simp

@[simp] theorem State.matrixPass_pending (s : State) (p code : Nat) (q : PassRef) (errs : MemErrors) (fixed : Nat) :
    (s.matrixPass p code q errs fixed).pending = s.pending := by
  unfold State.matrixPass
  split
  · dsimp only
    split
    · split
      · rfl
      · split
        · simp
        · split <;> simp
    · split
      · rfl
      · split
        · simp
        · split
          · simp
          · next h => simp [State.putSums_pending h]
  · rfl

@[simp] theorem State.dropBank_pending (s : State) (e bank : Nat) : (s.dropBank e bank).pending = s.pending := rfl

@[simp] theorem State.rawDrain_pending (s : State) (e k : Nat) (b : Bank) :
    (s.rawDrain e k b).pending = s.pending := by
  unfold State.rawDrain
  dsimp only
  split
  · rfl
  · next h => simp [State.putSums_pending h]

@[simp] theorem State.drainTile_pending (s : State) (e : Nat) (b : Bank) (t : TileRef × Nat) (rows : Tbl (List Nat)) :
    (s.drainTile e b t rows).pending = s.pending := by
  unfold State.drainTile
  split
  · rfl
  · simp

/-! #### Firmware -/

@[simp] theorem State.bumpSign_pending (s : State) : s.bumpSign.pending = s.pending := rfl

@[simp] theorem State.mboxAnswer_pending (s : State) (q result : Nat) (bytes : List Byte) :
    (s.mboxAnswer q result bytes).pending = s.pending := by
  simp [State.mboxAnswer]

@[simp] theorem State.mboxPiece_pending (s : State) (q need : Nat) (object : List Byte) :
    (s.mboxPiece q need object).pending = s.pending := by
  simp [State.mboxPiece]

/-! #### Roles -/

@[simp] theorem State.replayCores_pending (s : State) (cores : List Nat) (note : Nat) :
    (s.replayCores cores note).pending = s.pending := by
  unfold State.replayCores
  dsimp only
  rw [forEach_pending fun s p => State.modRun_pending s p _, forEach_pending fun s k => State.dropCoreWork_pending s k]

@[simp] theorem State.hubCoreFails_pending (s : State) (i : Nat) (reset : Bool) :
    (s.hubCoreFails i reset).pending = s.pending := by
  simp [State.hubCoreFails]

@[simp] theorem State.takeOver_pending (s : State) (r : Nat) : (s.takeOver r).pending = s.pending := rfl

@[simp] theorem State.fwRestarted_pending (s : State) (i hub cause : Nat) :
    (s.fwRestarted i hub cause).pending = s.pending := by
  simp [State.fwRestarted]

@[simp] theorem State.coreRestarted_pending (s : State) (r : Nat) : (s.coreRestarted r).pending = s.pending := by
  simp [State.coreRestarted]

@[simp] theorem State.ccRestart_pending (s : State) (c cause : Nat) :
    (s.ccRestart c cause).pending = s.pending := by
  simp [State.ccRestart]

@[simp] theorem State.adoptRings_pending (s : State) (i : Nat) : (s.adoptRings i).pending = s.pending := by
  simp [State.adoptRings]

@[simp] theorem State.ringsAdopted_pending (s : State) : s.ringsAdopted.pending = s.pending := by
  simp [State.ringsAdopted]

@[simp] theorem State.resetFunction_pending (s : State) (q n : Nat) :
    (s.resetFunction q n).pending = s.pending := by
  simp [State.resetFunction]

@[simp] theorem State.portReset_pending (s : State) (q : Nat) : (s.portReset q).pending = s.pending := by
  simp [State.portReset]

/-! #### Pavilion -/

@[simp] theorem State.zeroGranules_pending (s : State) (hbm lpddr dstore : List (Nat × Nat)) :
    (s.zeroGranules hbm lpddr dstore).pending = s.pending := by
  unfold State.zeroGranules
  dsimp only
  rw [forEach_pending fun s g => State.zeroMem_pending s _ _, forEach_pending fun s a => State.zeroMem_pending s a gib]

@[simp] theorem State.zeroClusters_pending (s : State) (cs : List Nat) :
    (s.zeroClusters cs).pending = s.pending := by
  simp [State.zeroClusters]

@[simp] theorem State.clearTraps_pending (s : State) (p : Nat) : (s.clearTraps p).pending = s.pending := by
  simp [State.clearTraps]

@[simp] theorem State.rearm_pending (s : State) (c : Cmd) (v : Pav) : (s.rearm c v).pending = s.pending := by
  simp [State.rearm]

/-! #### Window -/

@[simp] theorem State.unmaskSend_pending (s : State) (q fn v : Nat) :
    (s.unmaskSend q fn v).pending = s.pending := by
  simp [State.unmaskSend]

@[simp] theorem State.writeMboxCtrl_pending (s : State) (q v : Nat) (h : Half) :
    (s.writeMboxCtrl q v h).pending = s.pending := by
  simp [State.writeMboxCtrl]

@[simp] theorem State.removeVfs_pending (s : State) (q keep : Nat) : (s.removeVfs q keep).pending = s.pending := by
  simp [State.removeVfs]

/-! #### Reset -/

@[simp] theorem State.cutCount_pending (s : State) (f : Cmd → Bool) (target : Nat) (cause : Option Cmd) :
    (s.cutCount f target cause).1.pending = s.pending := by
  simp [State.cutCount]

@[simp] theorem State.cutRun_pending (s : State) (p target : Nat) (cause : Option Cmd) :
    (s.cutRun p target cause).1.pending = s.pending := by
  unfold State.cutRun
  split <;> simp

@[simp] theorem State.resetPav_pending (s : State) (p target : Nat) (cause : Option Cmd) :
    (s.resetPav p target cause).1.pending = s.pending := by
  unfold State.resetPav
  split <;> simp

@[simp] theorem State.cutRuns_pending (s : State) (f : Pav → Bool) (target : Nat) (cause : Option Cmd) :
    (s.cutRuns f target cause).1.pending = s.pending := by
  unfold State.cutRuns
  refine foldl_fst_pending (fun a p => ?_) _ _
  exact State.cutRun_pending a.1 p target cause

@[simp] theorem State.resetController_pending (s : State) (win m i target : Nat) (cause : Option Cmd) :
    (s.resetController win m i target cause).1.pending = s.pending := by
  simp [State.resetController]

@[simp] theorem State.resetUpdater_pending (s : State) (d target : Nat) (cause : Option Cmd) :
    (s.resetUpdater d target cause).1.pending = s.pending := by
  refine foldl_fst_pending (fun a p => ?_) _ _
  dsimp only
  split <;> simp

@[simp] theorem State.resetLink_pending (s : State) (l : Nat) : (s.resetLink l).pending = s.pending := by
  simp [State.resetLink]

@[simp] theorem State.resetCollective_pending (s : State) (target : Nat) (cause : Option Cmd) :
    (s.resetCollective target cause).1.pending = s.pending := by
  simp [State.resetCollective]

@[simp] theorem State.resetEngine_pending (s : State) (e : Nat) : (s.resetEngine e).pending = s.pending := by
  unfold State.resetEngine
  dsimp only
  split
  · rw [forEach_pending fun s p => State.modRun_pending s p _]
    simp
  · rw [forEach_pending fun s p => State.modRun_pending s p _]
    simp

@[simp] theorem State.scrub_pending (s : State) (cs cores : List Nat) (target : Nat) (cause : Option Cmd) :
    (s.scrub cs cores target cause).1.pending = s.pending := by
  unfold State.scrub
  dsimp only
  rw [forEach_pending fun s k => State.zeroMem_pending s _ _, State.zeroClusters_pending]
  split <;> simp

@[simp] theorem State.resetUnit_pending (s : State) (t : Nat) (scrub : Bool) (cause : Option Cmd) :
    (s.resetUnit t scrub cause).1.pending = s.pending := by
  unfold State.resetUnit
  dsimp only
  generalize t / 4096 = u
  split
  · cases scrub <;> simp
  · cases scrub <;> simp
  · exact State.resetEngine_pending ..
  · exact State.resetLink_pending ..
  · exact State.resetController_pending ..
  · exact State.resetController_pending ..
  · exact State.moversGone_pending ..
  · exact State.resetUpdater_pending ..
  · exact State.resetCollective_pending ..
  · exact State.portReset_pending ..
  · rfl

@[simp] theorem State.retireUnit_pending (s : State) (t : Nat) : (s.retireUnit t).pending = s.pending := by
  unfold State.retireUnit
  split <;> simp

@[simp] theorem State.returnUnit_pending (s : State) (t : Nat) : (s.returnUnit t).pending = s.pending := by
  simp [State.returnUnit]

@[simp] theorem State.performReset_pending (s : State) (t pav : Nat) (scrub retire ret : Bool) (cause : Option Cmd) :
    (s.performReset t pav scrub retire ret cause).1.pending = s.pending := by
  unfold State.performReset
  split
  · simp
  · split
    · dsimp only
      split <;> simp
    · simp

@[simp] theorem State.freset_pending (s : State) (q fn t : Nat) : (s.freset q fn t).pending = s.pending := by
  unfold State.freset
  dsimp only
  split <;> simp

@[simp] theorem State.estop_pending (s : State) (fn : Nat) : (s.estop fn).pending = s.pending := by
  simp [State.estop]

/-! #### Lend -/

@[simp] theorem State.destroyNow_pending (s : State) (c : Cmd) : (s.destroyNow c).pending = s.pending := by
  unfold State.destroyNow
  dsimp only
  split
  · rfl
  · next v _ =>
    split <;> split <;> simp

@[simp] theorem State.tryDestroy_pending (s : State) (c : Cmd) : (s.tryDestroy c).pending = s.pending := by
  simp [State.tryDestroy]

@[simp] theorem State.retarget_pending (s : State) (p x y : Nat) : (s.retarget p x y).pending = s.pending := by
  unfold State.retarget
  exact forEach_pending (fun s k => State.modRing_pending s k _) _ _

theorem State.moveAlloc_pending {s t : State} {p : Nat} {a : Nat × Nat × Nat} (h : s.moveAlloc p a = some t) :
    t.pending = s.pending := by
  obtain ⟨x, hx, rfl⟩ := Option.map_eq_some_iff.mp h
  have hfree : x.2.pending = s.pending := by
    split at hx
    · exact (State.allocAny_pending hx).trans (State.freeMem_pending ..)
    · exact (State.allocMem_pending hx).trans (State.freeMem_pending ..)
  simp [hfree]

theorem State.moveAllocs_pending {s t : State} {p : Nat} {l : List (Nat × Nat × Nat)} (h : s.moveAllocs p l = some t) :
    t.pending = s.pending := by
  induction l generalizing s with
  | nil =>
    obtain rfl := Option.some.inj h
    rfl
  | cons a l ih =>
    unfold State.moveAllocs at h
    split at h
    · cases h
    · next hu => exact (ih h).trans (State.moveAlloc_pending hu)

@[simp] theorem State.checkMoved_pending (s : State) (p n : Nat) : (s.checkMoved p n).pending = s.pending := by
  unfold State.checkMoved
  dsimp only
  split <;> simp

@[simp] theorem State.quiesce_pending (s : State) (p : Nat) (cs : List Nat) (c : Cmd) :
    (s.quiesce p cs c).pending = s.pending := by
  unfold State.quiesce
  dsimp only
  rw [State.moversGone_pending]
  exact forEach_pending (fun s x => State.modCluster_pending s _ _) _ s

@[simp] theorem State.rebind_pending (s : State) (p dst : Nat) (x : Lend) (roleFrom roleTo : Nat) :
    (s.rebind p dst x roleFrom roleTo).pending = s.pending := by
  simp [State.rebind]

/-! #### Recovery -/

@[simp] theorem State.hostGone_pending (s : State) (q : Nat) : (s.hostGone q).pending = s.pending := by
  simp [State.hostGone]

@[simp] theorem State.roleFails_pending (s : State) (r : Nat) : (s.roleFails r).1.pending = s.pending := by
  unfold State.roleFails
  dsimp only
  split <;> simp

@[simp] theorem State.actLatched_pending (s : State) : s.actLatched.pending = s.pending := by
  simp [State.actLatched]

@[simp] theorem State.losePages_pending (s : State) (p : Nat) (lost : Nat → Bool) :
    (s.losePages p lost).pending = s.pending := by
  unfold State.losePages
  split <;> simp

@[simp] theorem State.failUsers_pending (s : State) (f : State → Nat → Pav → Bool) (place : Nat) :
    (s.failUsers f place).pending = s.pending :=
  forEach_pending (fun s p => by simp) _ s

@[simp] theorem State.loseDie_pending (s : State) (d : Nat) : (s.loseDie d).pending = s.pending := by
  unfold State.loseDie
  dsimp only
  rw [State.modLedger_pending, State.zeroMem_pending, State.zeroMem_pending,
    forEach_pending fun s k => State.zeroMem_pending s _ _, forEach_pending fun s k => State.zeroMem_pending s _ _,
    State.modBoot_pending, forEach_pending fun s k => State.freeRing_pending s k, forEach_pending fun s p => ?_]
  · dsimp only
    rw [forEach_pending fun s k => State.modCluster_pending s k _, State.moversGone_pending,
      forEach_pending fun s k => ?_, State.failUsers_pending]
    simp
  · rw [State.losePages_pending, State.pending_ite, State.modPav_pending,
      forEach_pending fun s n => State.dropShard_pending s n, ite_self]

@[simp] theorem State.restartStart_pending (s : State) (h : Nat) : (s.restartStart h).pending = s.pending := by
  simp [State.restartStart]

@[simp] theorem State.loseHub_pending (s : State) (h : Nat) : (s.loseHub h).pending = s.pending := by
  have haxes : ∀ (l : List Nat) (t : State), (forEach l (fun (s : State) a =>
      if (s.axis a).join.isSome then s.failJoin a a 8 else s.closeBridle a) t).pending = t.pending :=
    fun l t => forEach_pending (fun s a => by split <;> simp) l t
  unfold State.loseHub
  dsimp only
  generalize hw : forEach [0, 1, 2] _ _ = w
  have hp : w.pending = s.pending := by rw [← hw, haxes, State.modRoute_pending]
  split
  · split <;> simp [hp]
  · rw [forEach_pending fun s r => State.hubCoreFails_pending s _ false, State.zeroMem_pending,
      forEach_pending fun s p => State.losePages_pending s p _, State.failUsers_pending]
    split <;> simp [hp]

/-! ### The bodies of the commands leave the queue -/

/-! #### Ring -/

@[simp] theorem bodyRingOpen_keeps (s : State) (c : Cmd) : ChkKeeps s.pending (bodyRingOpen s c) := by
  unfold bodyRingOpen
  dsimp only
  (repeat' first | refine chkKeeps_bind fun _ => ?_ | split) <;> simp

@[simp] theorem bodyRingClose_keeps (s : State) (c : Cmd) : ChkKeeps s.pending (bodyRingClose s c) := by
  simp [bodyRingClose]

@[simp] theorem bodyHeartbeat_keeps (s : State) (c : Cmd) : ChkKeeps s.pending (bodyHeartbeat s c) := by
  simp [bodyHeartbeat]

/-! #### Thermal -/

@[simp] theorem bodyPowerCap_keeps (s : State) (c : Cmd) : ChkKeeps s.pending (bodyPowerCap s c) := by
  unfold bodyPowerCap
  dsimp only
  (repeat' first | refine chkKeeps_bind fun _ => ?_ | split) <;> simp

@[simp] theorem bodyThermalStatus_keeps (s : State) (c : Cmd) : ChkKeeps s.pending (bodyThermalStatus s c) := by
  unfold bodyThermalStatus
  split
  · refine chkKeeps_bind fun _ => ChkKeeps.toBuffer_bind fun t ht => ?_
    rw [chkKeeps_ok, State.finish_pending, ht]
  · rw [chkKeeps_ok, State.finish_pending]

/-! #### Counter -/

@[simp] theorem bodyCountersRead_keeps (s : State) (c : Cmd) : ChkKeeps s.pending (bodyCountersRead s c) := by
  unfold bodyCountersRead
  dsimp only
  (repeat' first | refine ChkKeeps.toBuffer_bind fun _ ht => ?_ | refine chkKeeps_bind fun _ => ?_ | split) <;> simp [*]

@[simp] theorem bodyLogRead_keeps (s : State) (c : Cmd) : ChkKeeps s.pending (bodyLogRead s c) := by
  unfold bodyLogRead
  dsimp only
  (repeat' first | refine ChkKeeps.toBuffer_bind fun _ ht => ?_ | refine chkKeeps_bind fun _ => ?_ | split) <;> simp [*]

/-! #### Program -/

@[simp] theorem bodyProgramLoad_keeps (s : State) (c : Cmd) : ChkKeeps s.pending (bodyProgramLoad s c) := by
  have hplace : ∀ {o : Option Nat} {p hd n : Nat} {g : Image} {b : List Byte} {l : List Nat}
      {f : State → List (Nat × Nat × Nat) → Nat → State}, (∀ t x a, (f t x a).pending = t.pending) →
      ChkKeeps s.pending (match o with
        | some w => .ok (s.failMemory c w)
        | none => match (s.freeHandle p hd).allocAny p n 4096 0 with
          | none => .error { code := 0x0184, reason := 0 }
          | some (copy, t) => match (t.writeMem copy b).loadConstants p g l with
            | none => .error { code := 0x0184, reason := 0 }
            | some (x, u) => .ok (f u x copy)) := by
    intro o p hd n g b l f hf
    split
    · simp
    · split
      · simp
      · next t ht =>
        have hpt : t.pending = s.pending := (State.allocAny_pending ht).trans (State.freeHandle_pending ..)
        split
        · simp
        · next u hu =>
          have hpu : u.pending = s.pending := (State.loadConstants_pending hu).trans
              ((State.writeMem_pending ..).trans hpt)
          simp [hf, hpu]
  unfold bodyProgramLoad
  dsimp only
  refine chkKeeps_bind fun _ => ?_
  split
  · simp
  · refine chkKeeps_bind fun _ => chkKeeps_bind fun _ => ?_
    split
    · simp
    · split
      · simp
      · split
        · simp
        · refine chkKeeps_ite (chkKeeps_bind fun _ => chkKeeps_bind fun _ => chkKeeps_bind fun _ => ?_) ?_
          · exact hplace fun t x a => by simp
          · split
            · exact chkKeeps_bind fun _ => hplace fun t x a => by simp
            · exact chkKeeps_bind fun _ => hplace fun t x a => by simp

@[simp] theorem bodyProgramUnload_keeps (s : State) (c : Cmd) : ChkKeeps s.pending (bodyProgramUnload s c) := by
  unfold bodyProgramUnload
  split <;> simp

@[simp] theorem bodyForerunnerNumerics_keeps (s : State) (c : Cmd) :
    ChkKeeps s.pending (bodyForerunnerNumerics s c) := by
  unfold bodyForerunnerNumerics
  dsimp only
  (repeat' split) <;> simp

@[simp] theorem State.startRun_keeps (s : State) (c : Cmd) (hd ahead stages : Nat) (isStep : Bool)
    (mk : Run → Run) :
    ChkKeeps s.pending (s.startRun c hd ahead stages isStep mk) := by
  unfold State.startRun
  dsimp only
  (repeat' first | refine chkKeeps_bind fun _ => ?_ | split) <;> simp

@[simp] theorem bodyProgramRun_keeps (s : State) (c : Cmd) : ChkKeeps s.pending (bodyProgramRun s c) := by
  simp [bodyProgramRun]

@[simp] theorem bodyStepRun_keeps (s : State) (c : Cmd) : ChkKeeps s.pending (bodyStepRun s c) := by
  simp [bodyStepRun]

@[simp] theorem bodyProgramStop_keeps (s : State) (c : Cmd) : ChkKeeps s.pending (bodyProgramStop s c) := by
  unfold bodyProgramStop
  dsimp only
  (repeat' split) <;> simp

/-! #### Ledger -/

@[simp] theorem bodyShardUpdate_keeps (s : State) (c : Cmd) : ChkKeeps s.pending (bodyShardUpdate s c) := by
  unfold bodyShardUpdate
  dsimp only
  split
  · simp
  · (repeat' first | refine chkKeeps_bind fun _ => ?_ | split)
    all_goals try simp
    all_goals
      next h =>
      have hp := (pending_of_fst h).trans (State.stageList_pending ..)
      simp [hp]

@[simp] theorem bodyLedgerQuery_keeps (s : State) (c : Cmd) : ChkKeeps s.pending (bodyLedgerQuery s c) := by
  unfold bodyLedgerQuery
  dsimp only
  (repeat' first | refine ChkKeeps.toBuffer_bind fun _ ht => ?_ | refine chkKeeps_bind fun _ => ?_ | split) <;> simp [*]

@[simp] theorem State.repairRevert_keeps (s : State) (c : Cmd) (v : Pav) :
    ChkKeeps s.pending (s.repairRevert c v) := by
  unfold State.repairRevert
  dsimp only
  split
  · simp
  · simp
  · refine chkKeeps_bind fun _ => chkKeeps_bind fun _ => ?_
    split
    · simp
    · simp
    · rw [chkKeeps_ok, State.finish_pending]
      generalize hw : forEach _ _ _ = w
      have hp : w.pending = s.pending := by
        rw [← hw, forEach_pending fun s n => State.modShard_pending s n _]
        split <;> simp
      split <;> simp [hp]

@[simp] theorem State.repairRewrite_keeps (s : State) (c : Cmd) (n : Nat) (r : Rec) :
    ChkKeeps s.pending (s.repairRewrite c n r) := by
  unfold State.repairRewrite
  dsimp only
  (repeat' first | refine chkKeeps_bind fun _ => ?_ | split) <;> simp

@[simp] theorem bodyLedgerRepair_keeps (s : State) (c : Cmd) : ChkKeeps s.pending (bodyLedgerRepair s c) := by
  unfold bodyLedgerRepair
  dsimp only
  split
  · simp
  · next v _ =>
    split
    · simp only [chkKeeps_ok, State.pending_ite]
      split <;> simp
    · refine chkKeeps_bind fun _ => ?_
      split
      · refine chkKeeps_bind fun _ => ?_
        simp
      · split
        · refine chkKeeps_bind fun _ => ?_
          simp
        · split
          · exact chkKeeps_bind fun _ => State.repairRevert_keeps s c v
          · split
            · simp
            · refine chkKeeps_bind fun _ => chkKeeps_bind fun _ => chkKeeps_bind fun _ => chkKeeps_bind fun _ => ?_
              split <;> simp

/-! #### Reshape -/

@[simp] theorem bodyReshapeBegin_keeps (s : State) (c : Cmd) : ChkKeeps s.pending (bodyReshapeBegin s c) := by
  unfold bodyReshapeBegin
  dsimp only
  split
  · simp
  · refine chkKeeps_bind fun _ => chkKeeps_bind fun _ => chkKeeps_bind fun _ => chkKeeps_bind fun _ => ?_
    split
    · simp
    · refine chkKeeps_bind fun _ => chkKeeps_bind fun _ => chkKeeps_bind fun _ => chkKeeps_bind fun _ =>
        chkKeeps_bind fun _ => ?_
      refine chkKeeps_ite (by simp) (ChkKeeps.bind fun x hx => ?_)
      have hp : x.1.pending = s.pending := by
        rw [State.createShards_pending hx, State.reshapeTo_pending, State.modPav_pending,
          forEach_pending fun s k => State.modShard_pending s k _, State.modRun_pending, State.started_pending]
      split <;> simp [hp]

@[simp] theorem bodyReshapeCommit_keeps (s : State) (c : Cmd) : ChkKeeps s.pending (bodyReshapeCommit s c) := by
  unfold bodyReshapeCommit
  dsimp only
  (repeat' first | refine chkKeeps_bind fun _ => ?_ | split) <;> simp

@[simp] theorem bodyReshapeAbort_keeps (s : State) (c : Cmd) : ChkKeeps s.pending (bodyReshapeAbort s c) := by
  unfold bodyReshapeAbort
  dsimp only
  (repeat' split) <;> simp

@[simp] theorem bodyReshapeRelease_keeps (s : State) (c : Cmd) : ChkKeeps s.pending (bodyReshapeRelease s c) := by
  unfold bodyReshapeRelease
  dsimp only
  (repeat' first | refine chkKeeps_bind fun _ => ?_ | split) <;> simp

@[simp] theorem bodyLayoutQuery_keeps (s : State) (c : Cmd) : ChkKeeps s.pending (bodyLayoutQuery s c) := by
  unfold bodyLayoutQuery
  dsimp only
  (repeat' first | refine ChkKeeps.toBuffer_bind fun _ ht => ?_ | refine chkKeeps_bind fun _ => ?_ | split) <;> simp [*]

/-! #### Mover -/

@[simp] theorem bodyMove_keeps (s : State) (c : Cmd) : ChkKeeps s.pending (bodyMove s c) := by
  unfold bodyMove
  dsimp only
  (repeat' first | refine chkKeeps_bind fun _ => ?_ | split) <;> simp

@[simp] theorem bodyOffload_keeps (s : State) (c : Cmd) : ChkKeeps s.pending (bodyOffload s c) := by
  unfold bodyOffload
  dsimp only
  refine chkKeeps_bind fun _ => chkKeeps_bind fun _ => chkKeeps_bind fun _ => ?_
  split
  · exact chkKeeps_bind fun _ => by simp
  · split
    · simp
    · next t h =>
      have ht : t.pending = s.pending := State.allocMem_pending h
      simp [ht]

@[simp] theorem bodyRestore_keeps (s : State) (c : Cmd) : ChkKeeps s.pending (bodyRestore s c) := by
  unfold bodyRestore
  dsimp only
  (repeat' first | refine chkKeeps_bind fun _ => ?_ | split) <;> simp

@[simp] theorem bodyMemRepair_keeps (s : State) (c : Cmd) : ChkKeeps s.pending (bodyMemRepair s c) := by
  unfold bodyMemRepair
  extract_lets mask retrain rows stackIds dies
  refine chkKeeps_bind fun _ => ?_
  split
  next w done bad hw =>
  have hp : w.pending = s.pending := by
    refine (pending_of_fst hw).trans (foldl_fst_pending (fun a r => ?_) _ _)
    dsimp only
    split <;> simp
  dsimp only
  split <;> simp [hp]

@[simp] theorem bodyMemRetireList_keeps (s : State) (c : Cmd) : ChkKeeps s.pending (bodyMemRetireList s c) := by
  unfold bodyMemRetireList
  dsimp only
  split <;> simp

/-! #### Time -/

@[simp] theorem bodyTimeRoot_keeps (s : State) (c : Cmd) : ChkKeeps s.pending (bodyTimeRoot s c) := by
  simp [bodyTimeRoot]

@[simp] theorem bodyTimeStatus_keeps (s : State) (c : Cmd) : ChkKeeps s.pending (bodyTimeStatus s c) := by
  unfold bodyTimeStatus
  dsimp only
  split
  · exact ChkKeeps.toBuffer_bind fun t ht => by simp [ht]
  · exact (chkKeeps_ok _ _).mpr (State.finish_pending ..)

@[simp] theorem bodyBarrierAt_keeps (s : State) (c : Cmd) : ChkKeeps s.pending (bodyBarrierAt s c) := by
  unfold bodyBarrierAt
  dsimp only
  (repeat' first | refine chkKeeps_bind fun _ => ?_ | split) <;> simp

/-! #### Fabric -/

@[simp] theorem bodyRouteLoad_keeps (s : State) (c : Cmd) : ChkKeeps s.pending (bodyRouteLoad s c) := by
  unfold bodyRouteLoad
  dsimp only
  (repeat' first | refine chkKeeps_bind fun _ => ?_ | split) <;> simp

@[simp] theorem bodyRouteSwap_keeps (s : State) (c : Cmd) : ChkKeeps s.pending (bodyRouteSwap s c) := by
  unfold bodyRouteSwap
  dsimp only
  (repeat' first | refine chkKeeps_bind fun _ => ?_ | split) <;> simp

@[simp] theorem bodyFenceSet_keeps (s : State) (c : Cmd) : ChkKeeps s.pending (bodyFenceSet s c) := by
  unfold bodyFenceSet
  dsimp only
  (repeat' split) <;> simp

@[simp] theorem bodyLinkStatus_keeps (s : State) (c : Cmd) : ChkKeeps s.pending (bodyLinkStatus s c) := by
  unfold bodyLinkStatus
  dsimp only
  (repeat' first | refine ChkKeeps.toBuffer_bind fun _ ht => ?_ | refine chkKeeps_bind fun _ => ?_ | split) <;> simp [*]

@[simp] theorem State.openGrant_keeps (s : State) (c : Cmd) (l : Nat) : ChkKeeps s.pending (s.openGrant c l) := by
  simp [State.openGrant]

@[simp] theorem State.openJoin_keeps (s : State) (c : Cmd) (a : Nat) (form : Bool) :
    ChkKeeps s.pending (s.openJoin c a form) := by
  unfold State.openJoin
  dsimp only
  (repeat' first | refine chkKeeps_bind fun _ => ?_ | split) <;> simp

@[simp] theorem bodyLinkJoin_keeps (s : State) (c : Cmd) : ChkKeeps s.pending (bodyLinkJoin s c) := by
  unfold bodyLinkJoin
  dsimp only
  refine chkKeeps_bind fun _ => chkKeeps_bind fun _ => ?_
  split
  · refine chkKeeps_bind fun _ => ?_
    split
    · exact State.openGrant_keeps s c _
    · simp
  · exact chkKeeps_bind fun _ => State.openJoin_keeps s c _ _

@[simp] theorem bodyAcceptWiring_keeps (s : State) (c : Cmd) : ChkKeeps s.pending (bodyAcceptWiring s c) := by
  simp [bodyAcceptWiring]

@[simp] theorem bodyBridleStepAside_keeps (s : State) (c : Cmd) : ChkKeeps s.pending (bodyBridleStepAside s c) := by
  unfold bodyBridleStepAside
  dsimp only
  (repeat' split) <;> simp

/-! #### Twin -/

@[simp] theorem bodyTwinPair_keeps (s : State) (c : Cmd) : ChkKeeps s.pending (bodyTwinPair s c) := by
  unfold bodyTwinPair
  dsimp only
  (repeat' first | refine chkKeeps_bind fun _ => ?_ | split) <;> simp

@[simp] theorem bodyTwinUnpair_keeps (s : State) (c : Cmd) : ChkKeeps s.pending (bodyTwinUnpair s c) := by
  unfold bodyTwinUnpair
  dsimp only
  (repeat' split) <;> simp

@[simp] theorem bodyTwinRestore_keeps (s : State) (c : Cmd) : ChkKeeps s.pending (bodyTwinRestore s c) := by
  unfold bodyTwinRestore
  dsimp only
  (repeat' first | refine chkKeeps_bind fun _ => ?_ | split) <;> simp

@[simp] theorem bodyDigestCompare_keeps (s : State) (c : Cmd) : ChkKeeps s.pending (bodyDigestCompare s c) := by
  unfold bodyDigestCompare
  dsimp only
  (repeat' first | refine chkKeeps_bind fun _ => ?_ | split) <;> simp

@[simp] theorem bodyDisagreeResolve_keeps (s : State) (c : Cmd) : ChkKeeps s.pending (bodyDisagreeResolve s c) := by
  unfold bodyDisagreeResolve
  dsimp only
  (repeat' first | refine chkKeeps_bind fun _ => ?_ | split) <;> simp

/-! #### Check -/

@[simp] theorem bodyCheckRateSet_keeps (s : State) (c : Cmd) : ChkKeeps s.pending (bodyCheckRateSet s c) := by
  unfold bodyCheckRateSet
  dsimp only
  refine chkKeeps_bind fun _ => chkKeeps_bind fun _ => ?_
  rw [chkKeeps_ok, State.finish_pending, forEach_pending fun s k => State.modCluster_pending s k _]

@[simp] theorem bodyHealthReport_keeps (s : State) (c : Cmd) : ChkKeeps s.pending (bodyHealthReport s c) := by
  unfold bodyHealthReport
  dsimp only
  (repeat' first | refine chkKeeps_bind fun _ => ?_ | split) <;> simp

@[simp] theorem bodyProbationSet_keeps (s : State) (c : Cmd) : ChkKeeps s.pending (bodyProbationSet s c) := by
  simp [bodyProbationSet]

@[simp] theorem selftestBody_keeps (failures : List Nat) (s : State) (c : Cmd) :
    ChkKeeps s.pending (selftestBody failures s c) := by
  unfold selftestBody
  dsimp only
  refine chkKeeps_bind fun _ => chkKeeps_ite (chkKeeps_bind fun _ => chkKeeps_bind fun _ => by simp) ?_
  split
  · simp
  · simp only [chkKeeps_ok, State.testEnd_pending, State.pending_ite]
    rw [forEach_pending fun s u => State.modCluster_pending s _ _, State.pending_ite,
      forEach_pending fun s u => State.modCore_pending s _ _, State.pending_ite,
          forEach_pending fun s u => State.testFailed_pending s u]
    simp

@[simp] theorem calibrateBody_keeps (failed : Nat) (s : State) (c : Cmd) :
    ChkKeeps s.pending (calibrateBody failed s c) := by
  unfold calibrateBody
  dsimp only
  split <;> simp

/-! #### Firmware -/

@[simp] theorem bodyAttest_keeps (s : State) (c : Cmd) : ChkKeeps s.pending (bodyAttest s c) := by
  unfold bodyAttest
  exact chkKeeps_bind fun _ => chkKeeps_bind fun _ => ChkKeeps.toBuffer_bind fun t ht => by simp [ht]

@[simp] theorem bodyIdentityGet_keeps (s : State) (c : Cmd) : ChkKeeps s.pending (bodyIdentityGet s c) := by
  unfold bodyIdentityGet
  exact chkKeeps_bind fun _ => ChkKeeps.toBuffer_bind fun t ht => by simp [ht]

@[simp] theorem bodyFwStatus_keeps (s : State) (c : Cmd) : ChkKeeps s.pending (bodyFwStatus s c) := by
  unfold bodyFwStatus
  dsimp only
  (repeat' first | refine ChkKeeps.toBuffer_bind fun _ ht => ?_ | refine chkKeeps_bind fun _ => ?_ | split) <;> simp [*]

/-! #### Pavilion -/

@[simp] theorem bodyPavilionCreate_keeps (s : State) (c : Cmd) : ChkKeeps s.pending (bodyPavilionCreate s c) := by
  unfold bodyPavilionCreate
  dsimp only
  (repeat' first | refine chkKeeps_bind fun _ => ?_ | split) <;> simp

@[simp] theorem bodyPavilionStatus_keeps (s : State) (c : Cmd) : ChkKeeps s.pending (bodyPavilionStatus s c) := by
  unfold bodyPavilionStatus
  split <;> simp

@[simp] theorem bodyPavilionAdopt_keeps (s : State) (c : Cmd) : ChkKeeps s.pending (bodyPavilionAdopt s c) := by
  unfold bodyPavilionAdopt
  dsimp only
  (repeat' split) <;> simp

/-! #### Reset -/

@[simp] theorem bodyFunctionReset_keeps (s : State) (c : Cmd) : ChkKeeps s.pending (bodyFunctionReset s c) := by
  unfold bodyFunctionReset
  dsimp only
  (repeat' first | refine chkKeeps_bind fun _ => ?_ | split) <;> simp

/-! #### Lend -/

@[simp] theorem bodyPavilionDestroy_keeps (s : State) (c : Cmd) : ChkKeeps s.pending (bodyPavilionDestroy s c) := by
  unfold bodyPavilionDestroy
  dsimp only
  split <;> simp

@[simp] theorem bodyPavilionLend_keeps (s : State) (c : Cmd) : ChkKeeps s.pending (bodyPavilionLend s c) := by
  unfold bodyPavilionLend
  dsimp only
  split
  · simp
  · repeat refine chkKeeps_bind fun _ => ?_
    split
    · simp
    · next t ht =>
      have hp : t.pending = s.pending := by
        rw [State.moveAllocs_pending ht, State.pending_ite, forEach_pending fun s k => State.freeRing_pending s k]
        simp
      rw [chkKeeps_ok, State.finish_pending, State.rebind_pending, State.quiesce_pending,
        forEach_pending fun s n => State.checkMoved_pending s _ n, hp]

/-! #### Recovery -/

@[simp] theorem bodyCoreRestart_keeps (s : State) (c : Cmd) : ChkKeeps s.pending (bodyCoreRestart s c) := by
  unfold bodyCoreRestart
  dsimp only
  (repeat' first | refine chkKeeps_bind fun _ => ?_ | split) <;> simp

/-! ### Every command answers, with the queue as it was -/

/-! #### Ring -/

@[simp] theorem execCommandRead_answers (r : FnRef) (s : State) : Answers s.pending (execCommandRead r s) := by
  unfold execCommandRead
  dsimp only
  (repeat' split) <;> simp

@[simp] theorem execSqDb_answers (r : FnRef) (value : W64) (half : Half) (s : State) :
    Answers s.pending (execSqDb r value half s) := by
  unfold execSqDb
  dsimp only
  (repeat' split) <;> simp

@[simp] theorem execCqDb_answers (r : FnRef) (value : W64) (half : Half) (s : State) :
    Answers s.pending (execCqDb r value half s) := by
  unfold execCqDb
  dsimp only
  (repeat' split) <;> simp

@[simp] theorem execEqDb_answers (r : FnRef) (value : W64) (half : Half) (s : State) :
    Answers s.pending (execEqDb r value half s) := by
  unfold execEqDb
  dsimp only
  (repeat' split) <;> simp

@[simp] theorem execMirrorWrite_answers (r : FnRef) (s : State) : Answers s.pending (execMirrorWrite r s) := by
  unfold execMirrorWrite
  dsimp only
  split <;> simp

@[simp] theorem execMirrorRefresh_answers (r : FnRef) (s : State) : Answers s.pending (execMirrorRefresh r s) := by
  unfold execMirrorRefresh
  dsimp only
  split <;> simp

@[simp] theorem execCoalesceTimeout_answers (r : FnRef) (s : State) :
    Answers s.pending (execCoalesceTimeout r s) := by
  unfold execCoalesceTimeout
  dsimp only
  split <;> simp

@[simp] theorem execRingOpen_answers (id : Nat) (s : State) : Answers s.pending (execRingOpen id s) := by
  simp [execRingOpen]

@[simp] theorem execRingClose_answers (id : Nat) (s : State) : Answers s.pending (execRingClose id s) := by
  simp [execRingClose]

@[simp] theorem execHeartbeat_answers (id : Nat) (s : State) : Answers s.pending (execHeartbeat id s) := by
  simp [execHeartbeat]

@[simp] theorem execRingsetCfgEnable_answers (r : FnRef) (eq cq sq : BitVec 4) (s : State) :
    Answers s.pending (execRingsetCfgEnable r eq cq sq s) := by
  unfold execRingsetCfgEnable
  extract_lets k u g w z
  have hu : u.pending = s.pending := by simp [u]
  have hw : w.pending = s.pending := by simp [w, hu]
  split
  · simp
  · split
    · simp
    · split
      · simp [hu]
      · split
        · simp [hw]
        · split
          · simp [hw]
          · split
            · simp [hw]
            · have hz : z.pending = s.pending := by simp [z, hw]
              split
              · simp [hz]
              · next t h =>
                have ht : t.pending = s.pending := (State.allocRing_pending h).trans hz
                simp [ht]

@[simp] theorem execRingsetCfgDisable_answers (x : RingOff) (s : State) :
    Answers s.pending (execRingsetCfgDisable x s) := by
  unfold execRingsetCfgDisable
  dsimp only
  (repeat' split) <;> simp

/-! #### Start -/

@[simp] theorem execPowerUp_answers (mv : Nat) (s : State) : Answers s.pending (execPowerUp mv s) := by
  unfold execPowerUp
  split <;> simp

@[simp] theorem execResetNAssert_answers (s : State) : Answers s.pending (execResetNAssert s) := by
  simp [execResetNAssert]

@[simp] theorem execInputBelowStop_answers (mv : Nat) (s : State) :
    Answers s.pending (execInputBelowStop mv s) := by
  unfold execInputBelowStop
  split <;> simp

@[simp] theorem execInputOvervoltage_answers (mv : Nat) (s : State) :
    Answers s.pending (execInputOvervoltage mv s) := by
  unfold execInputOvervoltage
  split <;> simp

@[simp] theorem execEvInput_answers (mv : Nat) (s : State) : Answers s.pending (execEvInput mv s) := by
  unfold execEvInput
  dsimp only
  (repeat' split) <;> simp

@[simp] theorem execHubSelftest_answers (hub : Fin 2) (pass : Bool) (s : State) :
    Answers s.pending (execHubSelftest hub pass s) := by
  unfold execHubSelftest
  split <;> simp

@[simp] theorem execLeadHubTimeout_answers (s : State) : Answers s.pending (execLeadHubTimeout s) := by
  unfold execLeadHubTimeout
  split <;> simp

@[simp] theorem execIdentityDerive_answers (hub : Fin 2) (o : IdOutcome) (s : State) :
    Answers s.pending (execIdentityDerive hub o s) := by
  unfold execIdentityDerive
  dsimp only
  (repeat' split) <;> simp

@[simp] theorem execLoad_answers (port : Fin 2) (s : State) : Answers s.pending (execLoad port s) := by
  unfold execLoad
  dsimp only
  (repeat' split) <;> simp

@[simp] theorem execAbandon_answers (port : Fin 2) (s : State) : Answers s.pending (execAbandon port s) := by
  unfold execAbandon
  split <;> simp

@[simp] theorem execBundlePullDone_answers (s : State) : Answers s.pending (execBundlePullDone s) := by
  unfold execBundlePullDone
  split
  · simp
  · split <;> simp

@[simp] theorem execBundleVerify_answers (s : State) : Answers s.pending (execBundleVerify s) := by
  unfold execBundleVerify
  dsimp only
  (repeat' split) <;> simp

@[simp] theorem execPowerFirmwareStart_answers (s : State) : Answers s.pending (execPowerFirmwareStart s) := by
  unfold execPowerFirmwareStart
  split <;> simp

@[simp] theorem execMemoryTrained_answers (failed : BitVec 32) (s : State) :
    Answers s.pending (execMemoryTrained failed s) := by
  unfold execMemoryTrained
  dsimp only
  (repeat' split) <;> simp

@[simp] theorem execConfigApply_answers (failedCores : List (Fin 192)) (s : State) :
    Answers s.pending (execConfigApply failedCores s) := by
  unfold execConfigApply
  dsimp only
  (repeat' split) <;> simp

@[simp] theorem execModuleReady_answers (s : State) : Answers s.pending (execModuleReady s) := by
  unfold execModuleReady
  split <;> simp

@[simp] theorem execStartTimeout_answers (s : State) : Answers s.pending (execStartTimeout s) := by
  unfold execStartTimeout
  split <;> simp

@[simp] theorem execPortConfigReady_answers (port : Fin 2) (s : State) :
    Answers s.pending (execPortConfigReady port s) := by
  unfold execPortConfigReady
  split <;> simp

/-! #### Thermal -/

@[simp] theorem execIslandTargetSet_answers (i : Fin 332) (mhz : Nat) (s : State) :
    Answers s.pending (execIslandTargetSet i mhz s) := by
  unfold execIslandTargetSet
  dsimp only
  split <;> simp

@[simp] theorem execFrequencyChange_answers (i : Fin 332) (s : State) :
    Answers s.pending (execFrequencyChange i s) := by
  simp [execFrequencyChange]

@[simp] theorem execDroopDetect_answers (i : Fin 332) (cycles : Nat) (s : State) :
    Answers s.pending (execDroopDetect i cycles s) := by
  simp [execDroopDetect]

@[simp] theorem execDroopEnd_answers (i : Fin 332) (goodCycles : Nat) (s : State) :
    Answers s.pending (execDroopEnd i goodCycles s) := by
  unfold execDroopEnd
  split <;> simp

@[simp] theorem execThermalCeilingLower_answers (i : Fin 332) (tempC : Nat) (s : State) :
    Answers s.pending (execThermalCeilingLower i tempC s) := by
  unfold execThermalCeilingLower
  dsimp only
  split <;> simp

@[simp] theorem execThermalCeilingRaise_answers (i : Fin 332) (tempC : Nat) (s : State) :
    Answers s.pending (execThermalCeilingRaise i tempC s) := by
  unfold execThermalCeilingRaise
  dsimp only
  split <;> simp

@[simp] theorem execHbmOvertemp_answers (hs : Fin 32) (tempC : Nat) (s : State) :
    Answers s.pending (execHbmOvertemp hs tempC s) := by
  simp [execHbmOvertemp]

@[simp] theorem execHbmTemperatureFall_answers (hs : Fin 32) (tempC : Nat) (s : State) :
    Answers s.pending (execHbmTemperatureFall hs tempC s) := by
  simp [execHbmTemperatureFall]

@[simp] theorem execPowerBudgetDivision_answers (otherDraw : Nat) (s : State) :
    Answers s.pending (execPowerBudgetDivision otherDraw s) := by
  unfold execPowerBudgetDivision
  split <;> simp

@[simp] theorem execPowerMonitorSample_answers (u : Fin 10) (draw : Nat) (s : State) :
    Answers s.pending (execPowerMonitorSample u draw s) := by
  unfold execPowerMonitorSample
  extract_lets budget t w w'
  have hw : w.pending = s.pending := by simp [w]
  split
  · rw [answers_next, forEach_pending fun s i => State.modIsle_pending s i _, State.modUnitTemp_pending, hw]
  · split
    · split
      · simp [hw]
      · split
        · rw [answers_next, forEach_pending fun s i => ?_, hw]
          split <;> simp
        · simp [hw]
    · simp [hw]

@[simp] theorem execPowerCap_answers (id : Nat) (s : State) : Answers s.pending (execPowerCap id s) := by
  simp [execPowerCap]

@[simp] theorem execCapTakeEffect_answers (s : State) : Answers s.pending (execCapTakeEffect s) := by
  unfold execCapTakeEffect
  dsimp only
  (repeat' split) <;> simp

@[simp] theorem execCoolantLowFlow_answers (flow : Nat) (s : State) :
    Answers s.pending (execCoolantLowFlow flow s) := by
  unfold execCoolantLowFlow
  dsimp only
  (repeat' split) <;> simp

@[simp] theorem execCoolantInletTemperature_answers (deciC : Nat) (s : State) :
    Answers s.pending (execCoolantInletTemperature deciC s) := by
  simp [execCoolantInletTemperature]

@[simp] theorem execThermalHistoryWrite_answers (meanW peakW : Nat) (s : State) :
    Answers s.pending (execThermalHistoryWrite meanW peakW s) := by
  unfold execThermalHistoryWrite
  split <;> simp

@[simp] theorem execThermalStatus_answers (id : Nat) (s : State) : Answers s.pending (execThermalStatus id s) := by
  simp [execThermalStatus]

@[simp] theorem execSmbusRead_answers (cmd : Byte) (s : State) : Answers s.pending (execSmbusRead cmd s) := by
  simp [execSmbusRead]

/-! #### Counter -/

@[simp] theorem execCounterFoldA_answers (s : State) : Answers s.pending (execCounterFoldA s) := by
  simp [execCounterFoldA]

@[simp] theorem execCounterFoldB_answers (s : State) : Answers s.pending (execCounterFoldB s) := by
  simp [execCounterFoldB]

@[simp] theorem execEvCounterLost_answers (counter : Nat) (s : State) :
    Answers s.pending (execEvCounterLost counter s) := by
  unfold execEvCounterLost
  dsimp only
  (repeat' split) <;> simp

@[simp] theorem execCountersRead_answers (id : Nat) (s : State) : Answers s.pending (execCountersRead id s) := by
  simp [execCountersRead]

@[simp] theorem execLogRead_answers (id : Nat) (s : State) : Answers s.pending (execLogRead id s) := by
  simp [execLogRead]

/-! #### Program -/

@[simp] theorem execProgramLoad_answers (id : Nat) (s : State) : Answers s.pending (execProgramLoad id s) := by
  simp [execProgramLoad]

@[simp] theorem execProgramUnload_answers (id : Nat) (s : State) : Answers s.pending (execProgramUnload id s) := by
  simp [execProgramUnload]

@[simp] theorem execForerunnerNumerics_answers (id : Nat) (s : State) :
    Answers s.pending (execForerunnerNumerics id s) := by
  simp [execForerunnerNumerics]

@[simp] theorem execProgramRun_answers (id : Nat) (s : State) : Answers s.pending (execProgramRun id s) := by
  simp [execProgramRun]

@[simp] theorem execStepRun_answers (id : Nat) (s : State) : Answers s.pending (execStepRun id s) := by
  simp [execStepRun]

@[simp] theorem execProgramStop_answers (id : Nat) (s : State) : Answers s.pending (execProgramStop id s) := by
  simp [execProgramStop]

@[simp] theorem execDeferredCommandStart_answers (p : Fin 8) (s : State) :
    Answers s.pending (execDeferredCommandStart p s) := by
  unfold execDeferredCommandStart
  dsimp only
  (repeat' split) <;> simp

@[simp] theorem execStepMark_answers (p : Fin 8) (op : Nat) (s : State) :
    Answers s.pending (execStepMark p op s) := by
  unfold execStepMark
  split
  · simp
  · split
    · split <;> simp
    · split <;> simp

@[simp] theorem execBarrierInstant_answers (p : Fin 8) (s : State) :
    Answers s.pending (execBarrierInstant p s) := by
  unfold execBarrierInstant
  split
  · simp
  · split
    · simp
    · split <;> simp

@[simp] theorem execProgressTimeout_answers (p : Fin 8) (s : State) :
    Answers s.pending (execProgressTimeout p s) := by
  unfold execProgressTimeout
  dsimp only
  (repeat' split) <;> simp

@[simp] theorem execWaitToken_answers (p : Fin 8) (op : Nat) (s : State) :
    Answers s.pending (execWaitToken p op s) := by
  unfold execWaitToken
  split <;> simp

@[simp] theorem execSignalToken_answers (p : Fin 8) (op : Nat) (s : State) :
    Answers s.pending (execSignalToken p op s) := by
  unfold execSignalToken
  split <;> simp

@[simp] theorem execTileStart_answers (p : Fin 8) (t : TileRef) (s : State) :
    Answers s.pending (execTileStart p t s) := by
  unfold execTileStart
  dsimp only
  (repeat' split) <;> simp

@[simp] theorem execElementwise_answers (p : Fin 8) (t : TileRef) (s : State) :
    Answers s.pending (execElementwise p t s) := by
  simp [execElementwise]

@[simp] theorem execReduce_answers (p : Fin 8) (t : TileRef) (s : State) :
    Answers s.pending (execReduce p t s) := by
  simp [execReduce]

@[simp] theorem execNormFwd_answers (p : Fin 8) (t : TileRef) (s : State) :
    Answers s.pending (execNormFwd p t s) := by
  simp [execNormFwd]

@[simp] theorem execNormBwd_answers (p : Fin 8) (t : TileRef) (s : State) :
    Answers s.pending (execNormBwd p t s) := by
  simp [execNormBwd]

@[simp] theorem execSoftmaxFwd_answers (p : Fin 8) (t : TileRef) (s : State) :
    Answers s.pending (execSoftmaxFwd p t s) := by
  simp [execSoftmaxFwd]

@[simp] theorem execSoftmaxBwd_answers (p : Fin 8) (t : TileRef) (s : State) :
    Answers s.pending (execSoftmaxBwd p t s) := by
  simp [execSoftmaxBwd]

@[simp] theorem execTieSum_answers (p : Fin 8) (t : TileRef) (s : State) :
    Answers s.pending (execTieSum p t s) := by
  simp [execTieSum]

@[simp] theorem execWindowGather_answers (p : Fin 8) (t : TileRef) (s : State) :
    Answers s.pending (execWindowGather p t s) := by
  unfold execWindowGather
  dsimp only
  (repeat' split) <;> simp

@[simp] theorem execOffloadOp_answers (p : Fin 8) (t : TileRef) (s : State) :
    Answers s.pending (execOffloadOp p t s) := by
  unfold execOffloadOp
  dsimp only
  split
  · simp
  · split
    · simp
    · split
      · simp
      · split
        · simp
        · next h =>
          rw [answers_next, State.moverTile_pending, State.modPav_pending, State.renew_pending]
          refine (forEach_keep (g := fun a : State × List Byte => a.1.pending) (fun a r => ?_) _ _).trans
            ((State.offRanges_pending h).trans ?_) <;> simp

@[simp] theorem execRestoreOp_answers (p : Fin 8) (rd : TileRead) (s : State) :
    Answers s.pending (execRestoreOp p rd s) := by
  unfold execRestoreOp
  dsimp only
  (repeat' split) <;> simp

/-! #### Ledger -/

@[simp] theorem execUpdate_answers (p : Fin 8) (op shard : Nat) (s : State) :
    Answers s.pending (execUpdate p op shard s) := by
  unfold execUpdate
  dsimp only
  (repeat' split) <;> simp

@[simp] theorem execSealWrite_answers (p : Fin 8) (s : State) : Answers s.pending (execSealWrite p s) := by
  unfold execSealWrite
  dsimp only
  (repeat' split) <;> simp

@[simp] theorem execShardCommit_answers (p : Fin 8) (shard : Nat) (s : State) :
    Answers s.pending (execShardCommit p shard s) := by
  unfold execShardCommit
  dsimp only
  (repeat' split) <;> simp

@[simp] theorem execRollForward_answers (p : Fin 8) (s : State) : Answers s.pending (execRollForward p s) := by
  unfold execRollForward
  split
  · simp
  · split <;> simp

@[simp] theorem execShardUpdate_answers (id : Nat) (s : State) : Answers s.pending (execShardUpdate id s) := by
  simp [execShardUpdate]

@[simp] theorem execLedgerQuery_answers (id : Nat) (s : State) : Answers s.pending (execLedgerQuery id s) := by
  simp [execLedgerQuery]

@[simp] theorem execLedgerRepair_answers (id : Nat) (s : State) : Answers s.pending (execLedgerRepair id s) := by
  simp [execLedgerRepair]

/-! #### Reshape -/

@[simp] theorem execReshapeBegin_answers (id : Nat) (s : State) : Answers s.pending (execReshapeBegin id s) := by
  unfold execReshapeBegin
  split <;> simp

@[simp] theorem execShardArrival_answers (p : Fin 8) (m : ShardMsg) (s : State) :
    Answers s.pending (execShardArrival p m s) := by
  unfold execShardArrival
  dsimp only
  split
  · simp
  · split
    · simp
    · split
      · simp
      · split
        · split <;> simp
        · next t h =>
          have ht : t.pending = s.pending := State.receiveShard_pending h
          simp [ht]
        · next t h =>
          have ht : t.pending = s.pending := State.receiveShard_pending h
          split <;> simp [ht]

@[simp] theorem execReshapeShardAck_answers (p : Fin 8) (shard : Nat) (ok : Bool) (s : State) :
    Answers s.pending (execReshapeShardAck p shard ok s) := by
  unfold execReshapeShardAck
  dsimp only
  (repeat' split) <;> simp

@[simp] theorem execReshapeTransferTimeout_answers (p : Fin 8) (s : State) :
    Answers s.pending (execReshapeTransferTimeout p s) := by
  unfold execReshapeTransferTimeout
  dsimp only
  (repeat' split) <;> simp

@[simp] theorem execReshapeCommit_answers (id : Nat) (s : State) : Answers s.pending (execReshapeCommit id s) := by
  simp [execReshapeCommit]

@[simp] theorem execReshapeCommitAt_answers (p : Fin 8) (s : State) :
    Answers s.pending (execReshapeCommitAt p s) := by
  unfold execReshapeCommitAt
  split
  · simp
  · split <;> simp

@[simp] theorem execReshapeAbort_answers (id : Nat) (s : State) : Answers s.pending (execReshapeAbort id s) := by
  simp [execReshapeAbort]

@[simp] theorem execReshapeRelease_answers (id : Nat) (s : State) :
    Answers s.pending (execReshapeRelease id s) := by
  simp [execReshapeRelease]

@[simp] theorem execLayoutQuery_answers (id : Nat) (s : State) : Answers s.pending (execLayoutQuery id s) := by
  simp [execLayoutQuery]

/-! #### Collective -/

@[simp] theorem execChainSum_answers (p : Fin 8) (m : CollMsg) (s : State) :
    Answers s.pending (execChainSum p m s) := by
  simp [execChainSum]

@[simp] theorem execChainResult_answers (p : Fin 8) (m : CollMsg) (s : State) :
    Answers s.pending (execChainResult p m s) := by
  simp [execChainResult]

@[simp] theorem execGatherPiece_answers (p : Fin 8) (m : CollMsg) (s : State) :
    Answers s.pending (execGatherPiece p m s) := by
  simp [execGatherPiece]

@[simp] theorem execCollAck_answers (p : Fin 8) (m : CollMsg) (s : State) :
    Answers s.pending (execCollAck p m s) := by
  unfold execCollAck
  dsimp only
  (repeat' split) <;> simp

@[simp] theorem execCollAbort_answers (p : Fin 8) (m : CollMsg) (s : State) :
    Answers s.pending (execCollAbort p m s) := by
  unfold execCollAbort
  dsimp only
  (repeat' split) <;> simp

@[simp] theorem execCollectiveTimeout_answers (p : Fin 8) (op : Nat) (s : State) :
    Answers s.pending (execCollectiveTimeout p op s) := by
  unfold execCollectiveTimeout
  dsimp only
  (repeat' split) <;> simp

@[simp] theorem execReduceScatter_answers (p : Fin 8) (op : Nat) (s : State) :
    Answers s.pending (execReduceScatter p op s) := by
  unfold execReduceScatter
  dsimp only
  split
  · simp
  · split
    · simp
    · split
      · rw [answers_next, State.collCheck_pending, State.flushColl_pending, State.takeHeld_pending,
          forEach_pending fun s x => ?_, forEach_pending fun s x => State.modShard_pending s _ _,
              State.openColl_pending]
        exact forEach_pending (fun s y => by simp) _ _
      · rw [answers_next, State.collCheck_pending, State.flushColl_pending, State.takeHeld_pending,
          forEach_pending fun s x => State.modShard_pending s _ _, State.openColl_pending]

@[simp] theorem execGatherShards_answers (p : Fin 8) (op : Nat) (s : State) :
    Answers s.pending (execGatherShards p op s) := by
  unfold execGatherShards
  dsimp only
  (repeat' split) <;> simp

/-! #### Mover -/

@[simp] theorem execDescriptorStart_answers (id : Nat) (x : DescRead) (s : State) :
    Answers s.pending (execDescriptorStart id x s) := by
  simp [execDescriptorStart]

@[simp] theorem execDescriptorTimeout_answers (id : Nat) (s : State) :
    Answers s.pending (execDescriptorTimeout id s) := by
  unfold execDescriptorTimeout
  split
  · split <;> simp
  · simp

@[simp] theorem execHostCompletion_answers (port : Fin 2) (tag : Nat) (cpl : HostCpl) (s : State) :
    Answers s.pending (execHostCompletion port tag cpl s) := by
  unfold execHostCompletion
  dsimp only
  (repeat' split) <;> simp

@[simp] theorem execCompletionTimeout_answers (port : Fin 2) (tag : Nat) (s : State) :
    Answers s.pending (execCompletionTimeout port tag s) := by
  unfold execCompletionTimeout
  dsimp only
  (repeat' split) <;> simp

@[simp] theorem execMove_answers (id : Nat) (s : State) : Answers s.pending (execMove id s) := by
  simp [execMove]

@[simp] theorem execOffload_answers (id : Nat) (s : State) : Answers s.pending (execOffload id s) := by
  simp [execOffload]

@[simp] theorem execRestore_answers (id : Nat) (s : State) : Answers s.pending (execRestore id s) := by
  simp [execRestore]

@[simp] theorem execPatrolScrub_answers (place : Nat) (errs : MemErrors) (s : State) :
    Answers s.pending (execPatrolScrub place errs s) := by
  simp [execPatrolScrub]

@[simp] theorem execSoftRowRepair_answers (page : Nat) (s : State) :
    Answers s.pending (execSoftRowRepair page s) := by
  unfold execSoftRowRepair
  dsimp only
  (repeat' split) <;> simp

@[simp] theorem execRetirementRecordWrite_answers (s : State) :
    Answers s.pending (execRetirementRecordWrite s) := by
  unfold execRetirementRecordWrite
  split <;> simp

@[simp] theorem execMemRepair_answers (id : Nat) (s : State) : Answers s.pending (execMemRepair id s) := by
  simp [execMemRepair]

@[simp] theorem execMemRetireList_answers (id : Nat) (s : State) : Answers s.pending (execMemRetireList id s) := by
  simp [execMemRetireList]

/-! #### Time -/

@[simp] theorem execTimeSyncSend_answers (l : Fin 6) (s : State) : Answers s.pending (execTimeSyncSend l s) := by
  unfold execTimeSyncSend
  dsimp only
  split <;> simp

@[simp] theorem execTimeSync_answers (l : Fin 6) (m : TimeSyncMsg) (s : State) :
    Answers s.pending (execTimeSync l m s) := by
  unfold execTimeSync
  dsimp only
  (repeat' split) <;> simp

@[simp] theorem execRootLost_answers (s : State) : Answers s.pending (execRootLost s) := by
  unfold execRootLost
  split <;> simp

@[simp] theorem execTimeLock_answers (s : State) : Answers s.pending (execTimeLock s) := by
  unfold execTimeLock
  split <;> simp

@[simp] theorem execTimeHoldover_answers (s : State) : Answers s.pending (execTimeHoldover s) := by
  unfold execTimeHoldover
  split <;> simp

@[simp] theorem execTimeRoot_answers (id : Nat) (s : State) : Answers s.pending (execTimeRoot id s) := by
  simp [execTimeRoot]

@[simp] theorem execTimeStatus_answers (id : Nat) (s : State) : Answers s.pending (execTimeStatus id s) := by
  simp [execTimeStatus]

@[simp] theorem execBarrierAt_answers (id : Nat) (s : State) : Answers s.pending (execBarrierAt id s) := by
  simp [execBarrierAt]

/-! #### Link -/

@[simp] theorem execLaneLossOfSignal_answers (l : Fin 6) (lane : Fin 32) (s : State) :
    Answers s.pending (execLaneLossOfSignal l lane s) := by
  simp [execLaneLossOfSignal]

@[simp] theorem execLaneErrorRate_answers (l : Fin 6) (lane : Fin 32) (events : Nat) (s : State) :
    Answers s.pending (execLaneErrorRate l lane events s) := by
  simp [execLaneErrorRate]

@[simp] theorem execLaneRecalibrate_answers (l : Fin 6) (lane : Fin 32) (s : State) :
    Answers s.pending (execLaneRecalibrate l lane s) := by
  unfold execLaneRecalibrate
  dsimp only
  split <;> simp

@[simp] theorem execLaneTestDone_answers (l : Fin 6) (lane : Fin 32) (uncorrectable events : Nat) (s : State) :
    Answers s.pending (execLaneTestDone l lane uncorrectable events s) := by
  unfold execLaneTestDone
  split <;> simp

@[simp] theorem execLaneMask_answers (l : Fin 6) (mask : BitVec 32) (s : State) :
    Answers s.pending (execLaneMask l mask s) := by
  unfold execLaneMask
  split <;> simp

@[simp] theorem execLaneSwitch_answers (l : Fin 6) (s : State) : Answers s.pending (execLaneSwitch l s) := by
  unfold execLaneSwitch
  split <;> simp

@[simp] theorem execFlitReceive_answers (l : Fin 6) (f : Flit) (s : State) :
    Answers s.pending (execFlitReceive l f s) := by
  unfold execFlitReceive
  dsimp only
  (repeat' split) <;> simp

@[simp] theorem execReplayLimit_answers (l : Fin 6) (s : State) : Answers s.pending (execReplayLimit l s) := by
  simp [execReplayLimit]

@[simp] theorem execLinkIdleTimeout_answers (l : Fin 6) (s : State) :
    Answers s.pending (execLinkIdleTimeout l s) := by
  simp [execLinkIdleTimeout]

@[simp] theorem execPacketQueueTimeout_answers (l : Fin 6) (s : State) :
    Answers s.pending (execPacketQueueTimeout l s) := by
  unfold execPacketQueueTimeout
  dsimp only
  (repeat' split) <;> simp

@[simp] theorem execLinkRetrain_answers (l : Fin 6) (s : State) : Answers s.pending (execLinkRetrain l s) := by
  unfold execLinkRetrain
  dsimp only
  (repeat' split) <;> simp

@[simp] theorem execQuarantineRetry_answers (l : Fin 6) (s : State) :
    Answers s.pending (execQuarantineRetry l s) := by
  unfold execQuarantineRetry
  dsimp only
  split <;> simp

@[simp] theorem execTrainingRecordSend_answers (l : Fin 6) (s : State) :
    Answers s.pending (execTrainingRecordSend l s) := by
  unfold execTrainingRecordSend
  dsimp only
  split <;> simp

@[simp] theorem execTrainingRecord_answers (l : Fin 6) (t : TrainRec) (s : State) :
    Answers s.pending (execTrainingRecord l t s) := by
  unfold execTrainingRecord
  split
  · simp
  · split <;> simp

@[simp] theorem execBridleOpen_answers (axis : Fin 3) (s : State) : Answers s.pending (execBridleOpen axis s) := by
  unfold execBridleOpen
  dsimp only
  (repeat' split) <;> simp

@[simp] theorem execBridleClose_answers (axis : Fin 3) (cause : BridleCause) (s : State) :
    Answers s.pending (execBridleClose axis cause s) := by
  unfold execBridleClose
  dsimp only
  (repeat' split) <;> simp

@[simp] theorem execJoinTimeout_answers (axis : Fin 3) (s : State) :
    Answers s.pending (execJoinTimeout axis s) := by
  unfold execJoinTimeout
  dsimp only
  (repeat' split) <;> simp

@[simp] theorem execLoopbackDone_answers (axis : Fin 3) (pass : Bool) (s : State) :
    Answers s.pending (execLoopbackDone axis pass s) := by
  unfold execLoopbackDone
  dsimp only
  (repeat' split) <;> simp

@[simp] theorem execGrantExpire_answers (l : Fin 6) (s : State) : Answers s.pending (execGrantExpire l s) := by
  unfold execGrantExpire
  split
  · simp
  · split <;> simp

@[simp] theorem execHubForwardFail_answers (unit : Fin 3) (s : State) :
    Answers s.pending (execHubForwardFail unit s) := by
  simp [execHubForwardFail]

/-! #### Fabric -/

@[simp] theorem execPacketArrive_answers (l : Fin 6) (k : Pkt) (s : State) :
    Answers s.pending (execPacketArrive l k s) := by
  unfold execPacketArrive
  dsimp only
  (repeat' split) <;> simp

@[simp] theorem execRouteLoad_answers (id : Nat) (s : State) : Answers s.pending (execRouteLoad id s) := by
  unfold execRouteLoad
  split <;> simp

@[simp] theorem execRouteSwap_answers (id : Nat) (s : State) : Answers s.pending (execRouteSwap id s) := by
  simp [execRouteSwap]

@[simp] theorem execRouteSwapTakeEffect_answers (s : State) : Answers s.pending (execRouteSwapTakeEffect s) := by
  unfold execRouteSwapTakeEffect
  split
  · simp
  · split <;> simp

@[simp] theorem execOldPlaneExpire_answers (s : State) : Answers s.pending (execOldPlaneExpire s) := by
  unfold execOldPlaneExpire
  split <;> simp

@[simp] theorem execFenceSet_answers (id : Nat) (s : State) : Answers s.pending (execFenceSet id s) := by
  simp [execFenceSet]

@[simp] theorem execFenceTakeEffect_answers (s : State) : Answers s.pending (execFenceTakeEffect s) := by
  unfold execFenceTakeEffect
  split
  · simp
  · dsimp only
    rw [answers_next, forEach_pending fun s x => ?_, State.modRoute_pending]
    split <;> simp

@[simp] theorem execLinkStatus_answers (id : Nat) (s : State) : Answers s.pending (execLinkStatus id s) := by
  simp [execLinkStatus]

@[simp] theorem execLinkJoin_answers (id : Nat) (s : State) : Answers s.pending (execLinkJoin id s) := by
  simp [execLinkJoin]

@[simp] theorem execAcceptWiring_answers (id : Nat) (s : State) : Answers s.pending (execAcceptWiring id s) := by
  simp [execAcceptWiring]

@[simp] theorem execBridleStepAside_answers (id : Nat) (s : State) :
    Answers s.pending (execBridleStepAside id s) := by
  simp [execBridleStepAside]

@[simp] theorem execBridleStepAsideAt_answers (s : State) : Answers s.pending (execBridleStepAsideAt s) := by
  unfold execBridleStepAsideAt
  dsimp only
  (repeat' split) <;> simp

/-! #### Twin -/

@[simp] theorem execMirrorSend_answers (p : Fin 8) (shard : Nat) (s : State) :
    Answers s.pending (execMirrorSend p shard s) := by
  unfold execMirrorSend
  dsimp only
  split <;> simp

@[simp] theorem execTwinSeed_answers (p : Fin 8) (shard : Nat) (s : State) :
    Answers s.pending (execTwinSeed p shard s) := by
  unfold execTwinSeed
  dsimp only
  (repeat' split) <;> simp

@[simp] theorem execDisagreeProcedure_answers (p : Fin 8) (shard : Nat) (s : State) :
    Answers s.pending (execDisagreeProcedure p shard s) := by
  unfold execDisagreeProcedure
  dsimp only
  (repeat' split) <;> simp

@[simp] theorem execMirrorData_answers (p : Fin 8) (m : ShardMsg) (s : State) :
    Answers s.pending (execMirrorData p m s) := by
  unfold execMirrorData
  split
  · simp
  · split
    · split
      · simp
      · split
        · simp
        · split
          · simp
          · split
            · simp
            · next t h =>
              have ht : t.pending = s.pending := State.restoreShard_pending h
              simp [ht]
            · next t h =>
              have ht : t.pending = s.pending := State.restoreShard_pending h
              simp [ht]
    · dsimp only
      split
      · simp
      · split <;> simp

@[simp] theorem execMirrorAck_answers (p : Fin 8) (shard : Nat) (version : BitVec 16) (s : State) :
    Answers s.pending (execMirrorAck p shard version s) := by
  unfold execMirrorAck
  dsimp only
  (repeat' split) <;> simp

@[simp] theorem execMirrorRetry_answers (p : Fin 8) (shard : Nat) (s : State) :
    Answers s.pending (execMirrorRetry p shard s) := by
  unfold execMirrorRetry
  dsimp only
  (repeat' split) <;> simp

@[simp] theorem execTwinSuspend_answers (p : Fin 8) (s : State) : Answers s.pending (execTwinSuspend p s) := by
  unfold execTwinSuspend
  dsimp only
  split <;> simp

@[simp] theorem execDigestComparison_answers (p : Fin 8) (s : State) :
    Answers s.pending (execDigestComparison p s) := by
  unfold execDigestComparison
  dsimp only
  (repeat' split) <;> simp

@[simp] theorem execTwinDigest_answers (p : Fin 8) (m : DigestMsg) (s : State) :
    Answers s.pending (execTwinDigest p m s) := by
  unfold execTwinDigest
  dsimp only
  (repeat' split) <;> simp

@[simp] theorem execTwinPair_answers (id : Nat) (s : State) : Answers s.pending (execTwinPair id s) := by
  simp [execTwinPair]

@[simp] theorem execTwinPairTimeout_answers (p : Fin 8) (s : State) :
    Answers s.pending (execTwinPairTimeout p s) := by
  unfold execTwinPairTimeout
  dsimp only
  (repeat' split) <;> simp

@[simp] theorem execTwinUnpair_answers (id : Nat) (s : State) : Answers s.pending (execTwinUnpair id s) := by
  simp [execTwinUnpair]

@[simp] theorem execTwinRestore_answers (id : Nat) (s : State) : Answers s.pending (execTwinRestore id s) := by
  simp [execTwinRestore]

@[simp] theorem execTwinControl_answers (p : Fin 8) (m : TwinMsg) (s : State) :
    Answers s.pending (execTwinControl p m s) := by
  unfold execTwinControl
  dsimp only
  (repeat' split) <;> simp

@[simp] theorem execDigestCompare_answers (id : Nat) (s : State) : Answers s.pending (execDigestCompare id s) := by
  simp [execDigestCompare]

@[simp] theorem execDisagreeResolve_answers (id : Nat) (s : State) :
    Answers s.pending (execDisagreeResolve id s) := by
  simp [execDisagreeResolve]

/-! #### Check -/

@[simp] theorem execCoreFailure_answers (core : Fin 192) (cause : Nat) (s : State) :
    Answers s.pending (execCoreFailure core cause s) := by
  unfold execCoreFailure
  dsimp only
  split <;> simp

@[simp] theorem execStandinBegin_answers (c : Fin 32) (s : State) : Answers s.pending (execStandinBegin c s) := by
  unfold execStandinBegin
  extract_lets
  split
  · exact (answers_next _ _).mpr rfl
  · refine answers_ite ((answers_next _ _).mpr rfl) ((answers_next _ _).mpr ?_)
    rw [State.standinEvent_pending, State.modCluster_pending, State.spoilMem_pending, State.resetCounters_pending,
      State.dropCoreWork_pending]

@[simp] theorem execStandinEnd_answers (c : Fin 32) (s : State) : Answers s.pending (execStandinEnd c s) := by
  unfold execStandinEnd
  dsimp only
  (repeat' split) <;> simp

@[simp] theorem execAccUncorrectable_answers (eng : Fin 384) (bank : Fin 2) (s : State) :
    Answers s.pending (execAccUncorrectable eng bank s) := by
  unfold execAccUncorrectable
  dsimp only
  split <;> simp

@[simp] theorem execDieBridgeFailure_answers (b : Fin 10) (s : State) :
    Answers s.pending (execDieBridgeFailure b s) := by
  simp [execDieBridgeFailure]

@[simp] theorem execCheckRun_answers (c : Fin 32) (t : TileRef) (s : State) :
    Answers s.pending (execCheckRun c t s) := by
  unfold execCheckRun
  dsimp only
  (repeat' split) <;> simp

@[simp] theorem execCheckDrop_answers (c : Fin 32) (t : TileRef) (s : State) :
    Answers s.pending (execCheckDrop c t s) := by
  unfold execCheckDrop
  dsimp only
  (repeat' split) <;> simp

@[simp] theorem execArbiterCheck_answers (c : Fin 32) (t : TileRef) (s : State) :
    Answers s.pending (execArbiterCheck c t s) := by
  unfold execArbiterCheck
  dsimp only
  (repeat' split) <;> simp

@[simp] theorem execCheckRateSet_answers (id : Nat) (s : State) : Answers s.pending (execCheckRateSet id s) := by
  simp [execCheckRateSet]

@[simp] theorem execHealthScoreUpdate_answers (s : State) : Answers s.pending (execHealthScoreUpdate s) := by
  simp [execHealthScoreUpdate]

@[simp] theorem execHealthReport_answers (id : Nat) (s : State) : Answers s.pending (execHealthReport id s) := by
  simp [execHealthReport]

@[simp] theorem execProbationSet_answers (id : Nat) (s : State) : Answers s.pending (execProbationSet id s) := by
  simp [execProbationSet]

@[simp] theorem execProbationExpire_answers (s : State) : Answers s.pending (execProbationExpire s) := by
  unfold execProbationExpire
  dsimp only
  split <;> simp

@[simp] theorem execSelftestRun_answers (id : Nat) (failures : List Nat) (s : State) :
    Answers s.pending (execSelftestRun id failures s) := by
  simp [execSelftestRun]

@[simp] theorem execCalibrate_answers (id : Nat) (failed : Nat) (s : State) :
    Answers s.pending (execCalibrate id failed s) := by
  simp [execCalibrate]

/-! #### Engine -/

@[simp] theorem execMatmul_answers (p : Fin 8) (x : PassLoad) (s : State) :
    Answers s.pending (execMatmul p x s) := by
  simp [execMatmul]

@[simp] theorem execMatmulWgrad_answers (p : Fin 8) (x : PassLoad) (s : State) :
    Answers s.pending (execMatmulWgrad p x s) := by
  simp [execMatmulWgrad]

@[simp] theorem execShadowLoadDone_answers (eng : Fin 384) (s : State) :
    Answers s.pending (execShadowLoadDone eng s) := by
  unfold execShadowLoadDone
  dsimp only
  (repeat' split) <;> simp

@[simp] theorem execBankDrain_answers (eng : Fin 384) (bank : Fin 2) (s : State) :
    Answers s.pending (execBankDrain eng bank s) := by
  unfold execBankDrain
  dsimp only
  (repeat' split) <;> simp

@[simp] theorem execStitchAdd_answers (eng : Fin 384) (bank : Fin 2) (s : State) :
    Answers s.pending (execStitchAdd eng bank s) := by
  unfold execStitchAdd
  dsimp only
  (repeat' split) <;> simp

/-! #### Firmware -/

@[simp] theorem execMboxIdentity_answers (port : Fin 2) (s : State) :
    Answers s.pending (execMboxIdentity port s) := by
  unfold execMboxIdentity
  split <;> simp

@[simp] theorem execMboxAttest_answers (port : Fin 2) (s : State) : Answers s.pending (execMboxAttest port s) := by
  unfold execMboxAttest
  dsimp only
  (repeat' split) <;> simp

@[simp] theorem execMboxStartLog_answers (port : Fin 2) (s : State) :
    Answers s.pending (execMboxStartLog port s) := by
  unfold execMboxStartLog
  split <;> simp

@[simp] theorem execAttest_answers (id : Nat) (s : State) : Answers s.pending (execAttest id s) := by
  simp [execAttest]

@[simp] theorem execIdentityGet_answers (id : Nat) (s : State) : Answers s.pending (execIdentityGet id s) := by
  simp [execIdentityGet]

@[simp] theorem execFwStatus_answers (id : Nat) (s : State) : Answers s.pending (execFwStatus id s) := by
  simp [execFwStatus]

/-! #### Pavilion -/

@[simp] theorem execPavilionCreate_answers (id : Nat) (s : State) :
    Answers s.pending (execPavilionCreate id s) := by
  simp [execPavilionCreate]

@[simp] theorem execPavilionStatus_answers (id : Nat) (s : State) :
    Answers s.pending (execPavilionStatus id s) := by
  simp [execPavilionStatus]

@[simp] theorem execPavilionAdopt_answers (id : Nat) (s : State) : Answers s.pending (execPavilionAdopt id s) := by
  simp [execPavilionAdopt]

/-! #### Window -/

@[simp] theorem execMsixUnmask_answers (r : FnRef) (vec : Fin 64) (s : State) :
    Answers s.pending (execMsixUnmask r vec s) := by
  simp [execMsixUnmask]

@[simp] theorem execRegisterWrite_answers (r : FnRef) (offset : Nat) (value : W64) (half : Half) (s : State) :
    Answers s.pending (execRegisterWrite r offset value half s) := by
  unfold execRegisterWrite
  dsimp only
  refine answers_ite (by simp) (answers_ite (by simp) (answers_ite ?_ (answers_ite ?_ (answers_ite (by simp)
    (answers_ite (by simp) ?_)))))
  · rw [answers_next, forEach_pending fun s i => State.unmaskSend_pending s _ _ i, State.modPort_pending]
  · refine answers_ite (by simp) (answers_ite (answers_ite ?_ (answers_ite ?_ ?_)) (by simp))
    all_goals simp
  · split
    · simp
    · simp
    · exact answers_ite (by simp) (by simp)
    · exact answers_ite (by simp) (by simp)

@[simp] theorem execHostHeartbeat_answers (r : FnRef) (s : State) : Answers s.pending (execHostHeartbeat r s) := by
  unfold execHostHeartbeat
  split
  · simp
  · split <;> simp

@[simp] theorem execBar2Write_answers (r : FnRef) (offset : Nat) (bytes : List Byte) (poisoned : Bool) (s : State) :
    Answers s.pending (execBar2Write r offset bytes poisoned s) := by
  unfold execBar2Write
  dsimp only
  (repeat' split) <;> simp

@[simp] theorem execBar2Read_answers (r : FnRef) (offset : Nat) (x : BarRead) (s : State) :
    Answers s.pending (execBar2Read r offset x s) := by
  unfold execBar2Read
  dsimp only
  (repeat' split) <;> simp

@[simp] theorem execVfEnable_answers (port : Fin 2) (numVfs : Nat) (s : State) :
    Answers s.pending (execVfEnable port numVfs s) := by
  simp [execVfEnable]

@[simp] theorem execVfDisable_answers (port : Fin 2) (numVfs : Nat) (s : State) :
    Answers s.pending (execVfDisable port numVfs s) := by
  simp [execVfDisable]

@[simp] theorem execD3hotEntry_answers (r : FnRef) (s : State) : Answers s.pending (execD3hotEntry r s) := by
  simp [execD3hotEntry]

@[simp] theorem execD0Return_answers (r : FnRef) (s : State) : Answers s.pending (execD0Return r s) := by
  unfold execD0Return
  dsimp only
  split <;> simp

/-! #### Reset -/

@[simp] theorem execFunctionReset_answers (id : Nat) (s : State) : Answers s.pending (execFunctionReset id s) := by
  simp [execFunctionReset]

@[simp] theorem execFreset_answers (r : FnRef) (target : BitVec 16) (s : State) :
    Answers s.pending (execFreset r target s) := by
  unfold execFreset
  dsimp only
  (repeat' split) <;> simp

@[simp] theorem execEstop_answers (r : FnRef) (arm : BitVec 16) (s : State) :
    Answers s.pending (execEstop r arm s) := by
  unfold execEstop
  dsimp only
  (repeat' split) <;> simp

@[simp] theorem execPerst_answers (port : Fin 2) (s : State) : Answers s.pending (execPerst port s) := by
  simp [execPerst]

@[simp] theorem execHotReset_answers (port : Fin 2) (s : State) : Answers s.pending (execHotReset port s) := by
  simp [execHotReset]

@[simp] theorem execPfFlr_answers (port : Fin 2) (s : State) : Answers s.pending (execPfFlr port s) := by
  simp [execPfFlr]

@[simp] theorem execVfFlr_answers (port : Fin 2) (n : Fin 8) (s : State) :
    Answers s.pending (execVfFlr port n s) := by
  unfold execVfFlr
  dsimp only
  split <;> simp

/-! #### Lend -/

@[simp] theorem execPavilionDestroy_answers (id : Nat) (s : State) :
    Answers s.pending (execPavilionDestroy id s) := by
  unfold execPavilionDestroy
  split
  · simp
  · split <;> simp

@[simp] theorem execPavilionLend_answers (id : Nat) (s : State) : Answers s.pending (execPavilionLend id s) := by
  simp [execPavilionLend]

/-! #### Recovery -/

@[simp] theorem execHeartbeatLate_answers (port : Fin 2) (s : State) :
    Answers s.pending (execHeartbeatLate port s) := by
  unfold execHeartbeatLate
  dsimp only
  split <;> simp

@[simp] theorem execHostLost_answers (port : Fin 2) (s : State) : Answers s.pending (execHostLost port s) := by
  unfold execHostLost
  dsimp only
  split <;> simp

@[simp] theorem execModuleBeat_answers (s : State) : Answers s.pending (execModuleBeat s) := by
  unfold execModuleBeat
  split <;> simp

@[simp] theorem execSchedulerTakeover_answers (s : State) : Answers s.pending (execSchedulerTakeover s) := by
  unfold execSchedulerTakeover
  split <;> simp

@[simp] theorem execPowerManagementTakeover_answers (s : State) :
    Answers s.pending (execPowerManagementTakeover s) := by
  simp [execPowerManagementTakeover]

@[simp] theorem execSecurityTakeover_answers (s : State) : Answers s.pending (execSecurityTakeover s) := by
  unfold execSecurityTakeover
  split <;> simp

@[simp] theorem execStandbyCoreFailure_answers (role : Fin 3) (s : State) :
    Answers s.pending (execStandbyCoreFailure role s) := by
  simp [execStandbyCoreFailure]

@[simp] theorem execClusterControlRestart_answers (c : Fin 32) (s : State) :
    Answers s.pending (execClusterControlRestart c s) := by
  simp [execClusterControlRestart]

@[simp] theorem execFirmwareCoreRestarted_answers (role : Fin 3) (s : State) :
    Answers s.pending (execFirmwareCoreRestarted role s) := by
  simp [execFirmwareCoreRestarted]

@[simp] theorem execCoreRestart_answers (id : Nat) (s : State) : Answers s.pending (execCoreRestart id s) := by
  simp [execCoreRestart]

@[simp] theorem execDieShutdown_answers (u : Fin 10) (tempC : Nat) (s : State) :
    Answers s.pending (execDieShutdown u tempC s) := by
  unfold execDieShutdown
  split <;> simp

/-- Every command answers a next state with the queue as it was: one case for each command of the dispatch. -/
theorem exec_answers (c : Instr) (s : State) : Answers s.pending (exec c s) := by
  cases c <;> simp [exec]

end Sys2Proof.Machine

open Sys2Proof Sys2Proof.Machine

/-- Settles O1: the law of the step where a command waits. -/
theorem stepRunsFront : Obligations.StepRunsFront := fun _ _ _ h => step_of_pending h

/-- Settles O59: what a command answers has the queue of the state before it. -/
theorem commandsLeaveTheQueue : Obligations.CommandsLeaveTheQueue := by
  intro c s t h
  obtain ⟨u, hu, hq⟩ := exec_answers c s
  obtain rfl : u = t := by simpa using hu.symm.trans h
  exact hq

/-- Settles O60: no command ends in a fault or a refusal. -/
theorem everyCommandAnswers : Obligations.EveryCommandAnswers := fun c s =>
  let ⟨t, ht, _⟩ := exec_answers c s
  ⟨t, ht⟩
end

section
/-! PROOFS. O2, O56 and O57: the tick of an empty queue (R365, R366) and what a reset leaves (R475). -/

namespace Sys2Proof.Machine

/-- One nanosecond of the oscillator, and of building time at its steered rate while it runs. -/
def TimeSt.tick (t : TimeSt) : TimeSt :=
  let acc := t.part + (1000000000 + t.ratePpb).toNat
  if t.state = 0 then { t with localNs := t.localNs + 1, elapsed := t.elapsed + 1 }
  else { t with
    localNs := t.localNs + 1, elapsed := t.elapsed + acc / 1000000000
    btime := t.btime + acc / 1000000000, part := acc % 1000000000 }

theorem TimeSt.tick_of_off {t : TimeSt} (h : t.state = 0) :
    t.tick = { t with localNs := t.localNs + 1, elapsed := t.elapsed + 1 } := if_pos h

theorem TimeSt.tick_of_on {t : TimeSt} (h : t.state ≠ 0) :
    t.tick = { t with
      localNs := t.localNs + 1, elapsed := t.elapsed + (t.part + (1000000000 + t.ratePpb).toNat) / 1000000000
      btime := t.btime + (t.part + (1000000000 + t.ratePpb).toNat) / 1000000000
      part := (t.part + (1000000000 + t.ratePpb).toNat) % 1000000000 } := if_neg h

@[simp] theorem TimeSt.tick_localNs (t : TimeSt) : t.tick.localNs = t.localNs + 1 := by
  unfold TimeSt.tick
  dsimp only
  split <;> rfl

/-- Throttling counts and does nothing else (R263). -/
theorem State.throttle_eq (s : State) : ∃ l, s.throttle = { s with ctrs := l } := by
  refine forEach_inv (P := fun t : State => ∃ l, t = { s with ctrs := l }) (fun t e ht => ?_) _ _ ⟨s.ctrs, rfl⟩
  obtain ⟨l, rfl⟩ := ht
  split
  · exact ⟨l, rfl⟩
  · exact ⟨_, rfl⟩

theorem step_of_idle {s : State} (h : s.pending = []) : step s = .next s.idle := by
  simp only [step, h]

theorem State.idle_eq (s : State) : s.idle = if s.time.btime / 1000 < s.time.tick.btime / 1000
    then (s.modTime TimeSt.tick).throttle else s.modTime TimeSt.tick := rfl

/-- The tick of the time is all of an idle step, but for the throttle counters at a microsecond of building time. -/
theorem State.idle_spec (s : State) : s.idle.time = s.time.tick ∧ s.idle = { s with time := s.time.tick, ctrs := s.idle.ctrs }
    ∧ (s.time.tick.btime / 1000 = s.time.btime / 1000 → s.idle.ctrs = s.ctrs) := by
  rw [State.idle_eq]
  split
  · next hlt =>
    obtain ⟨l, hl⟩ := (s.modTime TimeSt.tick).throttle_eq
    rw [hl]
    exact ⟨rfl, rfl, fun h => absurd h (Nat.ne_of_gt hlt)⟩
  · exact ⟨rfl, rfl, fun _ => rfl⟩

end Sys2Proof.Machine

open Sys2Proof Sys2Proof.Machine

/-- Settles O2: the tick of the time, with building time off and at its steered rate. -/
theorem idleStepAdvancesClock : Obligations.IdleStepAdvancesClock := by
  intro s h
  obtain ⟨htime, hall, hctrs⟩ := s.idle_spec
  refine ⟨s.idle, step_of_idle h, ?_, ?_, ?_, fun hoff => ?_, fun hon => ?_, fun hon hrate hpart => ?_⟩
  · rw [htime, TimeSt.tick_localNs]
  · rw [htime]; exact hall
  · rw [htime]; exact hctrs
  · rw [htime, TimeSt.tick_of_off hoff]; exact ⟨rfl, rfl⟩
  · rw [htime, TimeSt.tick_of_on hon]
    dsimp only
    omega
  · rw [htime, TimeSt.tick_of_on hon]
    dsimp only
    omega

/-- Settles O56: each field of the reset state, which lists no unit. -/
theorem resetLosesEverythingButTheFlash : Obligations.ResetLosesEverythingButTheFlash :=
  ⟨rfl, rfl, rfl, rfl, rfl, rfl, fun _ => rfl, fun _ => ⟨rfl, rfl⟩, fun _ => rfl, fun _ => rfl, rfl, rfl, fun _ => rfl,
    fun _ => rfl, fun _ => ⟨rfl, rfl⟩⟩

/-- Settles O57: the memories of the reset state list no cell, and no command waits. -/
theorem invariantsHoldAtReset : Obligations.InvariantsHoldAtReset := ⟨rfl, rfl⟩
end

section
/-! SUPPORT. What completing a command and posting an event leave, field by field, for the proofs of chapters 13 to 19. -/

namespace Sys2Proof.Machine

variable (s : State)

/-! ### The fields that completing and posting leave -/

theorem State.time_of_still {s t : State} (h : t.still = s.still) : t.time = s.time := (congrArg State.time h :)
theorem State.power_of_still {s t : State} (h : t.still = s.still) : t.power = s.power := (congrArg State.power h :)
theorem State.isles_of_still {s t : State} (h : t.still = s.still) : t.isles = s.isles := (congrArg State.isles h :)
theorem State.boot_of_still {s t : State} (h : t.still = s.still) : t.boot = s.boot := (congrArg State.boot h :)
theorem State.flash_of_still {s t : State} (h : t.still = s.still) : t.flash = s.flash := (congrArg State.flash h :)
theorem State.clusters_of_still {s t : State} (h : t.still = s.still) : t.clusters = s.clusters := (congrArg State.clusters h :)
theorem State.cores_of_still {s t : State} (h : t.still = s.still) : t.cores = s.cores := (congrArg State.cores h :)
theorem State.ledger_of_still {s t : State} (h : t.still = s.still) : t.ledger = s.ledger := (congrArg State.ledger h :)
theorem State.moves_of_still {s t : State} (h : t.still = s.still) : t.moves = s.moves := (congrArg State.moves h :)
theorem State.links_of_still {s t : State} (h : t.still = s.still) : t.links = s.links := (congrArg State.links h :)
theorem State.axes_of_still {s t : State} (h : t.still = s.still) : t.axes = s.axes := (congrArg State.axes h :)
theorem State.route_of_still {s t : State} (h : t.still = s.still) : t.route = s.route := (congrArg State.route h :)
theorem State.check_of_still {s t : State} (h : t.still = s.still) : t.check = s.check := (congrArg State.check h :)
theorem State.ports_of_still {s t : State} (h : t.still = s.still) : t.ports = s.ports := (congrArg State.ports h :)
theorem State.pavs_of_quiet {s t : State} (h : t.quiet = s.quiet) : t.pavs = s.pavs := (congrArg State.pavs h :)

/-! ### complete -/

@[simp] theorem State.complete_time (c : Cmd) (st d : Nat) (l : List Byte) : (s.complete c st d l).time = s.time :=
  State.time_of_still (s.still_complete c st d l)
@[simp] theorem State.complete_power (c : Cmd) (st d : Nat) (l : List Byte) : (s.complete c st d l).power = s.power :=
  State.power_of_still (s.still_complete c st d l)
@[simp] theorem State.complete_isles (c : Cmd) (st d : Nat) (l : List Byte) : (s.complete c st d l).isles = s.isles :=
  State.isles_of_still (s.still_complete c st d l)
@[simp] theorem State.complete_boot (c : Cmd) (st d : Nat) (l : List Byte) : (s.complete c st d l).boot = s.boot :=
  State.boot_of_still (s.still_complete c st d l)
@[simp] theorem State.complete_flash (c : Cmd) (st d : Nat) (l : List Byte) : (s.complete c st d l).flash = s.flash :=
  State.flash_of_still (s.still_complete c st d l)
@[simp] theorem State.complete_clusters (c : Cmd) (st d : Nat) (l : List Byte) : (s.complete c st d l).clusters = s.clusters :=
  State.clusters_of_still (s.still_complete c st d l)
@[simp] theorem State.complete_cores (c : Cmd) (st d : Nat) (l : List Byte) : (s.complete c st d l).cores = s.cores :=
  State.cores_of_still (s.still_complete c st d l)
@[simp] theorem State.complete_ledger (c : Cmd) (st d : Nat) (l : List Byte) : (s.complete c st d l).ledger = s.ledger :=
  State.ledger_of_still (s.still_complete c st d l)
@[simp] theorem State.complete_moves (c : Cmd) (st d : Nat) (l : List Byte) : (s.complete c st d l).moves = s.moves :=
  State.moves_of_still (s.still_complete c st d l)
@[simp] theorem State.complete_links (c : Cmd) (st d : Nat) (l : List Byte) : (s.complete c st d l).links = s.links :=
  State.links_of_still (s.still_complete c st d l)
@[simp] theorem State.complete_axes (c : Cmd) (st d : Nat) (l : List Byte) : (s.complete c st d l).axes = s.axes :=
  State.axes_of_still (s.still_complete c st d l)
@[simp] theorem State.complete_route (c : Cmd) (st d : Nat) (l : List Byte) : (s.complete c st d l).route = s.route :=
  State.route_of_still (s.still_complete c st d l)
@[simp] theorem State.complete_check (c : Cmd) (st d : Nat) (l : List Byte) : (s.complete c st d l).check = s.check :=
  State.check_of_still (s.still_complete c st d l)
@[simp] theorem State.complete_ports (c : Cmd) (st d : Nat) (l : List Byte) : (s.complete c st d l).ports = s.ports :=
  State.ports_of_still (s.still_complete c st d l)

/-! ### finish -/

@[simp] theorem State.finish_time (c : Cmd) (l : List Byte) (d low : Nat) : (s.finish c l d low).time = s.time :=
  State.time_of_still (s.still_finish c l d low)
@[simp] theorem State.finish_power (c : Cmd) (l : List Byte) (d low : Nat) : (s.finish c l d low).power = s.power :=
  State.power_of_still (s.still_finish c l d low)
@[simp] theorem State.finish_isles (c : Cmd) (l : List Byte) (d low : Nat) : (s.finish c l d low).isles = s.isles :=
  State.isles_of_still (s.still_finish c l d low)
@[simp] theorem State.finish_boot (c : Cmd) (l : List Byte) (d low : Nat) : (s.finish c l d low).boot = s.boot :=
  State.boot_of_still (s.still_finish c l d low)
@[simp] theorem State.finish_flash (c : Cmd) (l : List Byte) (d low : Nat) : (s.finish c l d low).flash = s.flash :=
  State.flash_of_still (s.still_finish c l d low)
@[simp] theorem State.finish_clusters (c : Cmd) (l : List Byte) (d low : Nat) : (s.finish c l d low).clusters = s.clusters :=
  State.clusters_of_still (s.still_finish c l d low)
@[simp] theorem State.finish_cores (c : Cmd) (l : List Byte) (d low : Nat) : (s.finish c l d low).cores = s.cores :=
  State.cores_of_still (s.still_finish c l d low)
@[simp] theorem State.finish_ledger (c : Cmd) (l : List Byte) (d low : Nat) : (s.finish c l d low).ledger = s.ledger :=
  State.ledger_of_still (s.still_finish c l d low)
@[simp] theorem State.finish_moves (c : Cmd) (l : List Byte) (d low : Nat) : (s.finish c l d low).moves = s.moves :=
  State.moves_of_still (s.still_finish c l d low)
@[simp] theorem State.finish_links (c : Cmd) (l : List Byte) (d low : Nat) : (s.finish c l d low).links = s.links :=
  State.links_of_still (s.still_finish c l d low)
@[simp] theorem State.finish_axes (c : Cmd) (l : List Byte) (d low : Nat) : (s.finish c l d low).axes = s.axes :=
  State.axes_of_still (s.still_finish c l d low)
@[simp] theorem State.finish_route (c : Cmd) (l : List Byte) (d low : Nat) : (s.finish c l d low).route = s.route :=
  State.route_of_still (s.still_finish c l d low)
@[simp] theorem State.finish_check (c : Cmd) (l : List Byte) (d low : Nat) : (s.finish c l d low).check = s.check :=
  State.check_of_still (s.still_finish c l d low)
@[simp] theorem State.finish_ports (c : Cmd) (l : List Byte) (d low : Nat) : (s.finish c l d low).ports = s.ports :=
  State.ports_of_still (s.still_finish c l d low)

/-! ### reject -/

@[simp] theorem State.reject_time (c : Cmd) (r : Rej) : (s.reject c r).time = s.time :=
  State.time_of_still (s.still_reject c r)
@[simp] theorem State.reject_power (c : Cmd) (r : Rej) : (s.reject c r).power = s.power :=
  State.power_of_still (s.still_reject c r)
@[simp] theorem State.reject_isles (c : Cmd) (r : Rej) : (s.reject c r).isles = s.isles :=
  State.isles_of_still (s.still_reject c r)
@[simp] theorem State.reject_boot (c : Cmd) (r : Rej) : (s.reject c r).boot = s.boot :=
  State.boot_of_still (s.still_reject c r)
@[simp] theorem State.reject_flash (c : Cmd) (r : Rej) : (s.reject c r).flash = s.flash :=
  State.flash_of_still (s.still_reject c r)
@[simp] theorem State.reject_clusters (c : Cmd) (r : Rej) : (s.reject c r).clusters = s.clusters :=
  State.clusters_of_still (s.still_reject c r)
@[simp] theorem State.reject_cores (c : Cmd) (r : Rej) : (s.reject c r).cores = s.cores :=
  State.cores_of_still (s.still_reject c r)
@[simp] theorem State.reject_ledger (c : Cmd) (r : Rej) : (s.reject c r).ledger = s.ledger :=
  State.ledger_of_still (s.still_reject c r)
@[simp] theorem State.reject_moves (c : Cmd) (r : Rej) : (s.reject c r).moves = s.moves :=
  State.moves_of_still (s.still_reject c r)
@[simp] theorem State.reject_links (c : Cmd) (r : Rej) : (s.reject c r).links = s.links :=
  State.links_of_still (s.still_reject c r)
@[simp] theorem State.reject_axes (c : Cmd) (r : Rej) : (s.reject c r).axes = s.axes :=
  State.axes_of_still (s.still_reject c r)
@[simp] theorem State.reject_route (c : Cmd) (r : Rej) : (s.reject c r).route = s.route :=
  State.route_of_still (s.still_reject c r)
@[simp] theorem State.reject_check (c : Cmd) (r : Rej) : (s.reject c r).check = s.check :=
  State.check_of_still (s.still_reject c r)
@[simp] theorem State.reject_ports (c : Cmd) (r : Rej) : (s.reject c r).ports = s.ports :=
  State.ports_of_still (s.still_reject c r)

/-! ### fail -/

@[simp] theorem State.fail_time (c : Cmd) (st place low : Nat) (l : List Byte) : (s.fail c st place low l).time = s.time :=
  State.time_of_still (s.still_fail c st place low l)
@[simp] theorem State.fail_power (c : Cmd) (st place low : Nat) (l : List Byte) : (s.fail c st place low l).power = s.power :=
  State.power_of_still (s.still_fail c st place low l)
@[simp] theorem State.fail_isles (c : Cmd) (st place low : Nat) (l : List Byte) : (s.fail c st place low l).isles = s.isles :=
  State.isles_of_still (s.still_fail c st place low l)
@[simp] theorem State.fail_boot (c : Cmd) (st place low : Nat) (l : List Byte) : (s.fail c st place low l).boot = s.boot :=
  State.boot_of_still (s.still_fail c st place low l)
@[simp] theorem State.fail_flash (c : Cmd) (st place low : Nat) (l : List Byte) : (s.fail c st place low l).flash = s.flash :=
  State.flash_of_still (s.still_fail c st place low l)
@[simp] theorem State.fail_clusters (c : Cmd) (st place low : Nat) (l : List Byte) : (s.fail c st place low l).clusters = s.clusters :=
  State.clusters_of_still (s.still_fail c st place low l)
@[simp] theorem State.fail_cores (c : Cmd) (st place low : Nat) (l : List Byte) : (s.fail c st place low l).cores = s.cores :=
  State.cores_of_still (s.still_fail c st place low l)
@[simp] theorem State.fail_ledger (c : Cmd) (st place low : Nat) (l : List Byte) : (s.fail c st place low l).ledger = s.ledger :=
  State.ledger_of_still (s.still_fail c st place low l)
@[simp] theorem State.fail_moves (c : Cmd) (st place low : Nat) (l : List Byte) : (s.fail c st place low l).moves = s.moves :=
  State.moves_of_still (s.still_fail c st place low l)
@[simp] theorem State.fail_links (c : Cmd) (st place low : Nat) (l : List Byte) : (s.fail c st place low l).links = s.links :=
  State.links_of_still (s.still_fail c st place low l)
@[simp] theorem State.fail_axes (c : Cmd) (st place low : Nat) (l : List Byte) : (s.fail c st place low l).axes = s.axes :=
  State.axes_of_still (s.still_fail c st place low l)
@[simp] theorem State.fail_route (c : Cmd) (st place low : Nat) (l : List Byte) : (s.fail c st place low l).route = s.route :=
  State.route_of_still (s.still_fail c st place low l)
@[simp] theorem State.fail_check (c : Cmd) (st place low : Nat) (l : List Byte) : (s.fail c st place low l).check = s.check :=
  State.check_of_still (s.still_fail c st place low l)
@[simp] theorem State.fail_ports (c : Cmd) (st place low : Nat) (l : List Byte) : (s.fail c st place low l).ports = s.ports :=
  State.ports_of_still (s.still_fail c st place low l)

/-! ### abort -/

@[simp] theorem State.abort_time (c : Cmd) (st target : Nat) (x : Option Cmd) : (s.abort c st target x).time = s.time :=
  State.time_of_still (s.still_abort c st target x)
@[simp] theorem State.abort_power (c : Cmd) (st target : Nat) (x : Option Cmd) : (s.abort c st target x).power = s.power :=
  State.power_of_still (s.still_abort c st target x)
@[simp] theorem State.abort_isles (c : Cmd) (st target : Nat) (x : Option Cmd) : (s.abort c st target x).isles = s.isles :=
  State.isles_of_still (s.still_abort c st target x)
@[simp] theorem State.abort_boot (c : Cmd) (st target : Nat) (x : Option Cmd) : (s.abort c st target x).boot = s.boot :=
  State.boot_of_still (s.still_abort c st target x)
@[simp] theorem State.abort_flash (c : Cmd) (st target : Nat) (x : Option Cmd) : (s.abort c st target x).flash = s.flash :=
  State.flash_of_still (s.still_abort c st target x)
@[simp] theorem State.abort_clusters (c : Cmd) (st target : Nat) (x : Option Cmd) : (s.abort c st target x).clusters = s.clusters :=
  State.clusters_of_still (s.still_abort c st target x)
@[simp] theorem State.abort_cores (c : Cmd) (st target : Nat) (x : Option Cmd) : (s.abort c st target x).cores = s.cores :=
  State.cores_of_still (s.still_abort c st target x)
@[simp] theorem State.abort_ledger (c : Cmd) (st target : Nat) (x : Option Cmd) : (s.abort c st target x).ledger = s.ledger :=
  State.ledger_of_still (s.still_abort c st target x)
@[simp] theorem State.abort_moves (c : Cmd) (st target : Nat) (x : Option Cmd) : (s.abort c st target x).moves = s.moves :=
  State.moves_of_still (s.still_abort c st target x)
@[simp] theorem State.abort_links (c : Cmd) (st target : Nat) (x : Option Cmd) : (s.abort c st target x).links = s.links :=
  State.links_of_still (s.still_abort c st target x)
@[simp] theorem State.abort_axes (c : Cmd) (st target : Nat) (x : Option Cmd) : (s.abort c st target x).axes = s.axes :=
  State.axes_of_still (s.still_abort c st target x)
@[simp] theorem State.abort_route (c : Cmd) (st target : Nat) (x : Option Cmd) : (s.abort c st target x).route = s.route :=
  State.route_of_still (s.still_abort c st target x)
@[simp] theorem State.abort_check (c : Cmd) (st target : Nat) (x : Option Cmd) : (s.abort c st target x).check = s.check :=
  State.check_of_still (s.still_abort c st target x)
@[simp] theorem State.abort_ports (c : Cmd) (st target : Nat) (x : Option Cmd) : (s.abort c st target x).ports = s.ports :=
  State.ports_of_still (s.still_abort c st target x)

/-! ### started -/

@[simp] theorem State.started_time (c : Cmd) : (s.started c).time = s.time := rfl
@[simp] theorem State.started_power (c : Cmd) : (s.started c).power = s.power := rfl
@[simp] theorem State.started_isles (c : Cmd) : (s.started c).isles = s.isles := rfl
@[simp] theorem State.started_boot (c : Cmd) : (s.started c).boot = s.boot := rfl
@[simp] theorem State.started_flash (c : Cmd) : (s.started c).flash = s.flash := rfl
@[simp] theorem State.started_clusters (c : Cmd) : (s.started c).clusters = s.clusters := rfl
@[simp] theorem State.started_cores (c : Cmd) : (s.started c).cores = s.cores := rfl
@[simp] theorem State.started_ledger (c : Cmd) : (s.started c).ledger = s.ledger := rfl
@[simp] theorem State.started_moves (c : Cmd) : (s.started c).moves = s.moves := rfl
@[simp] theorem State.started_links (c : Cmd) : (s.started c).links = s.links := rfl
@[simp] theorem State.started_axes (c : Cmd) : (s.started c).axes = s.axes := rfl
@[simp] theorem State.started_route (c : Cmd) : (s.started c).route = s.route := rfl
@[simp] theorem State.started_check (c : Cmd) : (s.started c).check = s.check := rfl
@[simp] theorem State.started_ports (c : Cmd) : (s.started c).ports = s.ports := rfl

/-! ### postModule -/

@[simp] theorem State.postModule_time (code sev place : Nat) (d : List Byte) : (s.postModule code sev place d).time = s.time :=
  State.time_of_still (State.still_of_quiet (s.quiet_postModule code sev place d))
@[simp] theorem State.postModule_power (code sev place : Nat) (d : List Byte) : (s.postModule code sev place d).power = s.power :=
  State.power_of_still (State.still_of_quiet (s.quiet_postModule code sev place d))
@[simp] theorem State.postModule_isles (code sev place : Nat) (d : List Byte) : (s.postModule code sev place d).isles = s.isles :=
  State.isles_of_still (State.still_of_quiet (s.quiet_postModule code sev place d))
@[simp] theorem State.postModule_boot (code sev place : Nat) (d : List Byte) : (s.postModule code sev place d).boot = s.boot :=
  State.boot_of_still (State.still_of_quiet (s.quiet_postModule code sev place d))
@[simp] theorem State.postModule_flash (code sev place : Nat) (d : List Byte) : (s.postModule code sev place d).flash = s.flash :=
  State.flash_of_still (State.still_of_quiet (s.quiet_postModule code sev place d))
@[simp] theorem State.postModule_clusters (code sev place : Nat) (d : List Byte) : (s.postModule code sev place d).clusters = s.clusters :=
  State.clusters_of_still (State.still_of_quiet (s.quiet_postModule code sev place d))
@[simp] theorem State.postModule_cores (code sev place : Nat) (d : List Byte) : (s.postModule code sev place d).cores = s.cores :=
  State.cores_of_still (State.still_of_quiet (s.quiet_postModule code sev place d))
@[simp] theorem State.postModule_ledger (code sev place : Nat) (d : List Byte) : (s.postModule code sev place d).ledger = s.ledger :=
  State.ledger_of_still (State.still_of_quiet (s.quiet_postModule code sev place d))
@[simp] theorem State.postModule_moves (code sev place : Nat) (d : List Byte) : (s.postModule code sev place d).moves = s.moves :=
  State.moves_of_still (State.still_of_quiet (s.quiet_postModule code sev place d))
@[simp] theorem State.postModule_links (code sev place : Nat) (d : List Byte) : (s.postModule code sev place d).links = s.links :=
  State.links_of_still (State.still_of_quiet (s.quiet_postModule code sev place d))
@[simp] theorem State.postModule_axes (code sev place : Nat) (d : List Byte) : (s.postModule code sev place d).axes = s.axes :=
  State.axes_of_still (State.still_of_quiet (s.quiet_postModule code sev place d))
@[simp] theorem State.postModule_route (code sev place : Nat) (d : List Byte) : (s.postModule code sev place d).route = s.route :=
  State.route_of_still (State.still_of_quiet (s.quiet_postModule code sev place d))
@[simp] theorem State.postModule_check (code sev place : Nat) (d : List Byte) : (s.postModule code sev place d).check = s.check :=
  State.check_of_still (State.still_of_quiet (s.quiet_postModule code sev place d))
@[simp] theorem State.postModule_ports (code sev place : Nat) (d : List Byte) : (s.postModule code sev place d).ports = s.ports :=
  State.ports_of_still (State.still_of_quiet (s.quiet_postModule code sev place d))
@[simp] theorem State.postModule_cmds (code sev place : Nat) (d : List Byte) : (s.postModule code sev place d).cmds = s.cmds :=
  State.cmds_of_quiet (s.quiet_postModule code sev place d)
@[simp] theorem State.postModule_pavs (code sev place : Nat) (d : List Byte) : (s.postModule code sev place d).pavs = s.pavs :=
  State.pavs_of_quiet (s.quiet_postModule code sev place d)

/-! ### postPav -/

@[simp] theorem State.postPav_time (p code sev place : Nat) (d : List Byte) : (s.postPav p code sev place d).time = s.time :=
  State.time_of_still (State.still_of_quiet (s.quiet_postPav p code sev place d))
@[simp] theorem State.postPav_power (p code sev place : Nat) (d : List Byte) : (s.postPav p code sev place d).power = s.power :=
  State.power_of_still (State.still_of_quiet (s.quiet_postPav p code sev place d))
@[simp] theorem State.postPav_isles (p code sev place : Nat) (d : List Byte) : (s.postPav p code sev place d).isles = s.isles :=
  State.isles_of_still (State.still_of_quiet (s.quiet_postPav p code sev place d))
@[simp] theorem State.postPav_boot (p code sev place : Nat) (d : List Byte) : (s.postPav p code sev place d).boot = s.boot :=
  State.boot_of_still (State.still_of_quiet (s.quiet_postPav p code sev place d))
@[simp] theorem State.postPav_flash (p code sev place : Nat) (d : List Byte) : (s.postPav p code sev place d).flash = s.flash :=
  State.flash_of_still (State.still_of_quiet (s.quiet_postPav p code sev place d))
@[simp] theorem State.postPav_clusters (p code sev place : Nat) (d : List Byte) : (s.postPav p code sev place d).clusters = s.clusters :=
  State.clusters_of_still (State.still_of_quiet (s.quiet_postPav p code sev place d))
@[simp] theorem State.postPav_cores (p code sev place : Nat) (d : List Byte) : (s.postPav p code sev place d).cores = s.cores :=
  State.cores_of_still (State.still_of_quiet (s.quiet_postPav p code sev place d))
@[simp] theorem State.postPav_ledger (p code sev place : Nat) (d : List Byte) : (s.postPav p code sev place d).ledger = s.ledger :=
  State.ledger_of_still (State.still_of_quiet (s.quiet_postPav p code sev place d))
@[simp] theorem State.postPav_moves (p code sev place : Nat) (d : List Byte) : (s.postPav p code sev place d).moves = s.moves :=
  State.moves_of_still (State.still_of_quiet (s.quiet_postPav p code sev place d))
@[simp] theorem State.postPav_links (p code sev place : Nat) (d : List Byte) : (s.postPav p code sev place d).links = s.links :=
  State.links_of_still (State.still_of_quiet (s.quiet_postPav p code sev place d))
@[simp] theorem State.postPav_axes (p code sev place : Nat) (d : List Byte) : (s.postPav p code sev place d).axes = s.axes :=
  State.axes_of_still (State.still_of_quiet (s.quiet_postPav p code sev place d))
@[simp] theorem State.postPav_route (p code sev place : Nat) (d : List Byte) : (s.postPav p code sev place d).route = s.route :=
  State.route_of_still (State.still_of_quiet (s.quiet_postPav p code sev place d))
@[simp] theorem State.postPav_check (p code sev place : Nat) (d : List Byte) : (s.postPav p code sev place d).check = s.check :=
  State.check_of_still (State.still_of_quiet (s.quiet_postPav p code sev place d))
@[simp] theorem State.postPav_ports (p code sev place : Nat) (d : List Byte) : (s.postPav p code sev place d).ports = s.ports :=
  State.ports_of_still (State.still_of_quiet (s.quiet_postPav p code sev place d))
@[simp] theorem State.postPav_cmds (p code sev place : Nat) (d : List Byte) : (s.postPav p code sev place d).cmds = s.cmds :=
  State.cmds_of_quiet (s.quiet_postPav p code sev place d)
@[simp] theorem State.postPav_pavs (p code sev place : Nat) (d : List Byte) : (s.postPav p code sev place d).pavs = s.pavs :=
  State.pavs_of_quiet (s.quiet_postPav p code sev place d)

/-! ### What is read back of a part that was changed -/

@[simp] theorem State.modTime_time (f : TimeSt → TimeSt) : (s.modTime f).time = f s.time := rfl
@[simp] theorem State.modPower_power (f : PowerSt → PowerSt) : (s.modPower f).power = f s.power := rfl
@[simp] theorem State.modBoot_boot (f : BootSt → BootSt) : (s.modBoot f).boot = f s.boot := rfl
@[simp] theorem State.modFlash_flash (f : Flash → Flash) : (s.modFlash f).flash = f s.flash := rfl
@[simp] theorem State.modRoute_route (f : RouteSt → RouteSt) : (s.modRoute f).route = f s.route := rfl
@[simp] theorem State.modCheck_check (f : CheckSt → CheckSt) : (s.modCheck f).check = f s.check := rfl
@[simp] theorem State.modMem_mem (f : MemSt → MemSt) : (s.modMem f).mem = f s.mem := rfl
@[simp] theorem State.modLedger_ledger (f : Ledger → Ledger) : (s.modLedger f).ledger = f s.ledger := rfl

/-! ### Checks and the end of a command -/

/-- A check that holds goes on. -/
theorem need_bind {α : Type} {ok : Bool} {r : Rej} {f : Unit → Chk α} (h : ok = true) : (need ok r >>= f) = f () := by
  rw [need_of h]; rfl

/-- A command that finishes is no longer outstanding. -/
theorem State.finish_cmd_of_due {s : State} {id op : Nat} {c : Cmd} (h : s.due id op c) (t : State) (l : List Byte) (d low : Nat) :
    (t.finish c l d low).cmd id = none := by
  rw [← State.cmd_serial h.1]
  exact t.finish_cmd_self c l d low

end Sys2Proof.Machine
end

section
/-! PROOFS. O15 and O23: power starts and stops the module, and its cap (R472 to R477, R489). -/

namespace Sys2Proof.Machine

/-! ### EV_INPUT (R474) -/

theorem evInput_good {mv : Nat} {s : State} (hp : s.power.pwrGood = true) (hlo : 40000 ≤ mv) (hhi : mv ≤ 60000) :
    exec (.evInput mv) s = .next ((s.modPower fun p => { p with inputMv := mv }).modPower fun p =>
      { p with inputBadSince := none, evInputPosted := false }) := by
  simp only [exec, execEvInput, State.modPower_power, hp, Bool.not_true, Bool.false_eq_true, if_false]
  exact if_pos ⟨hlo, hhi⟩

/-- Out of its range the input is watched for how long it stays there. -/
theorem evInput_bad {mv : Nat} {s : State} (hp : s.power.pwrGood = true) (h : mv < 40000 ∨ 60000 < mv) :
    exec (.evInput mv) s =
      let u := s.modPower fun p => { p with inputMv := mv }
      match s.power.inputBadSince with
      | none => .next (u.modPower fun p => { p with inputBadSince := some s.clock })
      | some t =>
        if s.power.evInputPosted || decide (s.clock < t + 100000000) then .next u
        else .next ((u.modPower fun p => { p with evInputPosted := true }).postModule 0x0A05 1 0xFFFF
          (pack [(1, if mv < 40000 then 1 else 2), (1, 0), (2, mv)])) := by
  have hout : ¬(40000 ≤ mv ∧ mv ≤ 60000) := by omega
  simp only [exec, execEvInput, State.modPower_power, hp, Bool.not_true, Bool.false_eq_true, if_false, if_neg hout]
  rfl

/-! ### The cap (R476) -/

/-- A zero stands for the default. -/
def orDefault (n d : Nat) : Nat := if n = 0 then d else n

/-- The cap that the command asks for, now or at its AT_TIME. -/
def State.capAsked (s : State) (c : Cmd) : Nat := orDefault (bits (c.word 0) 15 0) s.power.cfgCapW
def Cmd.capWindow (c : Cmd) : Nat := orDefault (if c.expert = true then bits (c.word 0) 31 16 else 0) 1000
def Cmd.capTime (c : Cmd) : Nat := if c.expert = true then c.word 1 else 0

theorem bodyPowerCap_ok {s : State} {c : Cmd} (hup : s.roleUp 1 = true)
    (hw : bits (c.word 0) 15 0 = 0 ∨ 3000 ≤ bits (c.word 0) 15 0 ∧ bits (c.word 0) 15 0 ≤ 7200)
    (hwin : (if c.expert = true then bits (c.word 0) 31 16 else 0) = 0
      ∨ 100 ≤ (if c.expert = true then bits (c.word 0) 31 16 else 0)
        ∧ (if c.expert = true then bits (c.word 0) 31 16 else 0) ≤ 10000)
    (hat : c.capTime = 0 ∨ s.timeOn = true) :
    bodyPowerCap s c = .ok (if s.now < c.capTime then (s.started c).modPower fun p => { p with
        pendingCaps := p.pendingCaps ++ [{ cmd := c.serial, capW := s.capAsked c, windowMs := c.capWindow, atTime := c.capTime }] }
      else s.applyCap c (s.capAsked c) c.capWindow) := by
  have hat' : ((if c.expert = true then c.word 1 else 0) == 0 || s.timeOn) = true := by simpa [Cmd.capTime] using hat
  unfold bodyPowerCap
  dsimp only
  rw [need_bind (decide_eq_true hw), need_bind (decide_eq_true hwin), need_bind hat', hup]
  exact (apply_ite Except.ok ..).symm

/-- The cap in force, which the event and the final entry leave. -/
theorem State.applyCap_power (s : State) (c : Cmd) (w win : Nat) :
    (s.applyCap c w win).power = { s.power with capW := w, windowMs := win } := by
  unfold State.applyCap State.capEvent
  simp

/-! ### The monitors (R477) -/

theorem monitorIsles_nodup (u : Fin 10) : (monitorIsles u.val).Nodup := by revert u; decide

@[simp] theorem State.modUnitTemp_self (s : State) (u : Nat) (f : UnitTemp → UnitTemp) :
    (s.modUnitTemp u f).unitTemp u = f (s.unitTemp u) := tget_tset_self ..
@[simp] theorem State.modUnitTemp_isles (s : State) (u : Nat) (f : UnitTemp → UnitTemp) : (s.modUnitTemp u f).isles = s.isles := rfl
theorem State.unitTemp_of_power {s t : State} (h : t.power = s.power) (u : Nat) : t.unitTemp u = s.unitTemp u := by
  rw [State.unitTemp, h]; rfl

/-- Where each island of a list is changed on its own, each is changed once. -/
theorem forEach_isle {g : State → Nat → State} {F : Nat → Isle → Isle} (hself : ∀ s i, (g s i).isle i = F i (s.isle i))
    (hne : ∀ s i j, j ≠ i → (g s i).isle j = s.isle j) {l : List Nat} (hl : l.Nodup) (s : State) {i : Nat} (hi : i ∈ l) :
    (forEach l g s).isle i = F i (s.isle i) := by
  induction l generalizing s with
  | nil => cases hi
  | cons a l ih =>
    obtain ⟨ha, hl⟩ := List.nodup_cons.mp hl
    have hrest : ∀ {b : Nat} (l : List Nat) (t : State), b ∉ l → (forEach l g t).isle b = t.isle b := fun {b} l t hb =>
      forEach_inv_mem (P := fun u : State => u.isle b = t.isle b)
        (fun a ha u hu => (hne u a b fun h => hb (h ▸ ha)).trans hu) rfl
    change (forEach l g (g s a)).isle i = _
    rcases List.mem_cons.mp hi with rfl | hi
    · rw [hrest l _ ha, hself]
    · rw [ih hl _ hi, hne s a i fun h => ha (h ▸ hi)]

section
variable (u : Fin 10) (draw : Nat) (s : State)

/-- The budget of the monitor's die or hub. -/
def State.budgetOf (s : State) (u : Nat) : Nat := if u < 8 then s.power.dieBudget else s.power.hubBudget

def Isle.capLowered (x : Isle) (i : Nat) : Isle := { x with cap16 := max (16 * floorMhz i) (x.cap16 - nominalMhz i) }
def Isle.capRaised (x : Isle) (i : Nat) : Isle :=
  if x.cap16 < 16 * (rangeMhz i).2 then { x with cap16 := x.cap16 + nominalMhz i } else x
def State.raiseCap (s : State) (i : Nat) : State :=
  if (s.isle i).cap16 < 16 * (rangeMhz i).2 then s.modIsle i fun x => { x with cap16 := x.cap16 + nominalMhz i } else s

theorem State.raiseCap_isle_self (i : Nat) : (s.raiseCap i).isle i = (s.isle i).capRaised i := by
  unfold State.raiseCap Isle.capRaised
  split
  · simp
  · rfl
theorem State.raiseCap_isle_ne (i j : Nat) (h : j ≠ i) : (s.raiseCap i).isle j = s.isle j := by
  unfold State.raiseCap
  split
  · simp [h]
  · rfl
theorem State.raiseCap_power (i : Nat) : (s.raiseCap i).power = s.power := by
  unfold State.raiseCap
  split <;> rfl

theorem powerMonitorSample_over (h : s.budgetOf u.val < draw) : exec (.powerMonitorSample u draw) s
    = .next (forEach (monitorIsles u.val) (fun s i => s.modIsle i fun x => x.capLowered i)
      ((s.modUnitTemp u.val fun t => { t with draw := draw }).modUnitTemp u.val fun t => { t with belowSince := none })) :=
  if_pos h
theorem powerMonitorSample_below (h : ¬s.budgetOf u.val < draw) (h95 : 100 * draw ≤ 95 * s.budgetOf u.val) {b : Nat}
    (hb : (s.unitTemp u.val).belowSince = some b) (hms : b + 1000000 ≤ s.clock) : exec (.powerMonitorSample u draw) s
    = .next (forEach (monitorIsles u.val) State.raiseCap (s.modUnitTemp u.val fun t => { t with draw := draw })) := by
  refine (if_neg h).trans ((if_pos h95).trans ?_)
  rw [hb]
  exact if_pos hms
theorem powerMonitorSample_near (h : ¬s.budgetOf u.val < draw) (h95 : ¬100 * draw ≤ 95 * s.budgetOf u.val) :
    exec (.powerMonitorSample u draw) s = .next ((s.modUnitTemp u.val fun t => { t with draw := draw }).modUnitTemp u.val
      fun t => { t with belowSince := none }) :=
  (if_neg h).trans (if_neg h95)
end

end Sys2Proof.Machine

open Sys2Proof Sys2Proof.Machine

/-- Settles O15: each input is one equation of `exec`, and each cause of a module reset leaves the reset state. -/
theorem powerStartsAndStopsTheModule : Obligations.PowerStartsAndStopsTheModule := by
  intro mv s
  refine ⟨fun hp hlo hhi => ?_, ⟨_, rfl, ⟨rfl, rfl⟩, rfl⟩, fun h => ⟨_, if_pos h, ⟨rfl, rfl⟩, rfl⟩,
    fun h => if_neg (by omega), fun h => ⟨_, if_pos h, ⟨rfl, rfl⟩, rfl⟩,
    fun hp => ⟨evInput_good hp, fun hout hnone => ?_, fun b hout hb hposted hms => ?_⟩⟩
  · have hmay : ¬(s.power.pwrGood || !(decide (39000 < mv ∧ mv < 61000))) = true := by simp [hp, hlo, hhi]
    exact ⟨_, if_neg hmay, rfl, rfl, rfl, rfl, rfl, rfl, rfl, rfl, rfl, rfl, rfl, rfl, rfl, rfl, rfl, rfl, rfl⟩
  · rw [evInput_bad hp hout, hnone]
  · rw [evInput_bad hp hout, hb]
    exact if_neg (by simp [hposted, hms])

/-- Settles O23: POWER_CAP starts or arms, and a monitor's sample has one equation for each of its three ranges. -/
theorem powerStaysUnderTheCap : Obligations.PowerStaysUnderTheCap := by
  intro s
  refine ⟨fun id c hdue hup => ?_, fun p c hp hc => ?_, fun d hup => ?_, fun u draw => ⟨fun h => ?_, fun b h h95 hb hms => ?_,
    fun h h95 => ?_⟩⟩
  · intro w win at_ hw hwin hat
    have hbody := bodyPowerCap_ok (s := s) hup hw hwin hat
    constructor
    · intro hnow
      rw [if_neg (show ¬s.now < c.capTime from Nat.not_lt.mpr hnow)] at hbody
      refine ⟨_, congrArg Host.Outcome.next (State.startCmd_ok hdue hbody), State.finish_cmd_of_due hdue .., ?_⟩
      rw [State.applyCap_power]
      exact ⟨rfl, rfl⟩
    · intro hnow
      rw [if_pos (show s.now < c.capTime from hnow)] at hbody
      exact ⟨_, congrArg Host.Outcome.next (State.startCmd_ok hdue hbody), rfl, rfl⟩
  · refine ⟨(s.modPower fun x => { x with pendingCaps := x.pendingCaps.filter fun q => q.cmd != p.cmd }).applyCap c p.capW
      p.windowMs, ?_, ?_⟩
    · simp only [exec, execCapTakeEffect, hp]
      change (match s.cmd p.cmd with | none => _ | some c => _) = _
      rw [hc]
    · rw [State.applyCap_power]
      exact ⟨rfl, rfl, rfl⟩
  · refine ⟨_, by simp only [exec, execPowerBudgetDivision, hup]; rfl, ?_⟩
    unfold State.capEvent
    split <;> simp
  · rw [powerMonitorSample_over u draw s h]
    refine ⟨_, rfl, ?_, fun i hi => ?_⟩
    · rw [State.unitTemp_of_power (forEach_keep (g := State.power) (fun s i => State.modIsle_power ..) _ _),
        State.modUnitTemp_self, State.modUnitTemp_self]
    · rw [forEach_isle (F := fun i x => x.capLowered i) (fun s i => State.modIsle_self ..)
        (fun s i j h => by simp [h]) (monitorIsles_nodup u) _ hi]
      rfl
  · rw [powerMonitorSample_below u draw s (Nat.not_lt.mpr h) h95 hb hms]
    refine ⟨_, rfl, ?_, fun i hi => ?_⟩
    · rw [State.unitTemp_of_power (forEach_keep (g := State.power) State.raiseCap_power _ _), State.modUnitTemp_self]
    · rw [forEach_isle (F := fun i x => x.capRaised i) State.raiseCap_isle_self State.raiseCap_isle_ne (monitorIsles_nodup u) _ hi]
      exact apply_ite Isle.cap16 ..
  · rw [powerMonitorSample_near u draw s (Nat.not_lt.mpr h) (Nat.not_le.mpr h95)]
    exact ⟨_, rfl, by rw [State.modUnitTemp_self], rfl⟩
end

section
/-! SUPPORT. What ending the work of a pavilion leaves of the module, whatever it ends: the time, the start, the ports, the
bridles, the frequencies, and of power and routes all but what was armed. -/

namespace Sys2Proof.Machine

/-- The state but for what the end of a pavilion's work may change. Of power and routes only what a command has armed. -/
def State.base (s : State) : State :=
  { s with
    cmds := [], idleWait := [], rings := [], pavs := [], clusters := [], engines := [], stitches := [], mem := {},
        moves := []
    ledger := {}, links := [], check := {}, ctrs := [], pavLogs := [], modLog := {}, freeCtr := 0, out := [],
        host0 := []
    host1 := []
    power := { s.power with pendingCaps := [] }
    route := { s.route with pendingFences := [], pendingSwap := none, stepAside := none } }

section
variable (s : State)

theorem State.base_of_still {s t : State} (h : t.still = s.still) : t.base = s.base := (congrArg State.base h :)
theorem State.base_of_quiet {s t : State} (h : t.quiet = s.quiet) : t.base = s.base := (congrArg State.base h :)
@[simp] theorem State.modRing_base (k : Nat) (f : RingSet → RingSet) : (s.modRing k f).base = s.base := rfl
@[simp] theorem State.modPav_base (k : Nat) (f : Pav → Pav) : (s.modPav k f).base = s.base := rfl
@[simp] theorem State.modCluster_base (k : Nat) (f : Cluster → Cluster) : (s.modCluster k f).base = s.base := rfl
@[simp] theorem State.modEngine_base (k : Nat) (f : Engine → Engine) : (s.modEngine k f).base = s.base := rfl
@[simp] theorem State.modLink_base (k : Nat) (f : Link → Link) : (s.modLink k f).base = s.base := rfl
@[simp] theorem State.modCmd_base (k : Nat) (f : Cmd → Cmd) : (s.modCmd k f).base = s.base := rfl
@[simp] theorem State.modMem_base (f : MemSt → MemSt) : (s.modMem f).base = s.base := rfl
@[simp] theorem State.modLedger_base (f : Ledger → Ledger) : (s.modLedger f).base = s.base := rfl
@[simp] theorem State.modCheck_base (f : CheckSt → CheckSt) : (s.modCheck f).base = s.base := rfl
@[simp] theorem State.count_base (k n : Nat) : (s.count k n).base = s.base := rfl
@[simp] theorem State.emit_base (e : Emission) : (s.emit e).base = s.base := rfl
@[simp] theorem State.bumpFree_base : s.bumpFree.base = s.base := rfl
end

@[simp] theorem State.base_ite (p : Prop) [Decidable p] (s t : State) :
    (if p then s else t).base = if p then s.base else t.base := apply_ite State.base p s t
theorem base_of_fst {β : Type} {x : State × β} {t : State} {b : β} (h : x = (t, b)) : t.base = x.1.base := by
  rw [h]
@[simp] theorem forEach_base {α : Type} {f : State → α → State} (h : ∀ s a, (f s a).base = s.base) (l : List α)
    (s : State) :
    (forEach l f s).base = s.base := forEach_keep h l s
@[simp] theorem foldl_base {α : Type} {f : State → α → State} (h : ∀ s a, (f s a).base = s.base) (l : List α)
    (s : State) :
    (l.foldl f s).base = s.base := forEach_keep h l s
@[simp] theorem foldl_fst_base {α β : Type} {f : State × β → α → State × β} (h : ∀ a x, (f a x).1.base = a.1.base)
    (l : List α)
    (a : State × β) : (l.foldl f a).1.base = a.1.base := forEach_keep (g := fun a => a.1.base) h l a

@[simp] theorem State.writeMem_base (s : State) (a : Nat) (l : List Byte) :
    (s.writeMem a l).base = s.base :=
  State.base_of_quiet (State.quiet_writeMem ..)

@[simp] theorem State.zeroMem_base (s : State) (a n : Nat) : (s.zeroMem a n).base = s.base := rfl

@[simp] theorem State.hostWrite_base (s : State) (port a : Nat) (l : List Byte) :
    (s.hostWrite port a l).base = s.base := by
  unfold State.hostWrite
  split <;> rfl

@[simp] theorem State.ringEvent_base (s : State) (k : Nat) (e : Event) :
    (s.ringEvent k e).base = s.base :=
  State.base_of_quiet (State.quiet_ringEvent ..)

@[simp] theorem State.logEvent_base (s : State) (e : Event) : (s.logEvent e).base = s.base :=
  State.base_of_quiet (State.quiet_logEvent ..)

@[simp] theorem State.postTo_base (s : State) (ks : List Nat) (e : Event) :
    (s.postTo ks e).base = s.base :=
  State.base_of_quiet (State.quiet_postTo ..)

@[simp] theorem State.postModule_base (s : State) (code sev place : Nat) (data : List Byte) :
    (s.postModule code sev place data).base = s.base := by
  simp [State.postModule]

@[simp] theorem State.postPav_base (s : State) (p code sev place : Nat) (data : List Byte) :
    (s.postPav p code sev place data).base = s.base := by
  simp [State.postPav]

@[simp] theorem State.postRing_base (s : State) (k code sev : Nat) (data : List Byte) :
    (s.postRing k code sev data).base = s.base := by
  simp [State.postRing]

@[simp] theorem State.postOwner_base (s : State) (o : Option Nat) (code sev place : Nat) (data : List Byte) :
    (s.postOwner o code sev place data).base = s.base := by
  unfold State.postOwner
  split <;> simp

@[simp] theorem State.cqWrite_base (s : State) (k : Nat) (notify : Bool) (tag status detail : Nat)
    (result : List Byte) :
    (s.cqWrite k notify tag status detail result).base = s.base :=
  State.base_of_quiet (State.quiet_cqWrite ..)

@[simp] theorem State.enterCloseHold_base (s : State) (k : Nat) : (s.enterCloseHold k).base = s.base :=
  State.base_of_still (State.still_enterCloseHold ..)

@[simp] theorem State.writeMirror_base (s : State) (k : Nat) : (s.writeMirror k).base = s.base :=
  State.base_of_still (State.still_writeMirror ..)

@[simp] theorem State.releaseHold_base (s : State) (k : Nat) : (s.releaseHold k).base = s.base := rfl

@[simp] theorem State.endHold_base (s : State) (k : Nat) : (s.endHold k).base = s.base :=
  State.base_of_still (State.still_endHold ..)

@[simp] theorem State.finalEntry_base (s : State) (c : Cmd) (status detail : Nat) (result : List Byte) :
    (s.finalEntry c status detail result).base = s.base :=
  State.base_of_still (State.still_finalEntry ..)

@[simp] theorem State.freeMem_base (s : State) (p a : Nat) : (s.freeMem p a).base = s.base := rfl

@[simp] theorem State.freeRing_base (s : State) (k : Nat) : (s.freeRing k).base = s.base :=
  State.base_of_still (State.still_freeRing ..)

@[simp] theorem State.closeCheck_base (s : State) (k : Nat) : (s.closeCheck k).base = s.base :=
  State.base_of_still (State.still_closeCheck ..)

@[simp] theorem State.complete_base (s : State) (c : Cmd) (status detail : Nat) (result : List Byte) :
    (s.complete c status detail result).base = s.base := by
  simp [State.complete]

@[simp] theorem State.recordNotes_base (s : State) (c : Cmd) (notes : List Nat) :
    (s.recordNotes c notes).base = s.base :=
  State.base_of_quiet (State.quiet_recordNotes ..)

@[simp] theorem State.finish_base (s : State) (c : Cmd) (result : List Byte) (detail : Nat) (low : Nat) :
    (s.finish c result detail low).base = s.base := by
  unfold State.finish
  split <;> simp

@[simp] theorem State.reject_base (s : State) (c : Cmd) (r : Rej) : (s.reject c r).base = s.base := by
  simp [State.reject]

@[simp] theorem State.fail_base (s : State) (c : Cmd) (status place low : Nat) (result : List Byte) :
    (s.fail c status place low result).base = s.base := by
  simp [State.fail]

@[simp] theorem State.abort_base (s : State) (c : Cmd) (status target : Nat) (cause : Option Cmd) :
    (s.abort c status target cause).base = s.base := by
  simp [State.abort]

@[simp] theorem State.forCmds_base (s : State) (f : Cmd → Bool) {g : State → Cmd → State}
    (h : ∀ s c, (g s c).base = s.base) : (s.forCmds f g).base = s.base :=
  forEach_base (fun s id => by split <;> simp [h]) _ s

@[simp] theorem State.abortAll_base (s : State) (f : Cmd → Bool) (status target : Nat) (cause : Option Cmd) :
    (s.abortAll f status target cause).base = s.base := by
  simp [State.abortAll]

@[simp] theorem State.listPage_base (s : State) (r : RetRec) : (s.listPage r).base = s.base := by
  simp [State.listPage]

@[simp] theorem State.fact_base (s : State) (kind : Nat) : (s.fact kind).base = s.base := rfl

@[simp] theorem State.retirePage_base (s : State) (a cause : Nat) :
    (s.retirePage a cause).base = s.base := by
  simp [State.retirePage]

@[simp] theorem State.memError_base (s : State) (w kind : Nat) : (s.memError w kind).base = s.base := by
  simp [State.memError]

@[simp] theorem State.failMemory_base (s : State) (c : Cmd) (w : Nat) :
    (s.failMemory c w).base = s.base := by
  simp [State.failMemory]

@[simp] theorem State.started_base (s : State) (c : Cmd) : (s.started c).base = s.base :=
  State.base_of_still (State.still_started ..)

@[simp] theorem State.serveLink_base (s : State) (l fuel : Nat) : (s.serveLink l fuel).base = s.base := by
  induction fuel generalizing s with
  | zero => rfl
  | succ n ih =>
    unfold State.serveLink
    dsimp only
    split
    · rfl
    · next i w _ =>
      split
      · rfl
      · rw [ih]
        cases w.counts <;> simp

@[simp] theorem State.flushLink_base (s : State) (l : Nat) : (s.flushLink l).base = s.base := by
  unfold State.flushLink
  dsimp only
  split <;> simp

@[simp] theorem State.queueFor_base (s : State) (l : Nat) (w : Waiting) :
    (s.queueFor l w).base = s.base := by
  simp [State.queueFor]

@[simp] theorem State.trySend_base (s : State) (p dest bytes t : Nat) (e : Emission) :
    (s.trySend p dest bytes t e).base = s.base := by
  unfold State.trySend
  dsimp only
  (repeat' split) <;> simp

@[simp] theorem State.modShard_base (s : State) (n : Nat) (f : Rec → Rec) :
    (s.modShard n f).base = s.base := rfl

@[simp] theorem State.putCode_base (s : State) (p hd : Nat) (h : Handle) (i sl : Nat) (c : Coord) (code : Nat) :
    (s.putCode p hd h i sl c code).base = s.base := by
  unfold State.putCode
  dsimp only
  (repeat' split) <;> simp

@[simp] theorem State.spoilCode_base (s : State) (p hd : Nat) (h : Handle) (i sl : Nat) (c : Coord) :
    (s.spoilCode p hd h i sl c).base = s.base := by
  simp [State.spoilCode]

@[simp] theorem State.renew_base (s : State) (l : List (Nat × Nat)) : (s.renew l).base = s.base := by
  simp [State.renew]

@[simp] theorem State.modRun_base (s : State) (p : Nat) (f : Run → Run) : (s.modRun p f).base = s.base := rfl

@[simp] theorem State.putTrap_base (s : State) (p : Nat) (x : TrapInfo) (iter step pid : Nat) (runOn first : Bool) :
    (s.putTrap p x iter step pid runOn first).1.base = s.base := by
  unfold State.putTrap
  split <;> simp

@[simp] theorem State.recordNan_base (s : State) (p : Nat) (x : TrapInfo) : (s.recordNan p x).1.base = s.base := by
  unfold State.recordNan
  split <;> simp

@[simp] theorem State.endColl_base (s : State) (p op cause peer : Nat) :
    (s.endColl p op cause peer).base = s.base := by
  unfold State.endColl
  dsimp only
  (repeat' split) <;> simp

@[simp] theorem State.unseal_base (s : State) (p : Nat) : (s.unseal p).base = s.base := by
  have hshards : ∀ (l : List Nat) (t : State), (forEach l (fun s n =>
      let r := s.shard n
      if r.state = 1 ∨ r.state = 2 ∨ r.state = 3 then
        s.modShard n fun r => { r with state := if r.gradCur then 4 else 0, gradNext := false, staged := false }
      else s) t).base = t.base := fun l t => forEach_base (fun s n => by dsimp only; split <;> simp) l t
  have hpages : ∀ (l : List (Nat × Nat)) (t : State), (forEach l (fun s e => s.freeMem p
      (4096 * e.2)) t).base = t.base :=
    fun l t => forEach_base (fun s e => State.freeMem_base s p _) l t
  unfold State.unseal
  dsimp only
  split <;> simp [hshards, hpages]

@[simp] theorem State.spoilTile_base (s : State) (p hd : Nat) (h : Handle) (i : Nat) (t : TileRef) :
    (s.spoilTile p hd h i t).base = s.base := by
  unfold State.spoilTile
  exact forEach_base (fun s a => by dsimp only; split <;> simp) _ s

@[simp] theorem State.spoilRun_base (s : State) (p : Nat) : (s.spoilRun p).base = s.base := by
  unfold State.spoilRun
  split <;> simp

@[simp] theorem State.dropUnstarted_base (s : State) (p : Nat) : (s.dropUnstarted p).base = s.base :=
  forEach_base (fun s q => by split <;> simp) _ s

@[simp] theorem State.parkIfDue_base (s : State) (p : Nat) : (s.parkIfDue p).base = s.base := by
  unfold State.parkIfDue
  dsimp only
  (repeat' split) <;> simp

@[simp] theorem State.endRun_base (s : State) (p status detail : Nat) (result : Option (List Byte)) (cause : Nat) :
    (s.endRun p status detail result cause).base = s.base := by
  unfold State.endRun
  split
  · rfl
  · next v r₀ h _ =>
    extract_lets held res good s₁ r s₂ s₃ s₄ s₅ s₆ s₇ s₈
    have h₁ : s₁.base = s.base := forEach_base (fun s x => s.recordNan_base ..) _ s
    have h₂ : s₂.base = s₁.base := by unfold s₂; split <;> simp
    have h₃ : s₃.base = s₂.base := forEach_base (fun s c => s.endColl_base ..) _ s₂
    have h₄ : s₄.base = s₃.base := by unfold s₄; split <;> simp
    have h₅ : s₅.base = s₄.base := rfl
    have h₇ : s₇.base = s₆.base := forEach_base (fun s c => s.finish_base ..) _ s₆
    have h₈ : s₈.base = s₇.base := by
      unfold s₈
      split
      · rfl
      · split <;> simp
    rw [State.parkIfDue_base, State.dropUnstarted_base, h₈, h₇, State.modPav_base, h₅, h₄, h₃, h₂, h₁]

@[simp] theorem State.abortRun_base (s : State) (p status target : Nat) (cause : Option Cmd) :
    (s.abortRun p status target cause).base = s.base := by
  unfold State.abortRun
  split <;> simp

@[simp] theorem State.failRunMemory_base (s : State) (p w : Nat) : (s.failRunMemory p w).base = s.base := by
  simp [State.failRunMemory]

@[simp] theorem State.clearStep_base (s : State) (p : Nat) : (s.clearStep p).base = s.base := by
  unfold State.clearStep
  split
  · rfl
  · refine forEach_base (fun s i => ?_) _ s
    dsimp only
    split
    · rfl
    · split
      · exact forEach_base (fun s sl => by split <;> simp) _ s
      · split
        · split
          · rfl
          · exact forEach_base (fun s x => State.zeroMem_base s _ _) _ s
        · simp

@[simp] theorem State.beginStep_base (s : State) (p : Nat) : (s.beginStep p).base = s.base := by
  simp [State.beginStep]

@[simp] theorem State.useInstant_base (s : State) (p late : Nat) : (s.useInstant p late).base = s.base := by
  unfold State.useInstant
  dsimp only
  (repeat' split) <;> simp

@[simp] theorem State.stepStart_base (s : State) (p : Nat) : (s.stepStart p).base = s.base := by
  unfold State.stepStart
  dsimp only
  (repeat' split) <;> simp

@[simp] theorem State.dropLeaving_base (s : State) (p : Nat) : (s.dropLeaving p).base = s.base := by
  unfold State.dropLeaving
  split
  · rfl
  · dsimp only
    split
    · rfl
    · exact forEach_base (fun s c => by simp) _ s

@[simp] theorem State.continueBoundary_base (s : State) (p : Nat) :
    (s.continueBoundary p).base = s.base := by
  unfold State.continueBoundary
  dsimp only
  split <;> simp

@[simp] theorem State.freeHandle_base (s : State) (p hd : Nat) : (s.freeHandle p hd).base = s.base := by
  unfold State.freeHandle
  split
  · rfl
  · split
    · rfl
    · rw [State.modPav_base, forEach_base fun s a => State.freeMem_base s p a]

@[simp] theorem State.dropShard_base (s : State) (n : Nat) : (s.dropShard n).base = s.base := by
  simp [State.dropShard]

@[simp] theorem State.modJob_base (s : State) (id : Nat) (f : MoveJob → MoveJob) :
    (s.modJob id f).base = s.base := rfl

@[simp] theorem State.spoilDests_base (s : State) (port : Nat) (j : MoveJob) :
    (s.spoilDests port j).base = s.base := by
  refine forEach_base (fun s d => forEach_base (fun s r => ?_) _ s) _ s
  dsimp only
  split
  · split <;> rfl
  · rw [State.writeMem_base, State.bumpFree_base]

@[simp] theorem State.dropJob_base (s : State) (c : Cmd) : (s.dropJob c).base = s.base := by
  unfold State.dropJob
  split
  · rfl
  · next j _ => exact Eq.trans (rfl : _ = (s.spoilDests c.port j).base) (s.spoilDests_base c.port j)

@[simp] theorem State.abortJob_base (s : State) (c : Cmd) (status target : Nat) (cause : Option Cmd) :
    (s.abortJob c status target cause).base = s.base := by
  simp [State.abortJob]

@[simp] theorem State.moversGone_base (s : State) (gone : Nat → Bool) (target : Nat) (cause : Option Cmd) :
    (s.moversGone gone target cause).base = s.base :=
  forEach_base (fun s j => by
    split
    · rfl
    · split
      · simp
      · dsimp only
        split <;> simp) _ s

@[simp] theorem State.disarm_base (s : State) (c : Cmd) : (s.disarm c).base = s.base := by
  unfold State.disarm
  extract_lets p id s₁ s₂
  have h₂ : s₂.base = s.base := Eq.trans (rfl : _ = (s.dropJob c).base) (s.dropJob_base c)
  split
  · exact h₂
  · next v _ =>
    extract_lets s₃ s₄
    have h₃ : s₃.base = s₂.base := by
      unfold s₃
      split
      · rfl
      · rw [State.modPav_base, forEach_base fun s n => s.dropShard_base n]
    have h₄ : s₄.base = s₃.base := by unfold s₄; split <;> simp
    rw [State.modPav_base, h₄, h₃, h₂]

@[simp] theorem State.cutOff_base (s : State) (c : Cmd) (status target : Nat) (cause : Option Cmd) :
    (s.cutOff c status target cause).base = s.base := by
  simp [State.cutOff]

@[simp] theorem State.stopPav_base (s : State) (p status target : Nat) (cause : Option Cmd) (spare : Cmd → Bool) :
    (s.stopPav p status target cause spare).base = s.base := by
  simp [State.stopPav]

@[simp] theorem State.linkEvent_base (s : State) (l code sev : Nat) (data : List Byte) :
    (s.linkEvent l code sev data).base = s.base := by
  simp [State.linkEvent]

@[simp] theorem State.linkDown_base (s : State) (l cause : Nat) : (s.linkDown l cause).base = s.base := by
  simp [State.linkDown]

@[simp] theorem State.dropBanks_base (s : State) (e : Nat) (hit : Nat → Bool) :
    (s.dropBanks e hit).base = s.base := by
  unfold State.dropBanks
  dsimp only
  rw [State.modEngine_base, forEach_base fun s b => ?_]
  simp

@[simp] theorem State.dropCoreWork_base (s : State) (p : Nat) : (s.dropCoreWork p).base = s.base := by
  simp [State.dropCoreWork]

@[simp] theorem State.clusterOut_base (s : State) (c : Nat) : (s.clusterOut c).base = s.base := by
  unfold State.clusterOut
  dsimp only
  (repeat' split) <;> simp

@[simp] theorem State.replayLost_base (s : State) (p : Nat) : (s.replayLost p).base = s.base := by
  unfold State.replayLost
  split <;> simp

@[simp] theorem State.losePages_base (s : State) (p : Nat) (lost : Nat → Bool) :
    (s.losePages p lost).base = s.base := by
  unfold State.losePages
  split <;> simp

@[simp] theorem State.failUsers_base (s : State) (f : State → Nat → Pav → Bool) (place : Nat) :
    (s.failUsers f place).base = s.base :=
  forEach_base (fun s p => by simp) _ s

end Sys2Proof.Machine
end

section
/-! PROOFS. O24: cooling is watched and reported (R480 to R483, R487, R489, R497). -/

namespace Sys2Proof.Machine

theorem addNew_contains (l : List Nat) (x : Nat) : (addNew l x).contains x = true := by
  unfold addNew
  split
  · next h => exact h
  · simp

theorem filter_ne_contains (l : List Nat) (x : Nat) : (l.filter (· != x)).contains x = false := by simp

@[simp] theorem pack_append (a b : List (Nat × Nat)) : pack (a ++ b) = pack a ++ pack b := List.flatMap_append ..

/-! ### A die or hub that turns off (R481) -/

/-- The dies and hubs that are off, which nothing but their own turning off changes. -/
theorem State.shut_of_base {s t : State} (h : t.base = s.base) : t.power.shut = s.power.shut :=
  (congrArg (fun u : State => u.power.shut) h :)

@[simp] theorem State.updateAlert_shut (s : State) : s.updateAlert.power.shut = s.power.shut := by
  unfold State.updateAlert
  dsimp only
  split
  · rfl
  · split <;> rfl

@[simp] theorem State.linkDown_power (s : State) (l cause : Nat) : (s.linkDown l cause).power = s.power := by
  unfold State.linkDown
  split
  · rfl
  · exact State.postModule_power ..

@[simp] theorem State.closeBridle_power (s : State) (a : Nat) : (s.closeBridle a).power = s.power := by
  unfold State.closeBridle
  split
  · rfl
  · dsimp only
    rw [State.postModule_power, State.modAxis_power, forEach_keep (g := State.power) fun s l => ?_]
    simp

@[simp] theorem State.failJoin_power (s : State) (a port reason : Nat) :
    (s.failJoin a port reason).power = s.power := by
  unfold State.failJoin
  split
  · rfl
  · dsimp only
    split <;> simp

theorem State.hubCoreFails_shut (s : State) (i : Nat) (reset : Bool) :
    (s.hubCoreFails i reset).power.shut = s.power.shut := by
  unfold State.hubCoreFails
  dsimp only
  split
  · rfl
  · split
    · exact (State.shut_of_base (State.forCmds_base _ _ fun s c => s.abort_base ..)).trans rfl
    · rfl

theorem State.hostGone_shut (s : State) (q : Nat) : (s.hostGone q).power.shut = s.power.shut := by
  unfold State.hostGone
  dsimp only
  refine (State.shut_of_base (forEach_base (fun s p => ?_) _ _)).trans ?_
  · split <;> simp
  · rw [State.shut_of_base (State.abortAll_base ..), State.shut_of_base
      (State.forCmds_base _ _ fun s c => s.cutOff_base ..),
      State.shut_of_base (State.postTo_base ..)]
    rfl

theorem State.restartStart_power (s : State) (h : Nat) : (s.restartStart h).power = s.power := rfl

theorem State.loseHub_shut (s : State) (h : Nat) : (s.loseHub h).power.shut = s.power.shut := by
  unfold State.loseHub
  dsimp only
  generalize hw : forEach [0, 1, 2] (fun (s : State) a => if
      (s.axis a).join.isSome then s.failJoin a a 8 else s.closeBridle a)
    _ = w
  have hp : w.power = s.power := by
    rw [← hw, forEach_keep (g := State.power) fun s a => ?_]
    · rfl
    · split <;> simp
  split
  · split
    · rw [State.restartStart_power, hp]
    · exact congrArg PowerSt.shut hp
  · rw [forEach_keep (g := fun s : State => s.power.shut) (fun s r => s.hubCoreFails_shut ..),
      State.shut_of_base (State.zeroMem_base ..), State.shut_of_base (forEach_base
          (fun s p => s.losePages_base ..) _ _),
      State.shut_of_base (State.failUsers_base ..)]
    split
    · rw [hp]
    · rw [State.hostGone_shut, hp]

/-! ### What a lost die leaves and takes (R421) -/

@[simp] theorem State.freeRing_clusters (s : State) (k : Nat) : (s.freeRing k).clusters = s.clusters :=
  State.clusters_of_still (s.still_freeRing k)
@[simp] theorem State.freeMem_clusters (s : State) (p a : Nat) : (s.freeMem p a).clusters = s.clusters := rfl
theorem State.zeroMem_clusters (s : State) (a n : Nat) : (s.zeroMem a n).clusters = s.clusters := rfl
@[simp] theorem State.modShard_clusters (s : State) (n : Nat) (f : Rec → Rec) :
    (s.modShard n f).clusters = s.clusters := rfl
@[simp] theorem State.dropShard_clusters (s : State) (n : Nat) : (s.dropShard n).clusters = s.clusters := by
  unfold State.dropShard
  dsimp only
  split <;> simp
@[simp] theorem State.freeHandle_clusters (s : State) (p hd : Nat) : (s.freeHandle p hd).clusters = s.clusters := by
  unfold State.freeHandle
  split
  · rfl
  · split
    · rfl
    · rw [State.modPav_clusters, forEach_keep (g := State.clusters) fun s a => s.freeMem_clusters p a]
@[simp] theorem State.losePages_clusters (s : State) (p : Nat) (lost : Nat → Bool) :
    (s.losePages p lost).clusters = s.clusters := by
  unfold State.losePages
  split
  · rfl
  · dsimp only
    rw [State.modPav_clusters, forEach_keep (g := State.clusters) fun s
        (h : Nat × Handle) => s.freeHandle_clusters p h.1]
    rfl

/-- The clusters of a lost die are out of service. -/
def State.outOfService (s : State) (k : Nat) : Prop := (s.cluster k).inService = false

/-- Where each of a list is taken out of service, each is out of service at the end. -/
theorem forEach_outOfService {f : Cluster → Cluster} (hf : ∀ x, (f x).inService = false) (l : List Nat)
    (s : State) {k : Nat}
    (hk : k ∈ l ∨ s.outOfService k) : (forEach l (fun s k => s.modCluster k f) s).outOfService k := by
  induction l generalizing s with
  | nil => exact hk.resolve_left List.not_mem_nil
  | cons a l ih =>
    refine ih _ ?_
    by_cases hak : k = a
    · subst hak
      exact .inr (by rw [State.outOfService, State.modCluster_self, hf])
    · rcases hk with hk | hk
      · exact .inl ((List.mem_cons.mp hk).resolve_left hak)
      · exact .inr (by rw [State.outOfService, State.modCluster_ne _ _ hak]; exact hk)

/-- What pavilion `p` loses with the die `d`: shards, at a lost gate die its journal and seal, and its pages there. -/
def State.losePav (s : State) (d : Nat) (gates : List Nat) (p : Nat) : State :=
  let s := forEach ((s.shardsOf p).filter fun n => n / 131072 == d || gates.contains p) (fun s n => s.dropShard n) s
  let s := if gates.contains p then s.modPav p fun v => { v with journal := [], sealing := none } else s
  s.losePages p fun a => addrDie a == some d

theorem State.losePav_base (s : State) (d : Nat) (gates : List Nat) (p : Nat) :
    (s.losePav d gates p).base = s.base := by
  unfold State.losePav
  dsimp only
  rw [State.losePages_base, State.base_ite, State.modPav_base, ite_self, forEach_base fun s n => s.dropShard_base n]

theorem State.losePav_clusters (s : State) (d : Nat) (gates : List Nat) (p : Nat) :
    (s.losePav d gates p).clusters = s.clusters := by
  unfold State.losePav
  dsimp only
  rw [State.losePages_clusters, apply_ite State.clusters, State.modPav_clusters, ite_self,
    forEach_keep (g := State.clusters) fun s n => s.dropShard_clusters n]

/-- A lost die turns off no other. -/
theorem State.loseDie_shut (s : State) (d : Nat) : (s.loseDie d).power.shut = s.power.shut := by
  have hbase : ∀ {α : Type} {f : State → α → State} (_ : ∀ s a, (f s a).base = s.base) (l : List α) (s : State),
      (forEach l f s).power.shut = s.power.shut := fun h l s => State.shut_of_base (forEach_base h l s)
  unfold State.loseDie
  dsimp only
  rw [State.modLedger_power, State.shut_of_base (State.zeroMem_base ..), State.shut_of_base (State.zeroMem_base ..),
    hbase fun s k => s.zeroMem_base _ _, hbase fun s k => s.zeroMem_base _ _, State.modBoot_power,
    hbase fun s k => s.freeRing_base k, hbase fun s p => ?_]
  · dsimp only
    rw [hbase fun s k => s.modCluster_base k _, State.shut_of_base (State.moversGone_base ..),
      forEach_keep (g := fun s : State => s.power.shut) fun s k => ?_, State.shut_of_base (State.failUsers_base ..)]
    rw [State.modCore_power, State.shut_of_base (s.dropCoreWork_base k)]
  · exact s.losePav_base d _ p

/-- A lost die's clusters are out of service. -/
theorem State.loseDie_outOfService (s : State) (d : Nat) {k : Nat} (hk : k < 4) :
    (s.loseDie d).outOfService (4 * d + k) := by
  unfold State.outOfService State.cluster State.loseDie
  dsimp only
  rw [State.modLedger_clusters, State.zeroMem_clusters, State.zeroMem_clusters,
    forEach_keep (g := State.clusters) fun s k => s.zeroMem_clusters _ _,
    forEach_keep (g := State.clusters) fun s k => s.zeroMem_clusters _ _, State.modBoot_clusters,
    forEach_keep (g := State.clusters) fun s k => s.freeRing_clusters k, forEach_keep
        (g := State.clusters) fun s p => ?_]
  · dsimp only
    have hout := fun w => forEach_outOfService (k := 4 * d + k)
      (f := fun x => { x with inService := false, leaving := false, standin := none, failedCore := none })
          (fun _ => rfl)
      ((List.range 4).map (· + 4 * d)) w (.inl (List.mem_map.mpr ⟨k, List.mem_range.mpr hk, Nat.add_comm ..⟩))
    exact hout _
  · exact s.losePav_clusters d _ p

theorem dieShutdown_eq {u : Fin 10} {c : Nat} {s : State} (hc : 115 ≤ c) (hon : s.power.shut.contains u.val = false)
    (hp : s.power.pwrGood = true) : ∃ w : State, w.power.shut = s.power.shut ++ [u.val]
      ∧ exec (.dieShutdown u c) s = .next (if u.val < 8 then w.loseDie u.val else w.loseHub (u.val - 8)) := by
  have hoff : ¬(c < 115 ∨ s.power.shut.contains u.val = true ∨ (!s.power.pwrGood) = true) := by
    rw [hon, hp]; simp [hc]
  refine ⟨(((s.modPower fun p => { p with shut := p.shut ++ [u.val] }).modUnitTemp u.val fun x => { x with
      high := max x.high c, highAt := if x.high < c then s.now else x.highAt,
          hourHigh := max x.hourHigh c }).updateAlert).postModule
    0x0A03 3 0xFFFF (pack [(1, u.val), (1, c)]), ?_, if_neg hoff⟩
  rw [State.postModule_power, State.updateAlert_shut]
  rfl

/-! ### Events of the module (R497) -/

@[simp] theorem State.ringEvent_modLog (s : State) (k : Nat) (e : Event) : (s.ringEvent k e).modLog = s.modLog := by
  unfold State.ringEvent
  dsimp only
  split
  · rfl
  · split
    · rfl
    · unfold State.writeMem
      split <;> rfl

/-- The module's log takes the event. -/
theorem State.postModule_modLog (s : State) (code sev place : Nat) (d : List Byte) :
    (s.postModule code sev place d).modLog.next = s.modLog.next + 1 := by
  unfold State.postModule State.postTo
  rw [forEach_keep (g := State.modLog) fun s k => s.ringEvent_modLog ..]
  simp only [State.logEvent, if_true]
  split <;> rfl

/-! ### Coolant (R482, R483) -/

/-- The flow as it is measured. -/
def State.withFlow (s : State) (f : Nat) : State :=
  s.modPower fun p => { p with
    flow := f
    outletDeciC := if f = 0xFFFF ∨ f = 0 then p.inletDeciC else p.inletDeciC + p.meanW * 60000 / (3744 * f) }

theorem coolantLowFlow_good {f : Nat} (s : State) (h : 700 ≤ f) : exec (.coolantLowFlow f) s
    = .next ((s.withFlow f).modPower fun p => { p with lowFlowSince := none, lowFlowPosted := false }) := if_pos h

theorem coolantLowFlow_low {f : Nat} (s : State) (h : f < 700) : exec (.coolantLowFlow f) s
    = match s.power.lowFlowSince with
      | none => .next ((s.withFlow f).modPower fun p => { p with lowFlowSince := some s.clock })
      | some t =>
        if s.power.lowFlowPosted || decide (s.clock < t + 10000000000) then .next (s.withFlow f)
        else .next (((s.withFlow f).modPower fun p => { p with lowFlowPosted := true }).coolantEvent 1) :=
  if_neg (Nat.not_le.mpr h)

@[simp] theorem State.coolantEvent_power (s : State) (reason : Nat) : (s.coolantEvent reason).power = s.power :=
  State.postModule_power ..

/-- The alert is all that a check of the alert changes. -/
theorem State.updateAlert_power (s : State) :
    s.updateAlert.power = { s.power with alert := s.updateAlert.power.alert } := by
  unfold State.updateAlert
  dsimp only
  split
  · rfl
  · split <;> rfl

/-- The inlet temperature as it is measured, with its two warnings. -/
def State.withInlet (s : State) (d : Nat) : State :=
  s.modPower fun p => { p with
    inletDeciC := d, inletHigh := decide (400 < d) || (s.power.inletHigh && decide (395 ≤ d)), inletLow := decide
        (d < 200) }

theorem coolantInletTemperature_power (d : Nat) (s : State) : ∃ t, exec (.coolantInletTemperature d) s = .next t
    ∧ t.power = { (s.withInlet d).power with alert := (s.withInlet d).updateAlert.power.alert } := by
  refine ⟨_, rfl, ?_⟩
  rw [apply_ite State.power, State.coolantEvent_power, ite_self, apply_ite State.power, State.coolantEvent_power,
      ite_self]
  exact (s.withInlet d).updateAlert_power

/-! ### THERMAL_STATUS (R480) -/

theorem bodyThermalStatus_basic {s : State} {c : Cmd} (hx : c.expert = false) : ∃ l,
    bodyThermalStatus s c = .ok (s.finish c l)
      ∧ l.take 10 = pack [(2, s.power.inputMv), (2, s.power.inputDeciA), (2, s.power.meanW), (2, s.power.peakW),
          (2, s.power.capW)] :=
  ⟨_, by simp only [bodyThermalStatus, hx]; rfl, rfl⟩

/-- What the expert form writes: the words of the islands or the records of the dies and hubs, of those that the function may
see. -/
def State.thermalBytes (s : State) (c : Cmd) : List Byte :=
  let mine := fun (f : Pav → Bool) => c.fn == 0 || (s.pav (c.fn - 1)).any f
  if bits (c.word 1) 1 0 = 0 then
    (List.range 332).flatMap fun i => leBytes 8 (if mine (·.hasIsle i) then s.isleWord i else 0)
  else (List.range 10).flatMap fun u =>
    if u ≥ 8 || mine (fun v => v.clusters.any fun k => k / 4 == u) then s.unitRecord u else leBytes 32 0

theorem flatMap_length_of_const {α : Type} {f : α → List Byte} {n : Nat} (h : ∀ a, (f a).length = n) (l : List α) :
    (l.flatMap f).length = n * l.length := by
  induction l with
  | nil => rfl
  | cons a l ih => simp [h, ih, Nat.mul_add, Nat.add_comm]

theorem State.thermalBytes_length {s : State} {c : Cmd} {n : Nat}
    (hn : bits (c.word 1) 1 0 = 0 ∧ n = 2656 ∨ bits (c.word 1) 1 0 = 1 ∧ n = 320) : (s.thermalBytes c).length = n := by
  unfold State.thermalBytes
  rcases hn with ⟨hk, rfl⟩ | ⟨hk, rfl⟩
  · simp only [hk, if_true]
    rw [flatMap_length_of_const (n := 8) fun i => leBytes_length .., List.length_range]
  · simp only [hk, one_ne_zero, if_false]
    rw [flatMap_length_of_const (n := 32) fun u => ?_, List.length_range]
    split
    · exact slice_length ..
    · exact leBytes_length ..

theorem bodyThermalStatus_expert {s : State} {c : Cmd} (hx : c.expert = true) (ha : c.word 0 % 64 = 0) {n : Nat}
    (hn : bits (c.word 1) 1 0 = 0 ∧ n = 2656 ∨ bits (c.word 1) 1 0 = 1 ∧ n = 320) (htakes : s.takes c (c.word 0) n) :
    bodyThermalStatus s c = .ok ((s.writeMem (c.word 0) (s.thermalBytes c)).finish c (pack [(4, n)])) := by
  have hlen := s.thermalBytes_length hn
  have hkind : decide (bits (c.word 1) 1 0 < 2) = true := by
    rcases hn with ⟨hk, -⟩ | ⟨hk, -⟩ <;> simp [hk]
  have hbuf : s.toBuffer c 0 (c.word 0) (s.thermalBytes c) 64 = .ok (s.writeMem (c.word 0) (s.thermalBytes c)) :=
    State.toBuffer_ok ha (hlen ▸ htakes)
  simp only [bodyThermalStatus, hx, if_true]
  rw [need_bind hkind]
  change (s.toBuffer c 0 (c.word 0) (s.thermalBytes c) 64 >>= fun s => _) = _
  rw [hbuf, ← hlen]
  rfl

end Sys2Proof.Machine

open Sys2Proof Sys2Proof.Machine

/-- Settles O24: each measurement is one equation of `exec`, and what a lost die or hub cuts off leaves it off. -/
theorem coolingIsWatchedAndReported : Obligations.CoolingIsWatchedAndReported := by
  refine ⟨fun s => ⟨fun u c hc hon hp => ?_, fun h c => ⟨⟨_, rfl, fun hhot => ?_, fun hstop => ?_, rfl⟩,
    ⟨_, rfl, fun hcool => ?_, fun hgo => ?_, rfl⟩⟩, fun f => ⟨fun h => ?_, fun h hnone => ?_,
        fun b h hb hposted hms => ?_⟩,
    fun d => ?_, fun m k hup hhour => ?_, fun b => ⟨fun h => ?_, fun h => ?_⟩⟩, fun id c s hdue => ⟨fun hx => ?_,
    fun hx ha n hn htakes => ?_⟩⟩
  · obtain ⟨w, hw, hexec⟩ := dieShutdown_eq hc hon hp
    refine ⟨_, hexec, ?_, fun hdie k hk => ?_⟩
    · have hshut : (if u.val < 8 then w.loseDie u.val else w.loseHub (u.val - 8)).power.shut = w.power.shut := by
        split
        · exact w.loseDie_shut _
        · exact w.loseHub_shut _
      rw [hshut, hw]
      simp
    · rw [if_pos hdie]
      exact w.loseDie_outOfService u.val hk
  · exact (congrArg (fun l : List Nat => l.contains h.val) (if_pos hhot)).trans (addNew_contains ..)
  · exact (congrArg (fun l : List Nat => l.contains h.val) (if_pos hstop)).trans (addNew_contains ..)
  · exact (congrArg (fun l : List Nat => l.contains h.val) (if_pos hcool)).trans (filter_ne_contains ..)
  · exact (congrArg (fun l : List Nat => l.contains h.val) (if_pos hgo)).trans (filter_ne_contains ..)
  · rw [coolantLowFlow_good s h]
    exact ⟨_, rfl, rfl, rfl⟩
  · rw [coolantLowFlow_low s h, hnone]
    exact ⟨_, rfl, rfl⟩
  · rw [coolantLowFlow_low s h, hb]
    refine ⟨_, if_neg (by simp [hposted, hms]), ?_, State.postModule_modLog ..⟩
    rw [State.coolantEvent_power]
    rfl
  · obtain ⟨t, ht, hpower⟩ := coolantInletTemperature_power d s
    exact ⟨t, ht, by rw [hpower]; rfl, by rw [hpower]; rfl, by rw [hpower]; rfl⟩
  · have hgo : ¬(!s.roleUp 1 || decide (s.clock < s.power.lastHour + 3600000000000)) = true := by simp [hup, hhour]
    refine ⟨_, { endTime := s.now, meanW := m, peakW := k, droop := s.power.hourDroops
                 temps := (List.range 10).map fun u => ((s.unitTemp u).hourLow, (s.unitTemp u).hourHigh) },
      if_neg hgo, rfl, rfl, rfl, ?_, rfl⟩
    simp
  · exact congrArg (fun x => Host.Outcome.next (s.emit (.smbus x))) (if_pos h)
  · exact congrArg (fun x => Host.Outcome.next (s.emit (.smbus x))) (if_neg (Nat.not_le.mpr h))
  · obtain ⟨l, hl, htake⟩ := bodyThermalStatus_basic (s := s) hx
    exact ⟨l, congrArg Host.Outcome.next (State.startCmd_ok hdue hl), htake⟩
  · refine ⟨s.thermalBytes c, State.thermalBytes_length hn,
      congrArg Host.Outcome.next (State.startCmd_ok hdue (bodyThermalStatus_expert hx ha hn htakes)), fun h0 hk => ?_,
      fun h0 hk => ?_⟩
    · simp [State.thermalBytes, h0, hk]
    · simp [State.thermalBytes, h0, hk]
end

section
/-! PROOFS. The optical links (R319 to R329, R331, R332, R343, R353): lanes, training, flits and packets. -/

namespace Sys2Proof.Machine

theorem State.link_of_links {s t : State} (h : t.links = s.links) (l : Nat) : t.link l = s.link l := by
  unfold State.link; rw [h]

@[simp] theorem State.linkEvent_links (s : State) (l code sev : Nat) (d : List Byte) :
    (s.linkEvent l code sev d).links = s.links := State.postModule_links ..
@[simp] theorem State.postModule_link (s : State) (code sev place : Nat) (d : List Byte) (l : Nat) :
    (s.postModule code sev place d).link l = s.link l := State.link_of_links (State.postModule_links ..) l
@[simp] theorem State.linkEvent_link (s : State) (j code sev : Nat) (d : List Byte) (l : Nat) :
    (s.linkEvent j code sev d).link l = s.link l := State.postModule_link ..

/-! ### A link goes down (R323) -/

def Link.down (k : Link) : Link := { k with state := 0, inUse := 0, pendingMask := none }

theorem State.linkDown_link {s : State} {l : Nat} (h : (s.link l).state = 2) (cause : Nat) :
    (s.linkDown l cause).link l = (s.link l).down := by
  rw [State.linkDown, if_neg (not_not.2 h)]
  exact (State.linkEvent_link ..).trans (State.modLink_self ..)

/-! ### Lanes (R324, R325) -/

/-- The lanes of a link and the mask of its peer: all that its own mask and the peer's say. -/
def Link.laneSide (k : Link) : List (Nat × Lane) × Nat := (k.lanes, k.peerMask)

theorem State.linkDown_laneSide (s : State) (l cause : Nat) :
    ((s.linkDown l cause).link l).laneSide = (s.link l).laneSide := by
  by_cases h : (s.link l).state = 2
  · rw [State.linkDown_link h]; rfl
  · rw [State.linkDown, if_pos h]

theorem State.planLanes_laneSide (s : State) (l : Nat) (ahead : BitVec 16) :
    ((s.planLanes l ahead).link l).laneSide = (s.link l).laneSide := by
  unfold State.planLanes
  dsimp only
  split
  · rfl
  split
  · exact s.linkDown_laneSide l 3
  · rw [State.modLink_self]; rfl

theorem State.ownLanes_laneSide (s : State) (l : Nat) : ((s.ownLanes l).link l).laneSide = (s.link l).laneSide :=
  State.planLanes_laneSide (s.emit _) l _

theorem Link.lane_of_laneSide {k j : Link} (h : k.laneSide = j.laneSide) (i : Nat) : k.lane i = j.lane i := by
  have hl : k.lanes = j.lanes := congrArg Prod.fst h
  unfold Link.lane; rw [hl]

theorem State.modLane_lane (s : State) (l i : Nat) (f : Lane → Lane) :
    ((s.modLane l i f).link l).lane i = f ((s.link l).lane i) := by
  rw [State.modLane, State.modLink_self]
  exact tget_tset_self ..

theorem State.retireLane_lane (s : State) (l i : Nat) : ∃ times parks, ((s.retireLane l i).link l).lane i
    = { retired := true, retiredAt := s.clock, testing := false, retirements := times, parked := parks } := by
  unfold State.retireLane
  extract_lets now x times parks s₁ s₂ s₃
  have h₃ : s₃.link l = s₁.link l := by
    rw [show s₃ = _ from rfl, apply_ite (fun t : State => t.link l), State.linkEvent_link, ite_self]; rfl
  have h : ((s₃.ownLanes l).link l).lane i = (s₁.link l).lane i :=
    Link.lane_of_laneSide (by rw [State.ownLanes_laneSide, h₃]) i
  exact ⟨times, parks, by rw [h, State.modLane_lane]⟩

theorem State.admitLane_lane (s : State) (l i : Nat) : ((s.admitLane l i).link l).lane i
    = { (s.link l).lane i with retired := false, testing := false, parked := false } := by
  unfold State.admitLane
  rw [Link.lane_of_laneSide (State.ownLanes_laneSide ..), State.modLane_lane]

theorem State.planLanes_none {s : State} {l : Nat} (h2 : (s.link l).state = 2)
    (hm : (s.link l).ownMask l &&& (s.link l).peerMask = 0) (ahead : BitVec 16) :
    (s.planLanes l ahead).link l = (s.link l).down := by
  unfold State.planLanes
  rw [if_neg (not_not.2 h2), if_pos hm]
  exact State.linkDown_link h2 3

theorem State.planLanes_some {s : State} {l : Nat} (h2 : (s.link l).state = 2)
    (hm : (s.link l).ownMask l &&& (s.link l).peerMask ≠ 0) (ahead : BitVec 16) :
    ((s.planLanes l ahead).link l).pendingMask = some ((s.link l).ownMask l &&& (s.link l).peerMask, ahead + 256) := by
  unfold State.planLanes
  rw [if_neg (not_not.2 h2), if_neg hm, State.modLink_self]

/-! ### Flits (R322, R323, R353) -/

/-- A link without what the serving of its queue changes. -/
def Link.settled (k : Link) : Link :=
  { k with queue := [], sendSeq := 0, replay := [], served := [], lowFlits := 0, allFlits := 0 }

theorem State.serveLink_settled (s : State) (l fuel : Nat) :
    ((s.serveLink l fuel).link l).settled = (s.link l).settled := by
  induction fuel generalizing s with
  | zero => rfl
  | succ fuel ih =>
    rw [State.serveLink]
    dsimp only
    split
    · rfl
    next i w _ =>
    split
    · rfl
    · rw [ih, apply_ite (fun t : State => t.link l)]
      cases w.counts <;> simp [Link.serve, Link.settled]

@[simp] theorem State.flushLink_settled (s : State) (l : Nat) :
    ((s.flushLink l).link l).settled = (s.link l).settled := by
  unfold State.flushLink
  dsimp only
  split
  · rfl
  · exact s.serveLink_settled l _

/-- Nothing waits: nothing is sent. -/
theorem State.flushLink_of_empty {s : State} {l : Nat} (h : (s.link l).queue = []) : s.flushLink l = s := by
  unfold State.flushLink
  dsimp only
  rw [h]
  exact ite_self s

theorem forEach_emit {α : Type} (f : α → Emission) (l : List α) (s : State) :
    forEach l (fun s x => s.emit (f x)) s = { s with out := s.out ++ l.map f } := by
  induction l generalizing s with
  | nil => simp
  | cons a l ih => rw [forEach_cons, ih]; simp [State.emit]

theorem State.resend_eq (s : State) (l : Nat) (q : BitVec 16) : s.resend l q
    = { s with out := s.out ++ ((s.link l).replay.filter fun x => seqLe q x.1).map (·.2) } := forEach_emit ..

/-- A link takes a good flit: what it acknowledges is kept no longer. -/
def Link.take (k : Link) (f : Flit) (now : Nat) : Link :=
  let newAck := f.ack != k.ackSeq && seqLe k.ackSeq f.ack && seqLe f.ack k.sendSeq
  { k with
    lastValid := now
    ackSeq := if newAck then f.ack else k.ackSeq
    replay := if newAck then k.replay.filter fun x => seqLe f.ack x.1 else k.replay
    replays := if newAck then 0 else k.replays }

/-- The peer asks for the stream again. -/
def State.replayFor (s : State) (l : Nat) : Option (BitVec 16) → State
  | some q => ((s.modLink l fun k => { k with replays := k.replays + 1 }).count (ctrId (placeLink l) 7 2) 1).resend l q
  | none => s

/-- A good flit moves the sequence on, or the flits before it are asked for. -/
def State.follow (s : State) (l : Nat) (f : Flit) (old : BitVec 16) : State :=
  if f.fseq = old then s.modLink l fun k => { k with recvSeq := k.recvSeq + 1 }
  else if seqLe old f.fseq then s.emit (.replayRequest l old) else s

def State.took (s : State) (l : Nat) (f : Flit) : State :=
  (((s.count (ctrId (placeLink l) 7 1) 1).modLink l fun k => k.take f s.clock).replayFor l f.replayFrom).follow l f
    (s.link l).recvSeq

variable {l : Fin 6} {s : State}

theorem flitReceive_bad {f : Flit} (h2 : (s.link l.val).state = 2) (h : f.crcOk = false) : exec (.flitReceive l f) s
    = .next (((s.count (ctrId (placeLink l.val) 7 1) 1).count (ctrId (placeLink l.val) 7 3) 1).emit
        (.replayRequest l.val (s.link l.val).recvSeq)) :=
  (if_neg (not_not.2 h2)).trans (if_pos (by rw [h]; rfl))

theorem flitReceive_good {f : Flit} (h2 : (s.link l.val).state = 2) (h : f.crcOk = true) :
    exec (.flitReceive l f) s = .next ((s.took l.val f).flushLink l.val) := by
  refine (if_neg (not_not.2 h2)).trans ((if_neg (by rw [h]; exact Bool.false_ne_true)).trans ?_)
  unfold State.took State.replayFor
  cases f.replayFrom <;> rfl

theorem State.replayFor_link (s : State) (l : Nat) (q : Option (BitVec 16)) :
    ∃ n, (s.replayFor l q).link l = { s.link l with replays := n } := by
  cases q with
  | none => exact ⟨_, rfl⟩
  | some q => exact ⟨_, by
      rw [State.replayFor, State.resend_eq]
      exact s.modLink_self l fun k => { k with replays := k.replays + 1 }⟩

theorem State.took_link (s : State) (l : Nat) (f : Flit) : let k := s.link l
    ∃ n, (s.took l f).link l = { k.take f s.clock with
      replays := n, recvSeq := if f.fseq = k.recvSeq then k.recvSeq + 1 else k.recvSeq } := by
  obtain ⟨n, hn⟩ := ((s.count (ctrId
      (placeLink l) 7 1) 1).modLink l fun k => k.take f s.clock).replayFor_link l f.replayFrom
  rw [State.modLink_self, State.count_link] at hn
  refine ⟨n, ?_⟩
  unfold State.took State.follow
  by_cases h : f.fseq = (s.link l).recvSeq
  · rw [if_pos h, if_pos h, State.modLink_self, hn]; rfl
  · rw [if_neg h, if_neg h, apply_ite (fun t : State => t.link l), State.emit_link, ite_self, hn]; rfl

/-- The stream is sent again from the sequence number that the peer asks for. -/
theorem State.took_out {s : State} {l : Nat} {f : Flit} {q : BitVec 16} (hq : f.replayFrom = some q)
    (hs : f.fseq = (s.link l).recvSeq) (ha : f.ack = (s.link l).ackSeq) :
    (s.took l f).out = s.out ++ ((s.link l).replay.filter fun x => seqLe q x.1).map (·.2) := by
  unfold State.took State.follow
  rw [if_pos hs, hq, State.replayFor, State.resend_eq]
  simp only [State.modLink_self, State.count_link, Link.take, ha, bne_self_eq_false, Bool.false_and, Bool.false_eq_true,
    if_false]
  rfl

/-- The packets that have waited 2 ms. -/
def State.overdue (s : State) (l : Nat) : List Waiting :=
  (s.link l).queue.filter fun w => decide (w.since + 2000000 ≤ s.clock)

theorem packetQueueTimeout_eq (h2 : (s.link l.val).state ≠ 2) (h : s.overdue l.val ≠ []) :
    exec (.packetQueueTimeout l) s = .next ((s.modLink l.val fun k =>
        { k with queue := k.queue.filter fun w => !decide (w.since + 2000000 ≤ s.clock) }).count
      (ctrId (placeLink l.val) 7 4) (s.overdue l.val).length) :=
  (if_neg h2).trans (if_neg (mt List.length_eq_zero_iff.1 h))

/-- Control and time go first. -/
theorem Link.nextServed_first {k : Link} {i : Nat} (h : k.nextServed = some i)
    (hany : (k.queue.any fun w => w.cls == 1) = true) : k.queue.findIdx? (·.cls == 1) = some i := by
  unfold Link.nextServed at h
  cases hf : k.queue.findIdx? (·.cls == 1) with
  | none =>
    rw [List.findIdx?_eq_none_iff] at hf
    obtain ⟨w, hw, h1⟩ := List.any_eq_true.1 hany
    rw [hf w hw] at h1
    cases h1
  | some j => rw [hf] at h; exact h

/-! ### Packets (R331, R332, R336, R337) -/

theorem packetArrive_lost {x : Pkt} (h2 : (s.link l.val).state = 2) (hx : x.type ≠ 0x30)
    (hp : s.planeFor x.plane = none) :
    exec (.packetArrive l x) s = .next (s.count (ctrId (placeLink l.val) 7 10) 1) := by
  refine (if_neg fun h => h.elim (· h2) hx).trans ?_
  rw [hp]

theorem packetArrive_fenced {x : Pkt} {pl : Plane} (h2 : (s.link l.val).state = 2) (hx : x.type ≠ 0x30)
    (hp : s.planeFor x.plane = some pl) (hf : s.route.fences.contains x.partition = true) :
    exec (.packetArrive l x) s = .next (s.count (ctrId (placeLink l.val) 7 5) 1) := by
  refine (if_neg fun h => h.elim (· h2) hx).trans ?_
  rw [hp]
  exact if_pos hf

/-- What becomes of a packet that its entry takes outside a fence. -/
def State.pass (s : State) (l : Nat) (x : Pkt) (e : RouteEntry) : State :=
  let drop := fun (i : Nat) => s.count (ctrId (placeLink l) 7 i) 1
  if x.partition ≠ 0 ∧ e.partition ≠ 0xFFF ∧ e.partition ≠ x.partition then drop 6
  else if e.port = 6 then
    if x.partition = 0 ∨ (s.pavs.any fun v => v.2.partition == x.partition) = true then s.emit
        (.delivered x) else drop 7
  else if 6 < e.port ∨ s.physLink e.port = l then drop 8
  else if (x.hops + 63) % 64 = 0 then drop 9
  else s.queuePacket (s.physLink e.port) { x with hops := (x.hops + 63) % 64, vc := e.dateline || x.vc }

/-- The entry that a packet without one takes (log 52): it leads nowhere. -/
def RouteEntry.nowhere : RouteEntry := { port := 7, dateline := false, partition := 0xFFF, level2 := false }

theorem packetArrive_passed {x : Pkt} {pl : Plane} (h2 : (s.link l.val).state = 2) (hx : x.type ≠ 0x30)
    (hp : s.planeFor x.plane = some pl) (hf : s.route.fences.contains x.partition = false) :
    exec (.packetArrive l x) s = .next (s.pass l.val x ((tfind pl.entries x.dest).getD .nowhere)) := by
  refine (if_neg fun h => h.elim (· h2) hx).trans ?_
  rw [hp]
  refine (if_neg (by rw [hf]; exact Bool.false_ne_true)).trans ?_
  unfold State.pass
  simp only [apply_ite Host.Outcome.next]
  rfl

theorem State.pass_nowhere (s : State) (l : Nat) (x : Pkt) :
    s.pass l x .nowhere = s.count (ctrId (placeLink l) 7 8) 1 := by
  unfold State.pass
  rw [if_neg fun h => h.2.1 rfl, if_neg (by decide), if_pos (.inl (by decide))]

/-! ### Training (R326 to R329) -/

theorem State.setTimeState_links (s : State) (st : Nat) : (s.setTimeState st).links = s.links := by
  unfold State.setTimeState
  dsimp only
  split
  · rfl
  · rw [State.postModule_links]
    exact (forEach_keep (g := State.links) (fun t _ => t.count_links ..) _ _).trans rfl

theorem State.lateStages_links (s : State) (joined : Bool) : (s.lateStages joined).links = s.links := by
  have hset : ∀ (t : State) n, (t.setStage n).links = t.links := fun _ _ => rfl
  unfold State.lateStages
  simp only [apply_ite State.links, State.postModule_links, hset, ite_self]

theorem State.joinCheck_links (s : State) (a : Nat) : (s.joinCheck a).links = s.links := by
  unfold State.joinCheck
  split
  · rfl
  dsimp only
  split
  · rfl
  split
  · rw [State.lateStages_links, State.finish_links]; rfl
  · rfl

/-- A link that its end has brought up, apart from its sequence, its queue and its grant. -/
structure Link.UpWith (k : Link) (m : Nat) (x : TrainRec) : Prop where
  state : k.state = 2
  neighbour : k.nbId = x.deviceId
  level : k.level = min 3 x.level
  lanes : k.inUse = m

theorem Link.UpWith.of_settled {k j : Link} {m : Nat} {x : TrainRec} (h : k.settled = j.settled) (hj : j.UpWith m x) :
    k.UpWith m x :=
  ⟨(congrArg Link.state h :).trans hj.state, (congrArg Link.nbId h :).trans hj.neighbour,
    (congrArg Link.level h :).trans hj.level, (congrArg Link.inUse h :).trans hj.lanes⟩

theorem State.linkUp_up {s : State} {l : Nat} {x : TrainRec} (hm : (s.link l).ownMask l &&& x.laneMask ≠ 0) :
    ((s.linkUp l x).link l).UpWith ((s.link l).ownMask l &&& x.laneMask) x := by
  unfold State.linkUp
  extract_lets k m byGrant s₁ s₂ s₃
  rw [if_neg hm, State.link_of_links (State.joinCheck_links ..)]
  have h₃ : s₃.links = s₁.links := by
    have h₂ : s₂.links = s₁.links := State.linkEvent_links ..
    rw [show s₃ = _ from rfl, apply_ite State.links, State.setTimeState_links]
    exact (ite_self _).trans h₂
  refine .of_settled (State.flushLink_settled s₃ l) ?_
  rw [State.link_of_links h₃, State.modLink_self]
  exact ⟨rfl, rfl, rfl, rfl⟩

theorem State.quarantine_link (s : State) {l : Nat} (_ : l < 6) (r dev : Nat) :
    let k := (s.quarantine l r dev).link l
    k.state = 3 ∧ k.quarDevice = dev ∧ (k.reason = r ∨ r = 2 ∧ k.reason = 7) := by
  unfold State.quarantine
  extract_lets seven r' s₁ s₂ k
  have h₂ : s₂.link l = s₁.link l := by
    have hne : l ≠ (l + 3) % 6 := by omega
    rw [show s₂ = _ from rfl, apply_ite (fun t : State => t.link l), State.modLink_ne _ _ hne, ite_self]
  have hk : k = { s.link l with state := 3, reason := r', quarDevice := dev, triedAt := s.clock } :=
    (State.linkEvent_link ..).trans (h₂.trans (State.modLink_self ..))
  rw [hk]
  refine ⟨rfl, rfl, ?_⟩
  by_cases h7 : seven = true
  · exact .inr ⟨beq_iff_eq.1 (Bool.and_eq_true_iff.1 h7).1, if_pos h7⟩
  · exact .inl (if_neg h7)

end Sys2Proof.Machine

open Sys2Proof Sys2Proof.Machine

/-- Settles O26: a retirement and an admission set the lane, and the masks that follow leave the lanes alone. -/
theorem lanesRetireAndReturn : Obligations.LanesRetireAndReturn := by
  intro l i s k gone
  have hgone : ∀ t : State, t.clock = s.clock → gone (t.retireLane l.val i.val) := fun t ht => by
    obtain ⟨times, parks, h⟩ := t.retireLane_lane l.val i.val
    dsimp only [gone]
    rw [h, ht]
    exact ⟨rfl, rfl, rfl⟩
  refine ⟨fun h => ⟨_, congrArg Host.Outcome.next (if_pos h), hgone s rfl⟩,
    fun n => ⟨fun hn h => ⟨_, congrArg Host.Outcome.next (if_pos ⟨hn, h⟩), hgone _ rfl⟩,
      fun hn => ⟨_, congrArg Host.Outcome.next (if_neg fun h => absurd h.1 (not_lt.2 hn)), rfl⟩⟩,
    fun hr hp ht hw hany => if_pos (by rw [hr, hp, ht, hany, decide_eq_true hw]; rfl),
    fun u n ht => ?_, fun m h2 => ?_, fun m f hm => ?_⟩
  · have hnot : ¬((!(k.lane i.val).testing) = true) := by rw [ht]; exact Bool.false_ne_true
    exact ⟨fun hu hn => ⟨_, (if_neg hnot).trans (congrArg Host.Outcome.next (if_pos ⟨hu, hn⟩)),
        by rw [State.admitLane_lane]; exact ⟨rfl, rfl⟩⟩,
      fun h => ⟨_, (if_neg hnot).trans (congrArg Host.Outcome.next (if_neg (by omega))), hgone _ rfl⟩⟩
  · have hk : (s.modLink l.val fun k => { k with peerMask := m.toNat }).link l.val = { k with peerMask := m.toNat } :=
      State.modLink_self ..
    have h2' : ((s.modLink l.val fun k => { k with peerMask := m.toNat }).link l.val).state = 2 := by rw [hk]; exact h2
    refine ⟨_, if_neg (not_not.2 h2), ?_, fun h0 => ?_, fun h0 => ?_⟩
    · have h := congrArg Prod.snd (State.planLanes_laneSide (s.modLink l.val fun k =>
        { k with peerMask := m.toNat }) l.val k.recvSeq)
      rw [hk] at h
      exact h
    · rw [State.planLanes_none h2' (by rw [hk]; exact h0)]; rfl
    · rw [State.planLanes_some h2' (by rw [hk]; exact h0), hk]; rfl
  · refine ⟨_, by
      change execLaneSwitch l s = _
      unfold execLaneSwitch
      rw [hm], ?_⟩
    rw [State.linkEvent_link, State.modLink_self]
    exact ⟨rfl, rfl⟩

/-- Settles O25: a good flit sets the link's own numbers and the serving of its queue leaves them; a packet's fate follows
its entry. -/
theorem linksCarryFlitsAndPackets : Obligations.LinksCarryFlitsAndPackets := by
  refine ⟨?_, fun k i h hany => ?_⟩
  intro l s k drop
  refine ⟨fun h2 => ⟨fun f => ⟨fun hc => ?_, fun hc => ?_⟩, fun h => ?_, fun h => ?_,
      fun x hx => ⟨packetArrive_lost h2 hx,
    fun pl hp => ⟨packetArrive_fenced h2 hx hp, fun hf hn => ?_, ?_⟩⟩⟩, ?_⟩
  · exact ⟨_, flitReceive_bad h2 hc, rfl, rfl⟩
  · obtain ⟨n, hn⟩ := s.took_link l.val f
    have hl := ((s.took l.val f).flushLink_settled l.val)
    rw [hn] at hl
    refine ⟨_, flitReceive_good h2 hc, (congrArg Link.lastValid hl :), (congrArg Link.recvSeq hl :),
        fun q hq hs ha he => ?_⟩
    rw [State.flushLink_of_empty (by rw [hn]; exact he)]
    exact State.took_out hq hs ha
  · refine ⟨_, congrArg Host.Outcome.next (if_pos h), ?_⟩
    rw [State.linkDown_link h2]
    exact ⟨rfl, rfl⟩
  · refine ⟨_, congrArg Host.Outcome.next (if_pos h), ?_⟩
    rw [State.linkDown_link h2]
    exact ⟨rfl, rfl⟩
  · rw [packetArrive_passed h2 hx hp hf, hn]
    exact congrArg _ (s.pass_nowhere l.val x)
  · intro e he hf crosses
    have h := packetArrive_passed h2 hx hp hf
    rw [he, Option.getD_some] at h
    unfold State.pass at h
    refine ⟨fun hc => by rwa [if_pos hc] at h, fun hc => ?_⟩
    rw [if_neg hc] at h
    refine ⟨fun h6 => ?_, fun h8 => ?_, fun hlt hne => ?_⟩
    · rw [if_pos h6] at h
      exact ⟨fun hh => by rwa [if_pos hh] at h, fun hh => by rwa [if_neg hh] at h⟩
    · rw [if_neg (by omega), if_pos (h8.imp_right And.right)] at h
      exact h
    · rw [if_neg (by omega), if_neg (by omega)] at h
      exact ⟨fun h0 => by rwa [if_pos h0] at h, fun h0 => by rwa [if_neg h0] at h⟩
  · intro h2 old hold
    refine ⟨_, packetQueueTimeout_eq h2 hold, ?_, ?_⟩
    · rw [State.count_link, State.modLink_self]
      simp only [← decide_not, not_le]
      rfl
    · exact State.count_raw_self ..
  · obtain ⟨hi, h1, hlt⟩ := List.findIdx?_eq_some_iff_getElem.1 (Link.nextServed_first h hany)
    refine ⟨by rw [List.getElem?_eq_getElem hi]; exact h1, fun j hj => ?_⟩
    rw [List.getElem?_eq_getElem (hj.trans hi)]
    exact bne_iff_ne.2 (by simpa using hlt j hj)

/-- Settles O27: what brings a link up sets its fields, and events, building time and the join leave them. -/
theorem linksTrainOrQuarantine : Obligations.LinksTrainOrQuarantine := by
  intro l s k
  refine ⟨fun he ho h0 => ?_, fun h13 => ?_, fun x h1 => ⟨fun hf hm => ?_, fun r hf => ?_⟩,
      fun h3 ht => if_pos ⟨h3, ht⟩,
    fun g hg hu ht => ?_⟩
  · exact (if_neg (by rw [he, ho]; decide)).trans (if_pos (.inl h0))
  · exact ⟨_, _, if_neg fun h => h13.elim h.1 h.2.1, rfl, rfl, rfl, rfl, rfl, rfl, rfl, rfl⟩
  · obtain ⟨h2, hn, hl, hi⟩ := State.linkUp_up hm
    refine ⟨_, (if_neg (not_not.2 h1)).trans ?_, h2, hn, hl, hi⟩
    rw [hf]
  · refine ⟨_, (if_neg (not_not.2 h1)).trans ?_, s.quarantine_link l.isLt r x.deviceId⟩
    rw [hf]
  · change execGrantExpire l s = _
    unfold execGrantExpire
    rw [hg]
    refine if_neg ?_
    rintro (h | ⟨h, h'⟩)
    · exact absurd h (not_lt.2 hu)
    · exact ht.elim (fun e => Bool.false_ne_true (e.symm.trans h)) (· h')
end

section
/-! PROOFS. Joins, grants, wiring and link status (R330, R341 to R343, R348), and the route planes (R333 to R335). -/

namespace Sys2Proof.Machine

variable {id : Nat} {c : Cmd} {s : State}

/-! ### Grants and joins (R341 to R343) -/

/-- How long a grant lasts, and how long a join trains, in ms. -/
def Cmd.grantMs (c : Cmd) : Nat := if c.expert = true ∧ bits (c.word 6) 63 32 ≠ 0 then bits (c.word 6) 63 32 else 60000
def Cmd.trainMs (c : Cmd) : Nat := if c.expert = true ∧ bits (c.word 6) 31 0 ≠ 0 then bits (c.word 6) 31 0 else 1000

/-- The grant that a command opens. -/
def State.grantFor (s : State) (c : Cmd) : Grant :=
  { code := BitVec.ofNat 64 ((Config.random64 s.freeCtr).toNat % (2 ^ 64 - 1) + 1), joiner := bits (c.word 1) 15 0
    digest := if c.expert then c.word 4 + 2 ^ 64 * c.word 5 else 0, until_ := s.clock + c.grantMs * 1000000 }

theorem State.openGrant_ok {l : Nat} (hlo : 1000 ≤ c.grantMs) (hhi : c.grantMs ≤ 600000) (hg : (s.link l).grant = none) :
    s.openGrant c l = .ok ((s.bumpFree.modLink l fun k => { k with grant := some (s.grantFor c) }).finish c
      (pack [(8, (Config.random64 s.freeCtr).toNat % (2 ^ 64 - 1) + 1),
        (8, if s.timeOn = true then s.now + c.grantMs * 1000000 else 0)])) := by
  have hnone : (s.grantOf l).isNone = true := by rw [State.grantOf, hg]; rfl
  unfold State.openGrant
  exact (need_bind (decide_eq_true ⟨hlo, hhi⟩)).trans (need_bind hnone)

theorem bodyLinkJoin_grant {l : Nat} (hf : s.route.noForward = []) (hrole : bits (c.word 0) 15 12 = 2)
    (hport : bits (c.word 0) 10 8 < 6) (hl : s.physLink (bits (c.word 0) 10 8) = l) :
    bodyLinkJoin s c = s.openGrant c l := by
  unfold bodyLinkJoin
  dsimp only
  rw [need_bind (by rw [hrole]; rfl), need_bind (by rw [hf]; rfl), if_pos (.inl hrole), need_bind (decide_eq_true hport),
    if_pos hrole, hl]

theorem bodyLinkJoin_withdraw (hf : s.route.noForward = []) (hrole : bits (c.word 0) 15 12 = 4)
    (hport : bits (c.word 0) 10 8 < 6) : bodyLinkJoin s c
      = .ok ((s.modLink (s.physLink (bits (c.word 0) 10 8)) fun k => { k with grant := none }).finish c []) := by
  unfold bodyLinkJoin
  dsimp only
  rw [need_bind (by rw [hrole]; rfl), need_bind (by rw [hf]; rfl), if_pos (.inr hrole), need_bind (decide_eq_true hport),
    if_neg (by rw [hrole]; decide)]

theorem bodyLinkJoin_join (hf : s.route.noForward = []) (hrole : bits (c.word 0) 15 12 = 1 ∨ bits (c.word 0) 15 12 = 3)
    (ha : bits (c.word 0) 1 0 < 3) :
    bodyLinkJoin s c = s.openJoin c (bits (c.word 0) 1 0) (bits (c.word 0) 15 12 == 3) := by
  unfold bodyLinkJoin
  dsimp only
  rw [need_bind (decide_eq_true (by omega)), need_bind (by rw [hf]; rfl), if_neg (by omega), need_bind (decide_eq_true ha)]

/-- The join that a command asks for. -/
def State.joinFor (s : State) (c : Cmd) (form : Bool) : Join :=
  { cmd := c.serial, form := form, epoch := bits (c.word 3) 63 32, minusCode := if form then 0 else c.word 1
    plusCode := if form then 0 else c.word 2, trainNs := c.trainMs * 1000000, limit := s.clock + c.trainMs * 1000000 }

theorem State.joinFault_none {a : Nat} {form : Bool} (hcodes : form = false → c.word 1 ≠ 0 ∧ c.word 2 ≠ 0)
    (hlist : ((s.planeOf (bits (c.word 3) 63 32)).any fun p =>
      ((p.slots a).any fun x => x != 0xFFFF) && (p.slots (a + 3)).any fun x => x != 0xFFFF) = true) :
    s.joinFault a (s.joinFor c form) = none := by
  refine (if_neg ?_).trans (if_neg (by dsimp only [State.joinFor]; rw [hlist]; decide))
  cases form with
  | true => exact Bool.false_ne_true
  | false =>
    obtain ⟨h1, h2⟩ := hcodes rfl
    simp [State.joinFor, h1, h2]

theorem State.openJoin_ok {a : Nat} {form : Bool} (hlo : 100 ≤ c.trainMs) (hhi : c.trainMs ≤ 10000)
    (ho : (s.axis a).isOpen = false) (hj : (s.axis a).join = none) (hp : form = true → s.pavs = [])
    (hcodes : form = false → c.word 1 ≠ 0 ∧ c.word 2 ≠ 0)
    (hlist : ((s.planeOf (bits (c.word 3) 63 32)).any fun p =>
      ((p.slots a).any fun x => x != 0xFFFF) && (p.slots (a + 3)).any fun x => x != 0xFFFF) = true) :
    s.openJoin c a form = .ok ((s.started c).modAxis a fun x => { x with
      loopTest := if (!s.loopFresh a) = true then some s.clock else x.loopTest, join := some (s.joinFor c form) }) := by
  have hform : (!form || s.pavs.isEmpty) = true := by
    cases form with
    | false => rfl
    | true => rw [hp rfl]; rfl
  unfold State.openJoin
  refine (need_bind (decide_eq_true ⟨hlo, hhi⟩)).trans ((need_bind (by rw [ho]; rfl)).trans ((need_bind
      (by rw [hj]; rfl)).trans
    ((need_bind hform).trans ?_)))
  have hnone : (if (!s.loopFresh a) = true then none else s.joinFault a (s.joinFor c form)) = none := by
    rw [State.joinFault_none hcodes hlist, ite_self]
  unfold State.joinFor Cmd.trainMs at hnone
  dsimp only
  rw [hnone]
  rfl

/-! ### ACCEPT_WIRING and LINK_STATUS (R330, R348) -/

theorem bodyAcceptWiring_ok (ha : bits (c.word 0) 1 0 < 3) (ho : (s.axis (bits (c.word 0) 1 0)).isOpen = false)
    (hw : bitAt (c.word 0) 8 = false ∨ (c.expert && bitAt (c.word 0) 9) = true
      ∨ (s.axis (bits (c.word 0) 1 0)).lastReason7 = true) : bodyAcceptWiring s c
      = .ok ((s.modAxis (bits (c.word 0) 1 0) fun x => { x with reversed := bitAt (c.word 0) 8 }).finish c []) := by
  have hrev : (!bitAt (c.word 0) 8 || (c.expert && bitAt (c.word 0) 9) || (s.axis (bits
      (c.word 0) 1 0)).lastReason7) = true := by
    rcases hw with h | h | h <;> simp [h]
  unfold bodyAcceptWiring
  exact (need_bind (decide_eq_true ha)).trans (need_bind (by rw [ho, hrev]; rfl))

/-- What the expert form of LINK_STATUS writes of one link. -/
def State.linkRecord (s : State) (vf : Bool) (l : Nat) : List Byte :=
  s.linkStatus l vf ++ pack ((List.range 32).map fun i => (1, s.laneByte l i))

theorem State.linkRecord_length (s : State) (vf : Bool) (l : Nat) : (s.linkRecord vf l).length = 64 := by
  have hpack : ∀ l : List (Nat × Nat), (pack l).length = (l.map (·.1)).sum := fun l => by
    simp only [pack, List.length_flatMap, leBytes_length]
  simp [State.linkRecord, State.linkStatus, hpack, Function.comp_def]

theorem bodyLinkStatus_basic (hx : c.expert = false) (ht : c.target / 4096 = 5) :
    bodyLinkStatus s c = .ok (s.finish c (s.linkStatus (c.target % 4096) (c.fn != 0))) := by
  unfold bodyLinkStatus
  rw [hx]
  exact need_bind (beq_iff_eq.2 ht)

theorem bodyLinkStatus_expert (hx : c.expert = true) (ht : s.takes c (c.word 0) 384) : bodyLinkStatus s c
      = .ok ((s.writeMem (c.word 0) ((List.range 6).flatMap (s.linkRecord (c.fn != 0)))).finish c []) := by
  have hlen : ((List.range 6).flatMap (s.linkRecord (c.fn != 0))).length = 384 := by
    rw [flatMap_length_of_const (s.linkRecord_length _)]; rfl
  unfold bodyLinkStatus
  rw [hx]
  exact congrArg (· >>= fun s => .ok (s.finish c [])) (State.toBuffer_ok (Nat.mod_one _) (by rw [hlen]; exact ht))

/-! ### Route planes (R333 to R335) -/

theorem State.reshapeFail_route (p status place low : Nat) :
    (s.reshapeFail p status place low).route = s.route := by
  unfold State.reshapeFail
  split
  · rfl
  · exact State.fail_route ..

theorem State.reshapePeers_route (s : State) : s.reshapePeers.route = s.route := by
  refine forEach_keep (g := State.route) (fun s p => ?_) _ s
  split
  · rfl
  · split
    · exact s.reshapeFail_route ..
    · rfl

/-- The planes after a swap. -/
def State.swappedRoute (s : State) (p : Plane) : RouteSt :=
  { s.route with
    active := some p, shadow := s.route.active, old := s.route.active.isSome, swapAt := s.clock, pendingSwap := none }

theorem State.swapPlanes_spec {p : Plane} (hp : s.route.shadow = some p) (c : Cmd) :
    (s.swapPlanes (some c)).route = s.swappedRoute p ∧ (s.swapPlanes (some c)).cmd c.serial = none := by
  unfold State.swapPlanes
  rw [hp]
  dsimp only
  exact ⟨by rw [State.finish_route, State.reshapePeers_route, State.postModule_route]; rfl, State.finish_cmd_self ..⟩

theorem State.needTime_ok {t i : Nat} (h : t = 0 ∨ s.timeOn = true) : s.needTime c t i = .ok () := by
  refine need_of ?_
  rcases h with h | h <;> simp [h]

theorem State.needTime_bind {t i : Nat} {f : Unit → Chk State} (h : t = 0 ∨ s.timeOn = true) :
    (s.needTime c t i >>= f) = f () := by
  rw [State.needTime_ok h]; rfl

section
variable {p : Plane} (hp : s.route.shadow = some p) (he : p.epoch = bits (c.word 0) 63 32)
  (hq : ∀ q, s.route.active = some q → q.epoch < p.epoch)
include hp he

theorem State.shadow_wanted : (s.route.shadow.any fun p => p.epoch == bits (c.word 0) 63 32) = true := by
  rw [hp, Option.any_some, he]
  exact beq_self_eq_true _

include hq

theorem State.swap_allowed : ((s.route.shadow.any fun p => p.epoch == bits (c.word 0) 63 32)
    && s.route.active.all fun p => decide (p.epoch < bits (c.word 0) 63 32)) = true := by
  rw [State.shadow_wanted hp he, Bool.true_and, Option.all_eq_true]
  exact fun q h => decide_eq_true (he ▸ hq q h)

/-- When ROUTE_SWAP swaps. -/
def Cmd.swapTime (c : Cmd) : Nat := if c.expert = true then c.word 1 else 0

theorem bodyRouteSwap_now (hc : (c.expert && bitAt (c.word 0) 0) = false) (ht : c.swapTime = 0)
    (hn : s.route.pendingSwap = none) : bodyRouteSwap s c = .ok (s.swapPlanes (some c)) := by
  refine (if_neg (by rw [hc]; decide)).trans ((State.needTime_bind (.inl ht)).trans ((need_bind (by rw [hn]; rfl)).trans
    ((need_bind (State.swap_allowed hp he hq)).trans ?_)))
  exact if_pos ht

theorem bodyRouteSwap_later (hc : (c.expert && bitAt (c.word 0) 0) = false) (ht : c.swapTime ≠ 0) (hon : s.timeOn = true)
    (hlate : s.now ≤ c.swapTime) (hn : s.route.pendingSwap = none) : bodyRouteSwap s c
      = .ok ((s.started c).modRoute fun r => { r with pendingSwap := some (c.serial, c.swapTime) }) := by
  refine (if_neg (by rw [hc]; decide)).trans ((State.needTime_bind (.inr hon)).trans ((need_bind (by rw [hn]; rfl)).trans
    ((need_bind (State.swap_allowed hp he hq)).trans ?_)))
  exact (if_neg ht).trans (need_bind (decide_eq_true hlate))

end

/-- Withdraw what was armed for a command, and end that command. -/
def State.unarmSwap (s : State) (j : Nat) (c : Cmd) : State :=
  let t := s.modRoute fun r => { r with pendingSwap := none }
  match t.cmd j with
  | some x => t.abort x 0x0303 0 (some c)
  | none => t

theorem bodyRouteSwap_cancel {p : Plane} {j t : Nat} (hp : s.route.shadow = some p) (he : p.epoch = bits (c.word 0) 63 32)
    (hc : (c.expert && bitAt (c.word 0) 0) = true) (hj : s.route.pendingSwap = some (j, t)) :
    bodyRouteSwap s c = .ok ((s.unarmSwap j c).finish c []) := by
  unfold bodyRouteSwap
  dsimp only
  rw [if_pos hc, hj]
  exact need_bind (State.shadow_wanted hp he)

/-! ### ROUTE_LOAD (R333, R334) -/

/-- Whether a load merges its entries into the active plane. -/
def Cmd.merges (c : Cmd) : Bool := c.expert && bitAt (c.word 2) 32

def State.planeBytes (s : State) (c : Cmd) : List Byte := s.readMem (c.word 0) (bits (c.word 1) 31 0)

/-- The plane that a ROUTE_LOAD names. -/
def State.planeRead (s : State) (c : Cmd) : Plane :=
  let first := if c.merges = true then bits (c.word 2) 31 16 else 0
  let data := s.planeBytes c
  let given := (List.range (field data 4 2)).map fun i => (first + i, parseEntry (field data (128 + 4 * i) 4))
  let base := if c.merges = true then (s.route.active.map (·.entries)).getD [] else []
  { epoch := field data 12 4, selfId := field data 6 2, accept := (List.range 48).map fun i => field data (16 + 2 * i) 2
    entries := if c.merges = true then given.foldl (fun t e => tset t e.1 e.2) base else given }

/-- The bytes of a plane have its magic, its length and as many entries as they say. -/
def State.planeSized (s : State) (c : Cmd) : Prop :=
  let data := s.planeBytes c
  let n := bits (c.word 1) 31 0
  128 ≤ n ∧ field data 0 4 = 0x45545552 ∧ field data 8 4 = n ∧ n = 128 + 4 * field data 4 2
    ∧ (c.merges = true ∨ field data 4 2 = routeDevices)

theorem State.planeSized_check (h : s.planeSized c) : let data := s.planeBytes c
    (decide (128 ≤ bits (c.word 1) 31 0) && field data 0 4 == 0x45545552 && field data 8 4 == bits (c.word 1) 31 0
      && bits (c.word 1) 31 0 == 128 + 4 * field data 4 2 && (c.merges || field data 4 2 == routeDevices)) = true := by
  obtain ⟨h128, hmagic, hlen, hn, hcount⟩ := h
  simp only [Bool.and_eq_true, Bool.or_eq_true, decide_eq_true_eq, beq_iff_eq]
  exact ⟨⟨⟨⟨h128, hmagic⟩, hlen⟩, hn⟩, hcount⟩

theorem bodyRouteLoad_ok (ha : c.word 0 % 64 = 0) (hr : s.badRange c.port c.fn (c.word 0) (bits (c.word 1) 31 0) = none)
    (hb : s.badRead (c.word 0) (bits (c.word 1) 31 0) = none) (hsize : s.planeSized c)
    (hdig : field (s.planeBytes c) 112 16
      = digest128 ((s.planeBytes c).take 112 ++ List.replicate 16 0 ++ (s.planeBytes c).drop 128))
    (hok : (s.planeRead c).ok = true) (hep : ∀ q, s.route.active = some q → q.epoch < (s.planeRead c).epoch)
    (hn : s.route.pendingSwap = none) :
    bodyRouteLoad s c = .ok ((s.modRoute fun r => { r with shadow := some (s.planeRead c) }).finish c
      (pack [(4, (s.planeRead c).epoch), (4, 0), (16, (s.planeRead c).digest)])) := by
  have hep' : (match s.route.active with
      | some q => decide (q.epoch < (s.planeRead c).epoch)
      | none => true) = true := by
    split
    next q hq => exact decide_eq_true (hep q hq)
    · rfl
  unfold bodyRouteLoad
  dsimp only
  rw [State.checkAddr_ok ha hr, hb]
  exact (need_bind (State.planeSized_check hsize)).trans ((need_bind (beq_iff_eq.2 hdig)).trans ((need_bind hok).trans
    ((need_bind hep').trans (need_bind (by rw [hn]; rfl)))))

theorem State.cmd_none_finish {t : State} (l : List Byte) (d low : Nat) (h : t.cmd id = none) :
    (t.finish c l d low).cmd id = none := by
  unfold State.finish
  split
  · exact State.cmd_none_complete c _ _ _ h
  · exact State.cmd_none_complete c _ _ _ (State.cmd_none_of_cmds (State.cmds_of_quiet (State.quiet_recordNotes ..)) h)

theorem State.unarmSwap_spec (s : State) (j : Nat) (c : Cmd) :
    (s.unarmSwap j c).route = { s.route with pendingSwap := none } ∧ (s.unarmSwap j c).cmd j = none := by
  unfold State.unarmSwap
  dsimp only
  split
  next x hx =>
    refine ⟨State.abort_route .., ?_⟩
    rw [← State.cmd_serial hx]
    exact State.complete_cmd_self ..
  next hx => exact ⟨rfl, hx⟩

end Sys2Proof.Machine

open Sys2Proof Sys2Proof.Machine

/-- Settles O29: each role of LINK_JOIN, ACCEPT_WIRING and both forms of LINK_STATUS pass their checks. -/
theorem joinsGrantsAndWiring : Obligations.JoinsGrantsAndWiring := by
  intro id c s
  refine ⟨fun hd hf => ?_, fun hd => ?_, fun hd => ⟨fun hx ht => ?_, fun hx ht => ?_⟩⟩
  · intro role l a window train
    refine ⟨fun hr hport hlo hhi hg => ?_, fun hr hport => ?_, fun hr ha hlo hhi ho hj hp hcodes hlist => ?_⟩
    · refine ⟨_, s.grantFor c, congrArg Host.Outcome.next (State.startCmd_ok hd
        ((bodyLinkJoin_grant hf hr hport rfl).trans (State.openGrant_ok hlo hhi hg))),
        State.finish_cmd_of_due hd .., ?_, rfl, rfl⟩
      rw [State.link_of_links (State.finish_links ..), State.modLink_self]
    · exact congrArg Host.Outcome.next (State.startCmd_ok hd (bodyLinkJoin_withdraw hf hr hport))
    · have hbody := (bodyLinkJoin_join hf hr ha).trans (State.openJoin_ok hlo hhi ho hj (fun h => hp (beq_iff_eq.1 h))
        (fun h => hcodes (hr.resolve_right (beq_eq_false_iff_ne.1 h))) hlist)
      refine ⟨_, s.joinFor c (role == 3), congrArg Host.Outcome.next (State.startCmd_ok hd hbody), ?_, rfl, rfl, rfl, rfl,
        fun hfresh => ?_⟩
      · rw [State.modAxis_self]
      · rw [State.modAxis_self, hfresh]; rfl
  · intro a ha ho hw
    exact congrArg Host.Outcome.next (State.startCmd_ok hd (bodyAcceptWiring_ok ha ho hw))
  · exact congrArg Host.Outcome.next (State.startCmd_ok hd (bodyLinkStatus_basic hx ht))
  · exact congrArg Host.Outcome.next (State.startCmd_ok hd (bodyLinkStatus_expert hx ht))

/-- Settles O30: a swap exchanges the planes whoever asks for it; a load that passes its checks sets the shadow. -/
theorem planesAreLoadedAndSwapped : Obligations.PlanesAreLoadedAndSwapped := by
  refine ⟨?_, ?_⟩
  · intro id c s swapped
    refine ⟨fun p hd hp he hq => ?_, fun p at_ hsw hon hat hid hp => ?_, fun hold hat => ?_⟩
    · intro at_ cancel
      refine ⟨fun hc ht hn => ?_, fun hc ht hon hlate hn => ?_, fun j at' hc hj hne => ?_⟩
      · obtain ⟨hroute, hcmd⟩ := State.swapPlanes_spec hp c
        rw [State.cmd_serial hd.1] at hcmd
        refine ⟨_, congrArg Host.Outcome.next (State.startCmd_ok hd (bodyRouteSwap_now hp he hq hc ht hn)), ?_⟩
        dsimp only [swapped]
        rw [hroute]
        exact ⟨rfl, rfl, rfl, rfl, rfl, hcmd⟩
      · refine ⟨_, congrArg Host.Outcome.next (State.startCmd_ok hd (bodyRouteSwap_later hp he hq hc ht hon hlate hn)), ?_⟩
        rw [State.cmd_serial hd.1]; rfl
      · obtain ⟨hroute, hcmd⟩ := s.unarmSwap_spec j c
        exact ⟨_, congrArg Host.Outcome.next (State.startCmd_ok hd (bodyRouteSwap_cancel hp he hc hj)),
          (State.finish_route ..).trans hroute, State.cmd_none_finish _ _ _ hcmd, State.finish_cmd_of_due hd ..⟩
    · obtain ⟨hroute, hcmd⟩ := State.swapPlanes_spec hp c
      rw [State.cmd_serial hid] at hcmd
      refine ⟨s.swapPlanes (some c), ?_, ?_⟩
      · change execRouteSwapTakeEffect s = _
        unfold execRouteSwapTakeEffect
        rw [hsw]
        dsimp only
        rw [if_neg (by simp [hon, hat]), hid]
      · dsimp only [swapped]
        rw [hroute]
        exact ⟨rfl, rfl, rfl, rfl, rfl, hcmd⟩
    · exact if_pos (by rw [hold, decide_eq_true hat]; rfl)
  · intro id c s hd hold hn a n merge first data count given base p ha hr hb h128 hmagic hlen hsize hcount hdig hok hep
    have hbody := bodyRouteLoad_ok ha hr hb ⟨h128, hmagic, hlen, hsize, hcount⟩ hdig hok hep hn
    refine ⟨_, (if_neg ?_).trans (congrArg Host.Outcome.next (State.startCmd_ok hd hbody)), State.finish_route ..,
      State.finish_cmd_of_due hd ..⟩
    rw [State.oldServes, hold]
    exact Bool.false_ne_true
end

section
/-! SUPPORT. What ending the work of a pavilion leaves of pavilions, fences, waiting messages and commands. -/

namespace Sys2Proof.Machine

/-- A pavilion without its run, its tensors and all else that the end of its work may change. -/
def Pav.lease (v : Pav) : Pav :=
  { v with
    parked := false, parking := false, arriving := [], parkedAt := 0, run := none, data := [], allocs := [], stepSeq := 0
    sealing := none, norms := [], reshape := {}, barrier := none, twin := {}, colls := [], held := [], samples := [],
        traps := {} }

/-- The pavilions, as far as they stand through the end of work: what they hold, and whether they are stopped or fenced. -/
def State.leases (s : State) (p : Nat) : Option Pav := (s.pav p).map Pav.lease

/-- How a state follows another when work ends: pavilions and fences stand, a fence is not crossed, nothing is armed and no
command comes. -/
structure State.Ends (s t : State) : Prop where
  leases : t.leases = s.leases
  fences : t.route.fences = s.route.fences
  clear : ∀ l part, s.route.fences.contains part = true → (∀ w ∈ (s.link l).queue, w.partition ≠ part) →
    ∀ w ∈ (t.link l).queue, w.partition ≠ part
  armed : ∀ x ∈ t.route.pendingFences, x ∈ s.route.pendingFences
  gone : ∀ id, s.cmd id = none → t.cmd id = none

section
variable {s t u : State}

theorem State.Ends.refl (s : State) : s.Ends s := ⟨rfl, rfl, fun _ _ _ h => h, fun _ h => h, fun _ h => h⟩

theorem State.Ends.trans (h : s.Ends t) (h' : t.Ends u) : s.Ends u where
  leases := h'.leases.trans h.leases
  fences := h'.fences.trans h.fences
  clear l part hf hq := h'.clear l part (h.fences ▸ hf) (h.clear l part hf hq)
  armed x hx := h.armed x (h'.armed x hx)
  gone id hid := h'.gone id (h.gone id hid)

theorem State.leases_of_pavs (h : t.pavs = s.pavs) : t.leases = s.leases := by
  funext p
  rw [State.leases, State.leases, State.pav, State.pav, h]

theorem State.leases_of_pavsKept (h : t.pavsKept = s.pavsKept) : t.leases = s.leases := by
  have hmap : ∀ u : State, ∀ p, u.leases p = (u.pavsKept p).map Pav.lease := fun u p => by
    rw [State.leases, State.pavsKept, Option.map_map]; rfl
  funext p
  rw [hmap, hmap, h]

/-- Links, routes and the outstanding commands stand. -/
theorem State.Ends.of_leases (hp : t.leases = s.leases) (hl : t.links = s.links) (hr : t.route = s.route)
    (hc : ∀ id, s.cmd id = none → t.cmd id = none) : s.Ends t where
  leases := hp
  fences := by rw [hr]
  clear l part _ hq := by rw [State.link_of_links hl]; exact hq
  armed x hx := hr ▸ hx
  gone := hc

theorem State.Ends.of_quiet (h : t.quiet = s.quiet) : s.Ends t :=
  .of_leases (State.leases_of_pavs (State.pavs_of_quiet h)) (State.links_of_still (State.still_of_quiet h))
    (State.route_of_still (State.still_of_quiet h)) fun _ => State.cmd_none_of_cmds (State.cmds_of_quiet h)

theorem State.Ends.forEach {α : Type} {f : State → α → State} (h : ∀ (s : State) a, s.Ends (f s a)) (l : List α) (s : State) :
    s.Ends (Machine.forEach l f s) :=
  forEach_inv (P := fun t => s.Ends t) (fun t a ht => ht.trans (h t a)) l s (.refl s)

end

section
variable (s : State)

/-! ### Pavilions and commands -/

theorem State.leases_modPav (p : Nat) {f : Pav → Pav} (h : ∀ v, (f v).lease = v.lease) :
    (s.modPav p f).leases = s.leases := by
  funext j
  by_cases hj : j = p
  · subst hj
    simp only [State.leases, State.modPav_self, Option.map_map]
    cases s.pav j with
    | none => rfl
    | some v => exact congrArg some (h v)
  · simp only [State.leases, State.modPav_ne _ _ hj]

/-- A change of what a pavilion loses with its work. -/
theorem State.modPav_ends (p : Nat) {f : Pav → Pav} (h : ∀ v, (f v).lease = v.lease) : s.Ends (s.modPav p f) :=
  .of_leases (s.leases_modPav p h) rfl rfl fun _ h => h

theorem State.freeMem_ends (p a : Nat) : s.Ends (s.freeMem p a) := s.modPav_ends p fun _ => rfl
theorem State.modRun_ends (p : Nat) (f : Run → Run) : s.Ends (s.modRun p f) := s.modPav_ends p fun _ => rfl
theorem State.bumpFree_ends : s.Ends s.bumpFree := .of_leases rfl rfl rfl fun _ h => h
theorem State.modLedger_ends (f : Ledger → Ledger) : s.Ends (s.modLedger f) := .of_leases rfl rfl rfl fun _ h => h
theorem State.count_ends (k n : Nat) : s.Ends (s.count k n) := .of_quiet rfl
theorem State.writeMem_ends (a : Nat) (l : List Byte) : s.Ends (s.writeMem a l) := .of_quiet (s.quiet_writeMem a l)
theorem State.postPav_ends (p code sev place : Nat) (d : List Byte) : s.Ends (s.postPav p code sev place d) :=
  .of_quiet (s.quiet_postPav p code sev place d)

theorem State.complete_ends (c : Cmd) (st d : Nat) (l : List Byte) : s.Ends (s.complete c st d l) :=
  .of_leases (State.leases_of_pavsKept (s.pavsKept_complete c st d l)) (s.complete_links c st d l) (s.complete_route c st d l)
    fun _ h => State.cmd_none_complete c st d l h
theorem State.abort_ends (c : Cmd) (st target : Nat) (x : Option Cmd) :
    s.Ends (s.abort c st target x) := s.complete_ends ..
theorem State.finish_ends (c : Cmd) (l : List Byte) (d low : Nat) : s.Ends (s.finish c l d low) :=
  .of_leases (State.leases_of_pavsKept (s.pavsKept_finish c l d low)) (s.finish_links c l d low) (s.finish_route c l d low)
    fun _ h => State.cmd_none_finish l d low h

theorem State.forCmds_ends (f : Cmd → Bool) {g : State → Cmd → State} (h : ∀ (s : State) c, s.Ends (g s c)) :
    s.Ends (s.forCmds f g) := by
  refine .forEach (fun t id => ?_) _ s
  split
  · exact h ..
  · exact .refl t
theorem State.abortAll_ends (f : Cmd → Bool) (st target : Nat) (x : Option Cmd) :
    s.Ends (s.abortAll f st target x) :=
  s.forCmds_ends f fun (s : State) c => s.abort_ends c st target x

/-! ### The end of a step before its seal -/

theorem State.unseal_ends (p : Nat) : s.Ends (s.unseal p) := by
  unfold State.unseal
  extract_lets kept s₁ fresh s₂ s₃
  have h₁ : s.Ends s₁ := .forEach (fun t n => by
    dsimp only
    split
    · exact t.modLedger_ends _
    · exact .refl t) _ s
  have h₂ : s₁.Ends s₂ := .forEach (fun t e => t.freeMem_ends p _) _ s₁
  have h₃ : s.Ends s₃ := h₁.trans (h₂.trans (s₂.modLedger_ends _))
  split
  · exact h₃
  · exact h₃.trans (s₃.modPav_ends p fun _ => rfl)

theorem State.putCode_ends (p hd : Nat) (h : Handle) (i sl : Nat) (c : Coord) (code : Nat) :
    s.Ends (s.putCode p hd h i sl c code) := by
  unfold State.putCode
  split
  · exact .refl s
  split
  · split <;> exact s.writeMem_ends ..
  · exact s.modPav_ends p fun _ => rfl
  · exact .refl s

theorem State.spoilTile_ends (p hd : Nat) (h : Handle) (i : Nat) (t : TileRef) :
    s.Ends (s.spoilTile p hd h i t) := by
  unfold State.spoilTile
  extract_lets g
  refine .forEach (fun s a => ?_) _ s
  have hrow : ∀ l : List Nat, s.Ends (forEach l (fun s b => s.spoilCode p hd h i t.slice (g.tileCoord i t a b)) s) :=
    fun l => .forEach (fun s b => s.putCode_ends ..) l s
  dsimp only
  split
  · exact hrow _
  · exact (hrow _).trans (.forEach (fun s b => s.putCode_ends ..) _ _)

theorem State.spoilRun_ends (p : Nat) : s.Ends (s.spoilRun p) := by
  unfold State.spoilRun
  split
  · exact .refl s
  · exact .forEach (fun s e => s.spoilTile_ends ..) _ s

theorem State.recordNan_ends (p : Nat) (x : TrapInfo) : s.Ends (s.recordNan p x).1 := by
  have hput : ∀ (iter step pid : Nat) (on first : Bool), s.Ends (s.putTrap p x iter step pid on first).1 :=
    fun iter step pid on first => by
      unfold State.putTrap
      split
      · exact .refl s
      · next v _ =>
        dsimp only
        have hp : ∀ l, s.Ends ((s.modPav p fun v => { v with traps := l }).count (ctrId p 8 0) 1) := fun l =>
          (s.modPav_ends p (f := fun v => { v with traps := l }) fun _ => rfl).trans (State.count_ends ..)
        split
        · exact (hp _).trans (State.count_ends ..)
        · exact hp _
  unfold State.recordNan
  split
  · exact .refl s
  · exact (hput ..).trans (State.modRun_ends ..)

/-! ### Messages of a pavilion's units (R336, R337, R353) -/

/-- Serving leaves in a queue what was there, some of it in part. -/
theorem Link.serve_partition {k : Link} {i n : Nat} {w : Waiting} (hw : k.queue[i]? = some w) {P : Nat → Prop}
    (h : ∀ x ∈ k.queue, P x.partition) : ∀ x ∈ (k.serve i n w).queue, P x.partition := by
  intro x hx
  change x ∈ (if w.left ≤ n then k.queue.eraseIdx i else k.queue.set i { w with left := w.left - n }) at hx
  split at hx
  · exact h x (List.mem_of_mem_eraseIdx hx)
  · rcases List.mem_or_eq_of_mem_set hx with hx | rfl
    · exact h x hx
    · exact h w (List.mem_of_getElem? hw)

theorem State.serveLink_partition {P : Nat → Prop} (l fuel j : Nat) (h : ∀ x ∈ (s.link j).queue, P x.partition) :
    ∀ x ∈ ((s.serveLink l fuel).link j).queue, P x.partition := by
  induction fuel generalizing s with
  | zero => exact h
  | succ fuel ih =>
    rw [State.serveLink]
    dsimp only
    split
    · exact h
    next i w hi =>
    split
    · exact h
    refine ih _ ?_
    have hlink : ∀ t : State, (if w.left ≤ min packetFlits (max 1 w.left) then
        ((w.counts.map fun c => t.count c.1 c.2).getD t).emit w.what else t).link j = t.link j := fun t => by
      rw [apply_ite (fun t : State => t.link j)]
      cases w.counts <;> exact ite_self _
    rw [hlink, State.count_link]
    by_cases hj : j = l
    · subst hj
      rw [State.modLink_self]
      obtain ⟨i', _, hw⟩ := Option.bind_eq_some_iff.1 hi
      obtain ⟨w', hw', he⟩ := Option.map_eq_some_iff.1 hw
      cases he
      exact Link.serve_partition hw' h
    · rw [State.modLink_ne _ _ hj]
      exact h

theorem State.flushLink_partition {P : Nat → Prop} (l j : Nat) (h : ∀ x ∈ (s.link j).queue, P x.partition) :
    ∀ x ∈ ((s.flushLink l).link j).queue, P x.partition := by
  unfold State.flushLink
  dsimp only
  split
  · exact h
  · exact s.serveLink_partition l _ j h

theorem State.queueFor_partition {P : Nat → Prop} (l : Nat) (w : Waiting) (hw : P w.partition) (j : Nat)
    (h : ∀ x ∈ (s.link j).queue, P x.partition) : ∀ x ∈ ((s.queueFor l w).link j).queue, P x.partition := by
  unfold State.queueFor
  refine State.flushLink_partition _ l j ?_
  by_cases hj : j = l
  · subst hj
    intro x hx
    rw [State.modLink_self] at hx
    rcases List.mem_append.1 hx with hx | hx
    · exact h x hx
    · rw [List.mem_singleton.1 hx]; exact hw
  · rw [State.modLink_ne _ _ hj]
    exact h

theorem State.queueFor_ends (l : Nat) (w : Waiting) (hw : s.route.fences.contains w.partition = false) :
    s.Ends (s.queueFor l w) := by
  have hr : (s.queueFor l w).route = s.route := (congrArg State.route (s.offLinks_queueFor l w) :)
  exact {
    leases := State.leases_of_pavs (congrArg State.pavs (s.offLinks_queueFor l w) :)
    fences := by rw [hr]
    clear := fun j part hf hq => s.queueFor_partition (P := (· ≠ part)) l w
      (fun he => Bool.false_ne_true (hw.symm.trans (he ▸ hf))) j hq
    armed := fun x hx => hr ▸ hx
    gone := fun _ => State.cmd_none_of_cmds (congrArg State.cmds (s.offLinks_queueFor l w) :) }

theorem State.trySend_ends (p dest bytes t : Nat) (e : Emission) : s.Ends (s.trySend p dest bytes t e) := by
  unfold State.trySend
  split
  case h_2 => exact .refl s
  split
  · exact .refl s
  split
  · exact .of_quiet rfl
  split
  · exact .refl s
  dsimp only
  split
  · exact .of_quiet rfl
  next hf => exact s.queueFor_ends _ _ (Bool.eq_false_iff.2 hf)

theorem State.endColl_ends (p op cause peer : Nat) : s.Ends (s.endColl p op cause peer) := by
  unfold State.endColl
  split
  · exact .refl s
  next v _ =>
  extract_lets own s₁ s₂ s₃
  have h₁ : s.Ends s₁ := by
    unfold s₁
    split
    · exact .refl s
    · exact .forEach (fun s x => s.trySend_ends ..) _ s
  have h₂ : s₁.Ends s₂ := s₁.modPav_ends p fun _ => rfl
  exact h₁.trans (h₂.trans ((s₂.count_ends ..).trans (s₃.postPav_ends ..)))

/-! ### Runs that end, and pavilions that park -/

theorem State.dropUnstarted_ends (p : Nat) : s.Ends (s.dropUnstarted p) := by
  refine .forEach (fun s q => ?_) _ s
  split
  · exact .refl s
  · exact s.abortAll_ends ..

theorem State.parkIfDue_ends (p : Nat) : s.Ends (s.parkIfDue p) := by
  unfold State.parkIfDue
  split
  · exact .refl s
  next v _ =>
  split
  · exact .refl s
  extract_lets q s₁ s₂ s₃
  have h₁ : s.Ends s₁ := s.dropUnstarted_ends p
  have h₂ : s₁.Ends s₂ := by
    unfold s₂
    split
    · exact s₁.abort_ends ..
    · exact .refl s₁
  have h₃ : s₂.Ends s₃ := s₂.modPav_ends p fun _ => rfl
  exact h₁.trans (h₂.trans (h₃.trans (.of_quiet (s₃.quiet_postTo ..))))

theorem State.endRun_ends (p st d : Nat) (result : Option (List Byte)) (cause : Nat) :
    s.Ends (s.endRun p st d result cause) := by
  unfold State.endRun
  split
  · exact .refl s
  next v r₀ h _ =>
  extract_lets held res good s₁ r s₂ s₃ s₄ s₅ s₆ s₇ s₈
  have h₁ : s.Ends s₁ := .forEach (fun s x => s.recordNan_ends ..) _ s
  have h₂ : s₁.Ends s₂ := by
    unfold s₂
    split
    · exact .refl s₁
    · exact s₁.bumpFree_ends.trans (s₁.bumpFree.spoilRun_ends p)
  have h₃ : s₂.Ends s₃ := .forEach (fun s c => s.endColl_ends ..) _ s₂
  have h₄ : s₃.Ends s₄ := by
    unfold s₄
    split
    · exact .refl s₃
    · exact s₃.unseal_ends p
  have h₅ : s₄.Ends s₅ := .of_leases rfl rfl rfl fun _ h => h
  have h₆ : s₅.Ends s₆ := s₅.modPav_ends p fun _ => rfl
  have h₇ : s₆.Ends s₇ := .forEach (fun s c => s.finish_ends ..) _ s₆
  have h₈ : s₇.Ends s₈ := by
    unfold s₈
    split
    · exact .refl s₇
    · split
      · exact s₇.finish_ends ..
      · exact s₇.complete_ends ..
  exact h₁.trans (h₂.trans (h₃.trans (h₄.trans (h₅.trans (h₆.trans (h₇.trans (h₈.trans
    ((s₈.dropUnstarted_ends p).trans (State.parkIfDue_ends _ p)))))))))

theorem State.abortRun_ends (p st target : Nat) (x : Option Cmd) : s.Ends (s.abortRun p st target x) := by
  unfold State.abortRun
  split
  · exact .refl s
  · exact s.endRun_ends ..

/-! ### Commands that are cut off -/

theorem State.dropJob_ends (c : Cmd) : s.Ends (s.dropJob c) := by
  unfold State.dropJob
  split
  · exact .refl s
  next j _ =>
  have h : s.Ends (s.spoilDests c.port j) := by
    refine .forEach (fun s d => .forEach (fun s r => ?_) _ s) _ s
    dsimp only
    split
    · split <;> exact .of_leases rfl rfl rfl fun _ h => h
    · exact s.bumpFree_ends.trans (s.bumpFree.writeMem_ends ..)
  exact h.trans (.of_leases rfl rfl rfl fun _ h => h)

theorem State.dropShard_ends (n : Nat) : s.Ends (s.dropShard n) := by
  unfold State.dropShard
  dsimp only
  split
  · exact .refl s
  · exact (s.freeMem_ends ..).trans ((State.freeMem_ends ..).trans (State.modLedger_ends ..))

/-- What a command has armed is withdrawn with it. -/
theorem State.Ends.of_withdrawn {s t : State} (hp : t.leases = s.leases) (hl : t.links = s.links) (hc : t.cmds = s.cmds)
    (hf : t.route.fences = s.route.fences) {f : PendingFence → Bool}
    (hpf : t.route.pendingFences = s.route.pendingFences.filter f) : s.Ends t where
  leases := hp
  fences := hf
  clear l part _ hq := by rw [State.link_of_links hl]; exact hq
  armed x hx := by rw [hpf] at hx; exact List.mem_of_mem_filter hx
  gone _ := State.cmd_none_of_cmds hc

theorem State.disarm_ends (c : Cmd) : s.Ends (s.disarm c) := by
  unfold State.disarm
  extract_lets p id s₁ s₂
  have h₂ : s.Ends s₂ := (s.dropJob_ends c).trans (.of_withdrawn rfl rfl rfl rfl rfl)
  split
  · exact h₂
  next v _ =>
  extract_lets s₃ s₄
  have h₃ : s₂.Ends s₃ := by
    unfold s₃
    split
    · exact .refl s₂
    · exact .trans (.forEach (fun s n => s.dropShard_ends n) _ s₂) (State.modPav_ends _ p fun _ => rfl)
  have h₄ : s₃.Ends s₄ := by
    unfold s₄
    split
    · exact s₃.unseal_ends p
    · exact .refl s₃
  exact h₂.trans (h₃.trans (h₄.trans (s₄.modPav_ends p fun _ => rfl)))

theorem State.cutOff_ends (c : Cmd) (st target : Nat) (x : Option Cmd) : s.Ends (s.cutOff c st target x) := by
  unfold State.cutOff
  split
  · exact s.abortRun_ends ..
  · exact (s.disarm_ends c).trans (State.abort_ends ..)

theorem State.stopPav_ends (p st target : Nat) (x : Option Cmd) (spare : Cmd → Bool) :
    s.Ends (s.stopPav p st target x spare) := by
  unfold State.stopPav
  extract_lets s₁ s₂ s₃
  have h₁ : s.Ends s₁ := s.forCmds_ends _ fun (s : State) c => s.abort_ends ..
  have h₂ : s₁.Ends s₂ := s₁.abortRun_ends ..
  have h₃ : s₂.Ends s₃ := by
    unfold s₃
    split
    · exact s₂.unseal_ends p
    · exact .refl s₂
  exact h₁.trans (h₂.trans (h₃.trans (s₃.forCmds_ends _ fun (s : State) c => s.cutOff_ends ..)))

end
end Sys2Proof.Machine
end

section
/-! PROOFS. Fences (R337). -/

namespace Sys2Proof.Machine

/-! ### What is armed, and who is outstanding -/

/-- Nothing more is armed, and no command comes. -/
structure State.Narrows (s t : State) : Prop where
  armed : ∀ x ∈ t.route.pendingFences, x ∈ s.route.pendingFences
  gone : ∀ id, s.cmd id = none → t.cmd id = none

theorem State.Narrows.refl (s : State) : s.Narrows s := ⟨fun _ h => h, fun _ h => h⟩
theorem State.Narrows.trans {s t u : State} (h : s.Narrows t) (h' : t.Narrows u) : s.Narrows u :=
  ⟨fun x hx => h.armed x (h'.armed x hx), fun id hid => h'.gone id (h.gone id hid)⟩
theorem State.Ends.narrows {s t : State} (h : s.Ends t) : s.Narrows t := ⟨h.armed, h.gone⟩
theorem State.Narrows.forEach {α : Type} {f : State → α → State} (h : ∀ (s : State) a, s.Narrows (f s a))
    (l : List α) (s : State) :
    s.Narrows (Machine.forEach l f s) :=
  forEach_inv (P := fun t => s.Narrows t) (fun t a ht => ht.trans (h t a)) l s (.refl s)

/-! ### A fence, step by step -/

/-- The pavilions of a partition. -/
def State.pavsIn (s : State) (part : Nat) : List Nat := (s.pavs.filter fun v => v.2.partition == part).map (·.1)

/-- The packets of a partition that wait for a link are discarded. -/
def State.clearQueue (s : State) (part l : Nat) : State :=
  let n : Nat := ((s.link l).queue.filter fun w => w.partition == part).length
  if n = 0 then s
  else (s.modLink l fun k => { k with queue := k.queue.filter fun w => w.partition != part }).count (ctrId (placeLink l) 7 5) n

/-- A pavilion is fenced, and its work ends. -/
def State.fencePav (s : State) (cause : Option Cmd) (p : Nat) : State :=
  (s.modPav p fun v => { v with fenced := true }).stopPav p 0x0302 (pavTarget p) cause
    fun c => cause.any fun x => x.serial == c.serial

def State.liftPav (s : State) (p : Nat) : State := s.modPav p fun v => { v with fenced := false }

/-- The partition's event is posted, the fence stands, and no packet of it waits. -/
def State.raiseFence (s : State) (part : Nat) : State :=
  forEach (List.range 6) (fun s l => s.clearQueue part l)
    ((s.postModule 0x0502 1 0xFFFF (pack [(2, part), (1, b2n true)])).modRoute
      fun r => { r with fences := addNew r.fences part })

def State.dropFence (s : State) (part : Nat) : State :=
  (s.postModule 0x0502 1 0xFFFF (pack [(2, part), (1, b2n false)])).modRoute
    fun r => { r with fences := r.fences.filter (· != part) }

section
variable (s : State) (part : Nat) (noStop : Bool) (cause : Option Cmd)

theorem State.pavsIn_postModule (code sev place : Nat) (d : List Byte) :
    (s.postModule code sev place d).pavsIn part = s.pavsIn part := by
  rw [State.pavsIn, State.postModule_pavs]; rfl

theorem State.fence_lift :
    s.fence part true noStop cause = forEach (s.pavsIn part) State.liftPav (s.dropFence part) := by
  rw [← s.pavsIn_postModule part 0x0502 1 0xFFFF (pack [(2, part), (1, b2n false)])]
  rfl

theorem State.fence_spared : s.fence part false true cause = s.raiseFence part := rfl

theorem State.fence_stop : s.fence part false false cause
    = forEach (s.pavsIn part) (fun s p => s.fencePav cause p) (s.raiseFence part) := by
  rw [← s.pavsIn_postModule part 0x0502 1 0xFFFF (pack [(2, part), (1, b2n true)])]
  rfl

/-! ### The fences -/

theorem State.clearQueue_route (l : Nat) : (s.clearQueue part l).route = s.route := by
  unfold State.clearQueue
  dsimp only
  split <;> rfl

theorem State.raiseFence_route :
    (s.raiseFence part).route = { s.route with fences := addNew s.route.fences part } := by
  rw [State.raiseFence, forEach_keep (g := State.route) fun s l => s.clearQueue_route part l]
  exact congrArg (fun r : RouteSt => { r with fences := addNew r.fences part }) (s.postModule_route ..)

theorem State.dropFence_route :
    (s.dropFence part).route = { s.route with fences := s.route.fences.filter (· != part) } :=
  congrArg (fun r : RouteSt => { r with fences := r.fences.filter (· != part) }) (s.postModule_route ..)

theorem State.fencePav_fences (p : Nat) : (s.fencePav cause p).route.fences = s.route.fences :=
  (State.stopPav_ends ..).fences

theorem State.fence_fences (lift : Bool) : (s.fence part lift noStop cause).route.fences
    = if lift = true then s.route.fences.filter (· != part) else addNew s.route.fences part := by
  cases lift with
  | true =>
    rw [State.fence_lift, forEach_keep (g := fun s : State => s.route.fences) (f := State.liftPav) fun _ _ => rfl,
      State.dropFence_route]
    rfl
  | false =>
    have hraise : (s.raiseFence part).route.fences = addNew s.route.fences part := by rw [State.raiseFence_route]
    cases noStop with
    | true => rw [State.fence_spared]; exact hraise
    | false =>
      rw [State.fence_stop]
      exact (forEach_keep (g := fun s : State => s.route.fences) (fun s p => s.fencePav_fences cause p) _ _).trans hraise

theorem addNew_contains_ne {l : List Nat} {x y : Nat} (h : y ≠ x) : (addNew l x).contains y = l.contains y := by
  unfold addNew
  split
  · rfl
  · simp [h]

theorem filter_ne_contains_ne {l : List Nat} {x y : Nat} (h : y ≠ x) :
    (l.filter (· != x)).contains y = l.contains y := by
  simp [List.contains_eq_mem, List.mem_filter, h]

/-! ### The pavilions of the partition -/

theorem State.fencePav_leases (p : Nat) :
    (s.fencePav cause p).leases = (s.modPav p fun v => { v with fenced := true }).leases :=
  (State.stopPav_ends ..).leases

/-- Marking pavilions one after another marks those of the list. -/
theorem forEach_leases {b : Bool} {f : State → Nat → State}
    (hf : ∀ (s : State) p, (f s p).leases = (s.modPav p fun v => { v with fenced := b }).leases) (l : List Nat) (s : State)
    (p : Nat) :
    (forEach l f s).leases p = if p ∈ l then (s.leases p).map fun v => { v with fenced := b } else s.leases p := by
  induction l generalizing s with
  | nil => rfl
  | cons q l ih =>
    have hq : (f s q).leases p = if p = q then (s.leases p).map (fun v => { v with fenced := b }) else s.leases p := by
      rw [hf]
      by_cases h : p = q
      · subst h
        rw [if_pos rfl, State.leases, State.leases, State.modPav_self, Option.map_map, Option.map_map]
        rfl
      · rw [if_neg h, State.leases, State.modPav_ne _ _ h]; rfl
    rw [forEach_cons, ih, hq]
    by_cases h : p = q
    · simp only [h, if_true, List.mem_cons_self, Option.map_map]
      split <;> rfl
    · simp only [h, if_false, List.mem_cons, false_or]

theorem State.mem_pavsIn {s : State} {p part : Nat} {v : Pav} (hv : s.pav p = some v) (hp : v.partition = part) :
    p ∈ s.pavsIn part :=
  List.mem_map.2 ⟨(p, v), List.mem_filter.2 ⟨mem_of_tfind hv, beq_iff_eq.2 hp⟩, rfl⟩

/-- Every pavilion of the partition is marked. -/
theorem fenced_of_leases {s t : State} {part : Nat} {b : Bool}
    (ht : ∀ p, t.leases p = if p ∈ s.pavsIn part then (s.leases p).map fun v => { v with fenced := b } else s.leases p)
    {p : Nat} {v : Pav} (hv : t.pav p = some v) (hp : v.partition = part) : v.fenced = b := by
  have hlease : t.leases p = some v.lease := by rw [State.leases, hv]; rfl
  rw [ht] at hlease
  split at hlease
  · obtain ⟨w, _, hw⟩ := Option.map_eq_some_iff.1 hlease
    exact (congrArg Pav.fenced hw).symm
  next hmem =>
    obtain ⟨w, hw, he⟩ := Option.map_eq_some_iff.1 hlease
    exact absurd (State.mem_pavsIn hw ((congrArg Pav.partition he).trans hp)) hmem

theorem State.raiseFence_leases : (s.raiseFence part).leases = s.leases := by
  refine (forEach_keep (g := State.leases) (fun s l => ?_) _ _).trans ?_
  · unfold State.clearQueue
    dsimp only
    split <;> rfl
  · exact State.leases_of_pavs (s.postModule_pavs ..)

theorem State.fence_leases (lift : Bool) (h : lift = true ∨ noStop = false) (p : Nat) :
    (s.fence part lift noStop cause).leases p
      = if p ∈ s.pavsIn part then (s.leases p).map fun v => { v with fenced := !lift } else s.leases p := by
  cases lift with
  | true =>
    rw [State.fence_lift, forEach_leases (b := false) (f := State.liftPav) fun _ _ => rfl,
      show (s.dropFence part).leases = s.leases from State.leases_of_pavs (s.postModule_pavs ..)]
    rfl
  | false =>
    rw [h.resolve_left Bool.false_ne_true, State.fence_stop, forEach_leases (b := true) fun s p => s.fencePav_leases cause p,
      State.raiseFence_leases]
    rfl

/-! ### The packets that wait -/

theorem State.clearQueue_self (l : Nat) : ∀ w ∈ ((s.clearQueue part l).link l).queue, w.partition ≠ part := by
  unfold State.clearQueue
  dsimp only
  split
  next h0 =>
    intro w hw he
    exact List.eq_nil_iff_forall_not_mem.1 (List.length_eq_zero_iff.1 h0) w (List.mem_filter.2 ⟨hw, beq_iff_eq.2 he⟩)
  next =>
    intro w hw
    rw [State.count_link, State.modLink_self] at hw
    exact bne_iff_ne.1 (List.mem_filter.1 hw).2

theorem State.clearQueue_ne {l j : Nat} (h : j ≠ l) : (s.clearQueue part l).link j = s.link j := by
  unfold State.clearQueue
  dsimp only
  split
  · rfl
  · exact (State.count_link ..).trans (s.modLink_ne _ h)

theorem forEach_clearQueue (ls : List Nat) (s : State) (l : Nat)
    (h : l ∈ ls ∨ ∀ w ∈ (s.link l).queue, w.partition ≠ part) :
    ∀ w ∈ ((forEach ls (fun s l => s.clearQueue part l) s).link l).queue, w.partition ≠ part := by
  induction ls generalizing s with
  | nil => exact h.resolve_left (List.not_mem_nil)
  | cons q ls ih =>
    refine ih _ ?_
    by_cases hq : l = q
    · subst hq
      exact .inr (s.clearQueue_self part l)
    · rw [s.clearQueue_ne part hq]
      exact h.imp_left fun hm => (List.mem_cons.1 hm).resolve_left hq

theorem State.fence_clear {l : Nat} (hl : l < 6) :
    ∀ w ∈ ((s.fence part false noStop cause).link l).queue, w.partition ≠ part := by
  have hraise : ∀ w ∈ ((s.raiseFence part).link l).queue, w.partition ≠ part :=
    forEach_clearQueue part _ _ l (.inl (List.mem_range.2 hl))
  cases noStop with
  | true => rw [State.fence_spared]; exact hraise
  | false =>
    rw [State.fence_stop]
    have hinv := forEach_inv (f := fun s p => s.fencePav cause p)
      (P := fun t : State => t.route.fences.contains part = true ∧ ∀ w ∈ (t.link l).queue, w.partition ≠ part)
      (fun t p ht => ⟨by rw [t.fencePav_fences cause p]; exact ht.1, (State.stopPav_ends ..).clear l part ht.1 ht.2⟩)
      (s.pavsIn part) (s.raiseFence part) ⟨by rw [State.raiseFence_route]; exact addNew_contains _ part, hraise⟩
    exact hinv.2

/-! ### The commands -/

theorem State.Narrows.of_views {s t : State} (hc : t.cmds = s.cmds) (hr : t.route.pendingFences = s.route.pendingFences) :
    s.Narrows t := ⟨fun _ hx => hr ▸ hx, fun _ => State.cmd_none_of_cmds hc⟩

theorem State.postModule_narrows (code sev place : Nat) (d : List Byte) :
    s.Narrows (s.postModule code sev place d) :=
  (State.Ends.of_quiet (s.quiet_postModule code sev place d)).narrows

theorem State.clearQueue_narrows (l : Nat) : s.Narrows (s.clearQueue part l) := by
  refine .of_views ?_ (by rw [State.clearQueue_route])
  unfold State.clearQueue
  dsimp only
  split <;> rfl

theorem State.raiseFence_narrows : s.Narrows (s.raiseFence part) := by
  have hmark : ∀ t : State, t.Narrows (t.modRoute fun r => { r with fences := addNew r.fences part }) := fun t =>
    .of_views rfl rfl
  exact (s.postModule_narrows ..).trans ((hmark _).trans (.forEach (fun s l => s.clearQueue_narrows part l) _ _))

theorem State.dropFence_narrows : s.Narrows (s.dropFence part) := by
  have hmark : ∀ t : State, t.Narrows (t.modRoute fun r => { r with fences := r.fences.filter (· != part) }) := fun t =>
    .of_views rfl rfl
  exact (s.postModule_narrows ..).trans (hmark _)

theorem State.fencePav_narrows (p : Nat) : s.Narrows (s.fencePav cause p) := by
  have hmark : s.Narrows (s.modPav p fun v => { v with fenced := true }) := .of_views rfl rfl
  exact hmark.trans (State.stopPav_ends ..).narrows

theorem State.fence_narrows (lift : Bool) : s.Narrows (s.fence part lift noStop cause) := by
  cases lift with
  | true =>
    have hlift : ∀ (t : State) p, t.Narrows (t.liftPav p) := fun _ _ => .of_views rfl rfl
    rw [State.fence_lift]
    exact (s.dropFence_narrows part).trans (.forEach hlift _ _)
  | false =>
    cases noStop with
    | true => rw [State.fence_spared]; exact s.raiseFence_narrows part
    | false =>
      rw [State.fence_stop]
      exact (s.raiseFence_narrows part).trans (.forEach (fun s p => s.fencePav_narrows cause p) _ _)

/-! ### The whole fence -/

/-- What holds once a partition is fenced, or its fence lifted. -/
def State.FencedFrom (s t : State) (part : Nat) (lift noStop : Bool) : Prop :=
  t.route.fences.contains part = !lift
    ∧ (∀ other, other ≠ part → t.route.fences.contains other = s.route.fences.contains other)
    ∧ ((lift = true ∨ noStop = false) → ∀ p v, t.pav p = some v → v.partition = part → v.fenced = !lift)
    ∧ (lift = false → noStop = true → ∀ p, (t.pav p).map (·.fenced) = (s.pav p).map (·.fenced))
    ∧ (lift = false → ∀ l, l < 6 → ∀ w ∈ (t.link l).queue, w.partition ≠ part)

theorem fenced_of_lease (o : Option Pav) : o.map (·.fenced) = (o.map Pav.lease).map (·.fenced) := by
  rw [Option.map_map]; rfl

/-- A fence, and whatever ends after it. -/
theorem State.fence_spec {s t : State} (lift : Bool) (ht : (s.fence part lift noStop cause).Ends t) :
    s.FencedFrom t part lift noStop := by
  have hfences := ht.fences.trans (s.fence_fences part noStop cause lift)
  refine ⟨?_, fun other hne => ?_, fun h p v hv hp => ?_, fun hl hn p => ?_, fun hl l hlt => ?_⟩
  · rw [hfences]
    cases lift with
    | true => exact filter_ne_contains _ part
    | false => exact addNew_contains _ part
  · rw [hfences]
    cases lift with
    | true => exact filter_ne_contains_ne hne
    | false => exact addNew_contains_ne hne
  · exact fenced_of_leases (s := s) (t := t)
      (fun p => by rw [ht.leases]; exact s.fence_leases part noStop cause lift h p) hv hp
  · subst hl hn
    rw [fenced_of_lease, fenced_of_lease (s.pav p)]
    exact congrArg (·.map (·.fenced)) (congrFun (ht.leases.trans (s.raiseFence_leases part)) p)
  · subst hl
    refine ht.clear l part ?_ (s.fence_clear part noStop cause hlt)
    rw [s.fence_fences part noStop cause false]
    exact addNew_contains _ part

end

/-! ### FENCE_SET -/

variable {id : Nat} {c : Cmd} {s : State}

theorem bodyFenceSet_now (h0 : bits (c.word 0) 11 0 ≠ 0) (hf : bits (c.word 0) 11 0 ≠ 0xFFF)
    (ht : c.swapTime = 0 ∨ s.timeOn = true) (hnow : c.swapTime ≤ s.now) : bodyFenceSet s c
      = .ok ((s.fence (bits (c.word 0) 11 0) (bitAt (c.word 0) 16) (c.expert && bitAt (c.word 0) 18) (some c)).finish c []) :=
  (need_bind (Bool.and_eq_true_iff.2 ⟨bne_iff_ne.2 h0, bne_iff_ne.2 hf⟩)).trans ((State.needTime_bind ht).trans (if_pos hnow))

theorem bodyFenceSet_later (h0 : bits (c.word 0) 11 0 ≠ 0) (hf : bits (c.word 0) 11 0 ≠ 0xFFF)
    (ht : c.swapTime = 0 ∨ s.timeOn = true) (hlate : s.now < c.swapTime) : bodyFenceSet s c
      = .ok ((s.started c).modRoute fun r => { r with
          pendingFences := r.pendingFences ++ [{
            cmd := c.serial, partition := bits (c.word 0) 11 0, lift := bitAt (c.word 0) 16
            noStop := c.expert && bitAt (c.word 0) 18, atTime := c.swapTime }] }) :=
  (need_bind (Bool.and_eq_true_iff.2 ⟨bne_iff_ne.2 h0, bne_iff_ne.2 hf⟩)).trans
    ((State.needTime_bind ht).trans (if_neg (not_le.2 hlate)))

/-- One fence that is due takes effect, with its command where that is still there. -/
def State.takeFence (s : State) (x : PendingFence) : State :=
  match s.cmd x.cmd with
  | some c => (s.fence x.partition x.lift x.noStop (some c)).finish c []
  | none => s.fence x.partition x.lift x.noStop none

theorem fenceTakeEffect_one {x : PendingFence} (hon : s.timeOn = true) (hx : s.route.pendingFences = [x])
    (hat : x.atTime ≤ s.now) :
    exec .fenceTakeEffect s = .next ((s.modRoute fun r => { r with pendingFences := [] }).takeFence x) := by
  refine (if_neg (by rw [hon]; decide)).trans ?_
  dsimp only [State.modRoute]
  simp [hx, hat, State.takeFence] <;> rfl

theorem State.takeFence_spec (s : State) (x : PendingFence) :
    s.FencedFrom (s.takeFence x) x.partition x.lift x.noStop ∧ s.Narrows (s.takeFence x)
      ∧ (s.takeFence x).cmd x.cmd = none := by
  unfold State.takeFence
  split
  next c hc =>
    have hend := (s.fence x.partition x.lift x.noStop (some c)).finish_ends c [] 0 0xFFFF
    refine ⟨State.fence_spec _ _ _ _ hend, (s.fence_narrows ..).trans hend.narrows, ?_⟩
    rw [← State.cmd_serial hc]
    exact State.finish_cmd_self ..
  next hc =>
    exact ⟨State.fence_spec _ _ _ _ (.refl _), s.fence_narrows .., (s.fence_narrows ..).gone _ hc⟩

/-! ### The messages for a fenced partition -/

section
variable {p : Fin 8} (hp : s.shut p.val = true)
include hp

theorem shut_none {α : Type} (o : Option α) : (if s.shut p.val = true then none else o) = none := if_pos hp

theorem State.collArrive_shut (type : Nat) (m : CollMsg) : s.collArrive p.val type m = s := by
  unfold State.collArrive
  rw [shut_none hp]

theorem collMessages_shut (m : CollMsg) : exec (.chainSum p m) s = .next s ∧ exec (.chainResult p m) s = .next s
    ∧ exec (.gatherPiece p m) s = .next s ∧ exec (.collAck p m) s = .next s ∧ exec (.collAbort p m) s = .next s := by
  refine ⟨congrArg _ (State.collArrive_shut hp _ m), congrArg _ (State.collArrive_shut hp _ m),
    congrArg _ (State.collArrive_shut hp _ m), ?_, ?_⟩
  · change execCollAck p m s = _
    unfold execCollAck
    rw [shut_none hp]
  · change execCollAbort p m s = _
    unfold execCollAbort
    rw [shut_none hp]

theorem shardMessages_shut (m : ShardMsg) :
    exec (.mirrorData p m) s = .next s ∧ exec (.shardArrival p m) s = .next s := by
  refine ⟨?_, ?_⟩
  · change execMirrorData p m s = _
    unfold execMirrorData
    rw [shut_none hp]
  · change execShardArrival p m s = _
    unfold execShardArrival
    rw [shut_none hp]

theorem reshapeShardAck_shut (n : Nat) (ok : Bool) : exec (.reshapeShardAck p n ok) s = .next s := by
  change execReshapeShardAck p n ok s = _
  unfold execReshapeShardAck
  rw [shut_none hp]

theorem twinControl_shut (m : TwinMsg) : exec (.twinControl p m) s = .next s := by
  change execTwinControl p m s = _
  unfold execTwinControl
  rw [shut_none hp]

theorem twinDigest_shut (m : DigestMsg) : exec (.twinDigest p m) s = .next s := if_pos (by rw [hp]; rfl)

end

end Sys2Proof.Machine

open Sys2Proof Sys2Proof.Machine

/-- Settles O31: a fence marks the pavilions of its partition and clears the queues, and what ends with them crosses no
fence. -/
theorem fencesHoldPartitions : Obligations.FencesHoldPartitions := by
  intro s fenced
  refine ⟨fun id c hd => ?_, fun x hon hx hat => ?_, fun l k h2 hk hp hf => ?_, fun p hp => ?_⟩
  · intro w part at_ h0 hf ht
    refine ⟨fun hnow => ?_, fun hlate => ?_⟩
    · exact ⟨_, congrArg Host.Outcome.next (State.startCmd_ok hd (bodyFenceSet_now h0 hf ht hnow)),
        State.finish_cmd_of_due hd .., State.fence_spec _ _ _ _ (State.finish_ends ..)⟩
    · refine ⟨_, congrArg Host.Outcome.next (State.startCmd_ok hd (bodyFenceSet_later h0 hf ht hlate)), ?_, rfl⟩
      exact (congrArg (Option.any _) (State.started_cmd hd.1)).trans rfl
  · obtain ⟨hfence, hnarrow, hcmd⟩ := (s.modRoute fun r => { r with pendingFences := [] }).takeFence_spec x
    exact ⟨_, fenceTakeEffect_one hon hx hat,
      List.eq_nil_iff_forall_not_mem.2 fun y hy => List.not_mem_nil (hnarrow.armed y hy), hcmd, hfence⟩
  · obtain ⟨pl, hpl⟩ := Option.isSome_iff_exists.1 hp
    exact packetArrive_fenced h2 hk hpl hf
  · exact ⟨collMessages_shut hp, shardMessages_shut hp, fun n ver => if_pos hp, reshapeShardAck_shut hp, twinDigest_shut hp,
      twinControl_shut hp⟩
end

section
/-! PROOFS. Building time and barriers (R363 to R370). -/

namespace Sys2Proof.Machine

/-! ### The state of time (R366) -/

/-- Entering a time state sets the state and when it was entered, and nothing else of the time. -/
theorem State.setTimeState_time (s : State) (st : Nat) : ∃ since at_ part, (s.setTimeState st).time
    = { s.time with state := st, goodSince := since, enteredAt := at_, part := part } := by
  unfold State.setTimeState
  split
  next h => exact ⟨s.time.goodSince, s.time.enteredAt, s.time.part, by rw [← h]⟩
  next =>
    dsimp only
    rw [State.postModule_time, forEach_keep (g := State.time)
      (f := fun (s : State) (l : Nat) => s.count (ctrId (placeLink l) 7 15) 1) fun _ _ => rfl]
    exact ⟨_, _, _, rfl⟩

/-- What a change of the time leaves of it: the records of the links and the candidacy; and time once set stays set. -/
structure TimeSt.Follows (t u : TimeSt) : Prop where
  links : u.links = t.links
  candidate : u.candidate = t.candidate
  running : t.state ≠ 0 → u.state ≠ 0

theorem TimeSt.Follows.refl (t : TimeSt) : t.Follows t := ⟨rfl, rfl, id⟩
theorem TimeSt.Follows.trans {t u w : TimeSt} (h : t.Follows u) (h' : u.Follows w) : t.Follows w :=
  ⟨h'.links.trans h.links, h'.candidate.trans h.candidate, fun hs => h'.running (h.running hs)⟩

theorem State.setTimeState_follows (s : State) {st : Nat} (h : st ≠ 0) : s.time.Follows (s.setTimeState st).time := by
  obtain ⟨_, _, _, ht⟩ := s.setTimeState_time st
  rw [ht]
  exact ⟨rfl, rfl, fun _ => h⟩

theorem State.follows_entered (s : State) {f : TimeSt → TimeSt} (hf : s.time.Follows (f s.time)) {st : Nat} (h : st ≠ 0) :
    s.time.Follows ((s.modTime f).setTimeState st).time := hf.trans ((s.modTime f).setTimeState_follows h)

theorem State.chooseRoot_follows (s : State) : s.time.Follows s.chooseRoot.time := by
  unfold State.chooseRoot
  dsimp only
  split
  · exact .refl _
  split
  · exact s.follows_entered ⟨rfl, rfl, id⟩ (by decide)
  split
  · split
    · exact ⟨rfl, rfl, id⟩
    · exact s.follows_entered ⟨rfl, rfl, id⟩ (by decide)
  · split
    · exact ⟨rfl, rfl, id⟩
    · exact s.follows_entered ⟨rfl, rfl, id⟩ (by decide)

theorem State.steer_follows (s : State) : s.time.Follows s.steer.time := by
  unfold State.steer
  extract_lets us mean par r rate jump t
  split
  · exact .refl _
  have ht : s.time.Follows t.time := ⟨rfl, rfl, id⟩
  split
  · exact ht.trans (t.setTimeState_follows (by decide))
  · exact ht

/-! ### TIME_SYNC (R363) -/

theorem Link.nextServed_single {k : Link} {w : Waiting} (hq : k.queue = [w]) (hcls : w.cls = 1) : k.nextServed = some 0 := by
  unfold Link.nextServed
  rw [hq, List.findIdx?_cons, if_pos (by rw [hcls]; rfl)]

theorem State.flushLink_single {t : State} {l : Nat} {w : Waiting} (h2 : (t.link l).state = 2)
    (hroom : (t.link l).roomFor 1 = true) (hq : (t.link l).queue = [w]) (hcls : w.cls = 1) (hleft : w.left = 1)
    (hcounts : w.counts = none) : (t.flushLink l).out = t.out ++ [w.what] := by
  have hfuel : sumNat ((t.link l).queue.map fun w => cdiv (max 1 w.left) packetFlits) = 1 := by
    rw [hq, List.map_singleton, hleft]; rfl
  unfold State.flushLink
  rw [if_neg (not_not.2 h2), hfuel, State.serveLink, Link.nextServed_single hq hcls, hq]
  simp [State.serveLink, hleft, hcounts, packetFlits, hroom, State.emit, State.count, State.modLink]

/-- A message of control or time at an empty port whose window has room goes out at once. -/
theorem State.queueFor_alone {s : State} {l : Nat} {w : Waiting} (h2 : (s.link l).state = 2)
    (hroom : (s.link l).roomFor 1 = true) (hq : (s.link l).queue = []) (hcls : w.cls = 1) (hleft : w.left = 1)
    (hcounts : w.counts = none) : (s.queueFor l w).out = s.out ++ [w.what] := by
  unfold State.queueFor
  have hself := s.modLink_self l fun k => { k with
    queue := k.queue ++ [w]
    served := if w.cls = 2 ∧ (tfind k.served w.flow).isNone
      then tset k.served w.flow ((k.leastServed.map k.share).getD 0) else k.served }
  exact State.flushLink_single (by rw [hself]; exact h2) (by rw [hself]; exact hroom) (by rw [hself, hq]; rfl) hcls hleft
    hcounts

/-- A candidate advances its ROOT_SEQ with each message. -/
def State.ownTurn (s : State) : State :=
  if s.time.candidate.isSome = true then s.modTime fun t => { t with ownSeq := t.ownSeq + 1 } else s

theorem State.ownTurn_time (s : State) : s.ownTurn.time
    = { s.time with ownSeq := s.time.ownSeq + if s.time.candidate.isSome = true then 1 else 0 } := by
  unfold State.ownTurn
  by_cases h : s.time.candidate.isSome = true
  · rw [if_pos h, if_pos h]; rfl
  · rw [if_neg h, if_neg h, add_zero]

theorem State.ownTurn_links (s : State) : s.ownTurn.links = s.links := by
  unfold State.ownTurn
  split <;> rfl

theorem State.ownTurn_out (s : State) : s.ownTurn.out = s.out := by
  unfold State.ownTurn
  split <;> rfl

/-- The TIME_SYNC that a port sends. -/
def State.syncMsg (s : State) (l : Nat) : TimeSyncMsg :=
  { tSend := s.now, tEcho := (s.sync l).tSend, tDwell := 16 * (s.now - (s.sync l).at_) % 2 ^ 32
    rootSeq := if s.time.state = 4 then s.time.ownSeq else match s.time.parent with
      | some q => (s.sync q).rootSeq
      | none => 0
    rootId := s.time.rootId, rootPrio := s.time.rootPrio, hops := s.time.hops, sendFrac := 0
    echoFrac := (s.sync l).sendFrac, state := s.time.state }

def State.sendSync (s : State) (l : Nat) : State :=
  ((s.modSync l fun r => { r with sentAt := some s.clock }).count (ctrId (placeLink l) 7 13) 1).queueFor l
    { what := .timeSync l (s.syncMsg l), cls := 1, flow := 0, partition := 0, left := 1, since := s.clock }

theorem timeSyncSend_eq {l : Fin 6} {s : State} (h2 : (s.link l.val).state = 2)
    (hs : ∀ x, (s.sync l.val).sentAt = some x → x + 9000 ≤ s.clock) (hroom : (s.link l.val).roomFor 1 = true) :
    exec (.timeSyncSend l) s = .next (s.ownTurn.sendSync l.val) := by
  refine if_neg ?_
  rintro (h | h | h)
  · exact h h2
  · obtain ⟨x, hx, hlt⟩ := (Option.any_eq_true _ _).1 h
    exact absurd (of_decide_eq_true hlt) (not_lt.2 (hs x hx))
  · rw [hroom] at h
    exact Bool.false_ne_true h

theorem State.queueFor_time (s : State) (l : Nat) (w : Waiting) : (s.queueFor l w).time = s.time :=
  (congrArg State.time (s.offLinks_queueFor l w) :)

/-- What a module takes from a TIME_SYNC, before it chooses its root again. -/
def State.hear (s : State) (l : Nat) (m : TimeSyncMsg) : State :=
  let s := s.count (ctrId (placeLink l) 7 14) 1
  let old := s.sync l
  let s := if s.time.state = 0 ∧ m.state ≠ 0 then
      (s.modTime fun t => { t with btime := m.tSend + (old.delay16 / 16).toNat }).setTimeState 1
    else s
  let t4 : Int := 16 * s.now
  let real := m.tEcho != 0
  let delay : Int := if real then ((t4 - (16 * m.tEcho + m.echoFrac : Nat)) - m.tDwell) / 2 else old.delay16
  let step := (m.rootSeq - old.rootSeq).toNat
  let adv := !old.heard || m.rootId != old.rootId || decide (1 ≤ step ∧ step < 2 ^ 31)
  s.modSync l fun r => {
    heard := true, at_ := s.now, tSend := m.tSend, sendFrac := m.sendFrac, nbId := (s.link l).nbId, nbState := m.state
    nbHops := m.hops, rootId := m.rootId, rootPrio := m.rootPrio, rootSeq := if adv then m.rootSeq else r.rootSeq
    seqAt := if adv then s.clock else r.seqAt, measured := r.measured || real, delay16 := delay
    offset16 := ((16 * m.tSend + m.sendFrac : Nat) + delay) - t4, sentAt := r.sentAt }

theorem timeSync_eq {l : Fin 6} {s : State} (m : TimeSyncMsg) (h2 : (s.link l.val).state = 2) :
    exec (.timeSync l m) s = .next (s.hear l.val m).chooseRoot.steer := if_neg (not_not.2 h2)

theorem State.modSync_self (s : State) (l : Nat) (f : SyncRec → SyncRec) : (s.modSync l f).sync l = f (s.sync l) :=
  tget_tset_self ..

theorem State.sync_of_follows {s t : State} (h : s.time.Follows t.time) (l : Nat) : t.sync l = s.sync l := by
  unfold State.sync; rw [h.links]

theorem State.hear_sync (s : State) (l : Nat) (m : TimeSyncMsg) : let r := (s.hear l m).sync l
    r.heard = true ∧ r.rootId = m.rootId ∧ r.rootPrio = m.rootPrio ∧ r.nbHops = m.hops ∧ r.nbState = m.state
      ∧ r.tSend = m.tSend := by
  unfold State.hear
  extract_lets s₁ old s₂ t4 real delay step adv r
  have hr : r = _ := s₂.modSync_self l _
  rw [hr]
  exact ⟨rfl, rfl, rfl, rfl, rfl, rfl⟩

theorem State.hear_running (s : State) (l : Nat) {m : TimeSyncMsg} (h : m.state ≠ 0) : (s.hear l m).time.state ≠ 0 := by
  unfold State.hear
  extract_lets s₁ old s₂ t4 real delay step adv
  change s₂.time.state ≠ 0
  unfold s₂
  split
  · obtain ⟨_, _, _, ht⟩ := State.setTimeState_time (s₁.modTime fun t => { t with
      btime := m.tSend + (old.delay16 / 16).toNat }) 1
    rw [ht]
    exact Nat.one_ne_zero
  next h0 => exact fun hs => h0 ⟨hs, h⟩

/-! ### The choice of the root (R364 to R366) -/

theorem State.ownWins_none {s : State} (h : s.time.candidate = none) (b : Option Nat) : s.ownWins b = false := by
  unfold State.ownWins
  rw [h]

theorem State.chooseRoot_lost {s : State} (h0 : s.time.state ≠ 0) (hc : s.time.candidate = none) (hb : s.bestOffer = none) :
    s.chooseRoot.time.state = 3 ∧ s.chooseRoot.time.rootId = 0xFFFF ∧ s.chooseRoot.time.parent = none := by
  unfold State.chooseRoot
  dsimp only
  rw [if_neg h0, State.ownWins_none hc, if_neg Bool.false_ne_true, hb]
  dsimp only
  split
  next h3 => exact ⟨h3, rfl, rfl⟩
  next =>
    obtain ⟨_, _, _, ht⟩ := State.setTimeState_time (s.modTime fun t => { t with
      rootId := 0xFFFF, rootPrio := 255, hops := 0, parent := none }) 3
    rw [ht]
    exact ⟨rfl, rfl, rfl⟩

theorem State.chooseRoot_offer {s : State} {l : Nat} (h0 : s.time.state ≠ 0) (hc : s.time.candidate = none)
    (hb : s.bestOffer = some l) : s.chooseRoot.time.rootId = (s.sync l).rootId ∧ s.chooseRoot.time.parent = some l
      ∧ s.chooseRoot.time.hops = (s.sync l).nbHops + 1 := by
  unfold State.chooseRoot
  dsimp only
  rw [if_neg h0, State.ownWins_none hc, if_neg Bool.false_ne_true, hb]
  dsimp only
  split
  · exact ⟨rfl, rfl, rfl⟩
  · obtain ⟨_, _, _, ht⟩ := State.setTimeState_time (s.modTime fun t => { t with
      rootId := (s.sync l).rootId, rootPrio := (s.sync l).rootPrio, hops := (s.sync l).nbHops + 1, parent := some l }) 1
    rw [ht]
    exact ⟨rfl, rfl, rfl⟩

/-! ### TIME_ROOT and TIME_STATUS (R368, R369) -/

section
variable {id : Nat} {c : Cmd} {s : State}

/-- The candidacy that a TIME_ROOT sets. -/
def State.stand (s : State) (c : Cmd) : State :=
  s.modTime fun t => { t with candidate := if bits (c.word 0) 7 0 = 255 then none else some (bits (c.word 0) 7 0) }

/-- Some neighbour has building time. -/
def State.hearsTime (s : State) : Bool :=
  (List.range 6).any fun l => (s.link l).state == 2 && (s.sync l).heard && (s.sync l).nbState != 0

/-- Whether a candidate begins building time itself. -/
def State.beginsTime (s : State) (c : Cmd) : Bool := bits (c.word 0) 7 0 != 255 && s.time.state == 0 && !s.hearsTime

def State.rootTime (s : State) (c : Cmd) : State :=
  s.modTime fun t => { t with
    btime := if c.expert then c.word 1 else 0, rootId := s.ownId, rootPrio := bits (c.word 0) 7 0, hops := 0, offset16 := 0
    ratePpb := 0 }

/-- The module after a TIME_ROOT. -/
def State.enrol (s : State) (c : Cmd) : State :=
  if (s.stand c).beginsTime c = true then ((s.stand c).rootTime c).setTimeState 4 else (s.stand c).chooseRoot

theorem bodyTimeRoot_ok (h : bits (c.word 0) 7 0 ≠ 0) : bodyTimeRoot s c = .ok ((s.enrol c).finish c
    (pack [(1, (s.enrol c).time.state), (1, b2n ((s.stand c).beginsTime c)), (2, (s.enrol c).time.rootId)])) :=
  need_bind (bne_iff_ne.2 h)

theorem State.enrol_candidate (s : State) (c : Cmd) : (s.enrol c).time.candidate
    = if bits (c.word 0) 7 0 = 255 then none else some (bits (c.word 0) 7 0) := by
  have hstand : (s.stand c).time.Follows (s.enrol c).time := by
    unfold State.enrol
    split
    · exact State.follows_entered _ ⟨rfl, rfl, id⟩ (by decide)
    · exact State.chooseRoot_follows _
  exact hstand.candidate

theorem State.enrol_first (h255 : bits (c.word 0) 7 0 ≠ 255) (h0 : s.time.state = 0) (hh : s.hearsTime = false) :
    (s.enrol c).time.state = 4 ∧ (s.enrol c).time.rootId = s.ownId
      ∧ (s.enrol c).time.btime = if c.expert = true then c.word 1 else 0 := by
  have hfirst : (s.stand c).beginsTime c = true := by
    have h1 : (s.stand c).hearsTime = false := hh
    have h2 : (s.stand c).time.state = 0 := h0
    simp [State.beginsTime, h255, h1, h2]
  unfold State.enrol
  rw [if_pos hfirst]
  obtain ⟨_, _, _, ht⟩ := ((s.stand c).rootTime c).setTimeState_time 4
  rw [ht]
  exact ⟨rfl, rfl, rfl⟩

theorem State.syncRecord_length (s : State) (l : Nat) : (s.syncRecord l).length = 32 := by
  simp [State.syncRecord, pack]

theorem State.syncRecords_length (s : State) : ((List.range 6).flatMap s.syncRecord).length = 192 := by
  rw [flatMap_length_of_const s.syncRecord_length]; rfl

/-- What TIME_STATUS returns. -/
def State.timeResult (s : State) : List Byte :=
  pack [(8, s.now), (1, s.time.state), (1, s.time.hops), (1, s.time.rootPrio), (1, s.time.parent.getD 0xFF),
    (2, s.time.rootId), (2, 0), (4, signed 32 s.time.offset16), (4, signed 32 s.time.ratePpb), (8, s.time.enteredAt)]

theorem State.writeMem_now (s : State) (a : Nat) (l : List Byte) : (s.writeMem a l).now = s.now := by
  unfold State.now
  rw [State.time_of_still (State.still_of_quiet (s.quiet_writeMem a l))]

theorem bodyTimeStatus_basic (hx : c.expert = false) : bodyTimeStatus s c = .ok (s.finish c s.timeResult) := by
  unfold bodyTimeStatus
  rw [hx]
  rfl

theorem bodyTimeStatus_expert (hx : c.expert = true) (ht : s.takes c (c.word 0) 192) : bodyTimeStatus s c
    = .ok ((s.writeMem (c.word 0) ((List.range 6).flatMap s.syncRecord)).finish c s.timeResult) := by
  have hbuf := State.toBuffer_ok (i := 0) (Nat.mod_one (c.word 0)) (l := (List.range 6).flatMap s.syncRecord)
    (by rw [s.syncRecords_length]; exact ht)
  unfold bodyTimeStatus State.timeResult
  rw [hx, if_pos rfl, hbuf, ← s.writeMem_now (c.word 0) ((List.range 6).flatMap s.syncRecord)]
  rfl

/-! ### BARRIER_AT (R370) -/

def Cmd.instants (c : Cmd) : Nat := if c.expert = true then bits (c.word 2) 63 32 else 1

/-- The barrier that a command arms. -/
def Cmd.barrier (c : Cmd) : Barrier :=
  { cmd := c.serial, at_ := c.word 0, period := if c.expert then c.word 1 else 0
    count := if c.instants = 0 then 1 else c.instants, skipLate := c.expert && bitAt (c.word 2) 2 }

theorem bodyBarrierAt_arm {v : Pav} (hc : (c.expert && bitAt (c.word 2) 0) = false) (hon : s.timeOn = true)
    (hn : c.instants ≤ 1 ∨ c.expert = true ∧ c.word 1 ≠ 0) (hv : s.pav c.pavilion = some v) (hb : v.barrier = none) :
    bodyBarrierAt s c = .ok ((s.started c).modPav c.pavilion fun v => { v with barrier := some c.barrier }) := by
  have hperiod : (decide ((if c.instants = 0 then 1 else c.instants) ≤ 1) || (if c.expert = true then c.word 1 else 0) != 0)
      = true := by
    rcases hn with h | ⟨h, h'⟩
    · rw [decide_eq_true (by split <;> omega)]; rfl
    · simp [h, h']
  refine (if_neg (by rw [hc]; decide)).trans ((need_bind hon).trans ((need_bind hperiod).trans (need_bind ?_)))
  rw [hv, Option.any_some, hb]
  rfl

/-- The barrier of a pavilion. -/
def State.barrierOf (s : State) (p : Nat) : Option Barrier := (s.pav p).bind (·.barrier)

theorem State.barrierOf_modPav (s : State) (p q : Nat) {f : Pav → Pav} (h : ∀ v, (f v).barrier = v.barrier) :
    (s.modPav p f).barrierOf q = s.barrierOf q := by
  unfold State.barrierOf
  by_cases hq : q = p
  · subst hq
    rw [State.modPav_self]
    cases s.pav q with
    | none => rfl
    | some v => exact h v
  · rw [State.modPav_ne _ _ hq]

theorem State.barrierOf_of_pavsKept {s t : State} (h : t.pavsKept = s.pavsKept) (p : Nat) : t.barrierOf p = s.barrierOf p := by
  have hk : ∀ u : State, u.barrierOf p = (u.pavsKept p).bind (·.barrier) := fun u => by
    unfold State.barrierOf State.pavsKept
    cases u.pav p <;> rfl
  rw [hk, hk, h]

theorem State.beginStep_barrierOf (s : State) (p q : Nat) : (s.beginStep p).barrierOf q = s.barrierOf q := by
  have hrun : ∀ f, (s.modRun p f).barrierOf q = s.barrierOf q := fun f => s.barrierOf_modPav p q fun _ => rfl
  rw [State.beginStep, ← hrun]
  unfold State.clearStep
  split
  · rfl
  refine forEach_keep (g := fun s : State => s.barrierOf q) (fun s i => ?_) _ _
  dsimp only
  split
  · rfl
  split
  · refine forEach_keep (g := fun s : State => s.barrierOf q) (fun s sl => ?_) _ _
    split <;> rfl
  split
  · split
    · rfl
    · exact forEach_keep (g := fun s : State => s.barrierOf q) (f := fun (s : State) (x : Nat × Nat) => s.zeroMem x.1 x.2)
        (fun _ _ => rfl) _ _
  · exact State.barrierOf_modPav _ p q fun _ => rfl

theorem State.cancelBarrier_barrierOf (s : State) (p st target : Nat) (x : Option Cmd) :
    (s.cancelBarrier p st target x).barrierOf p = none := by
  unfold State.cancelBarrier
  split
  next h => exact h
  next b _ =>
  extract_lets s₁ s₂
  have h₁ : s₁.barrierOf p = none := by
    unfold s₁ State.barrierOf
    rw [State.modPav_self]
    cases s.pav p <;> rfl
  have h₂ : s₂.barrierOf p = none := by
    unfold s₂
    split
    · exact (State.barrierOf_of_pavsKept (State.pavsKept_abort ..) p).trans h₁
    · exact h₁
  split
  · exact (s₂.beginStep_barrierOf p p).trans h₂
  · exact h₂

end

end Sys2Proof.Machine

open Sys2Proof Sys2Proof.Machine

/-- Settles O32: what is heard is recorded before the choice of the root, which leaves the records. -/
theorem buildingTimeIsSteered : Obligations.BuildingTimeIsSteered := by
  intro s
  refine ⟨fun l h2 => ⟨fun hs hroom hq => ?_, fun m => ?_⟩, fun hp hany h0 hc => ⟨fun hb => ?_, fun l hb => ?_⟩,
    fun h1 hup hoff hgood => ?_, fun h12 hup => ?_⟩
  · have hlink := State.link_of_links s.ownTurn_links l.val
    refine ⟨_, s.ownTurn.syncMsg l.val, timeSyncSend_eq h2 hs hroom, ?_, ?_, ?_, ?_, ?_, ?_, ?_, ?_⟩
    · exact (State.queueFor_alone (hlink ▸ h2) (hlink ▸ hroom) (hlink ▸ hq) rfl rfl rfl).trans
        (congrArg (· ++ [Emission.timeSync l.val (s.ownTurn.syncMsg l.val)]) s.ownTurn_out)
    · unfold State.syncMsg State.now; rw [State.ownTurn_time]
    · unfold State.syncMsg; rw [State.ownTurn_time]
    · unfold State.syncMsg; rw [State.ownTurn_time]
    · unfold State.syncMsg; rw [State.ownTurn_time]
    · unfold State.syncMsg; rw [State.ownTurn_time]
    · unfold State.syncMsg State.sync; rw [State.ownTurn_time]
    · have ht : (s.ownTurn.sendSync l.val).time.ownSeq = s.ownTurn.time.ownSeq :=
        (congrArg TimeSt.ownSeq (State.queueFor_time ..)).trans rfl
      rw [ht, State.ownTurn_time]
  · have hfollow := (s.hear l.val m).chooseRoot_follows.trans (State.steer_follows _)
    obtain ⟨hheard, hroot, hprio, hhops, hstate, hsend⟩ := s.hear_sync l.val m
    refine ⟨_, timeSync_eq m h2, ?_⟩
    rw [State.sync_of_follows hfollow]
    exact ⟨hheard, hroot, hprio, hhops, hstate, hsend, fun hm => hfollow.running (s.hear_running l.val hm)⟩
  · exact ⟨_, if_pos (by rw [hp, hany]; rfl), State.chooseRoot_lost h0 hc hb⟩
  · exact ⟨_, if_pos (by rw [hp, hany]; rfl), State.chooseRoot_offer h0 hc hb⟩
  · obtain ⟨_, _, _, ht⟩ := s.setTimeState_time 2
    refine ⟨_, if_pos ⟨h1, by simpa using hup, hoff, hgood⟩, ?_⟩
    rw [ht]
    exact ⟨rfl, rfl⟩
  · obtain ⟨_, _, _, ht⟩ := State.setTimeState_time (s.modTime fun t => { t with
      rootId := 0xFFFF, rootPrio := 255, hops := 0, parent := none }) 3
    refine ⟨_, if_pos ⟨h12, by rw [hup]; rfl⟩, ?_⟩
    rw [ht]
    exact ⟨rfl, rfl, rfl⟩

/-- Settles O33: TIME_ROOT enrols the module, TIME_STATUS reports, and BARRIER_AT arms or cancels. -/
theorem timeCommandsAnswer : Obligations.TimeCommandsAnswer := by
  intro id c s
  refine ⟨fun hd => ?_, fun hd => ?_, fun v hd hv => ?_⟩
  · intro p hp
    refine ⟨_, congrArg Host.Outcome.next (State.startCmd_ok hd (bodyTimeRoot_ok hp)), State.finish_cmd_of_due hd .., ?_⟩
    rw [State.finish_time]
    exact ⟨s.enrol_candidate c, State.enrol_first⟩
  · intro l
    exact ⟨fun hx => congrArg Host.Outcome.next (State.startCmd_ok hd (bodyTimeStatus_basic hx)),
      fun hx ht => congrArg Host.Outcome.next (State.startCmd_ok hd (bodyTimeStatus_expert hx ht))⟩
  · intro n cancel
    refine ⟨fun hc hon hn hb => ?_, fun hc => ?_⟩
    · refine ⟨_, c.barrier, { v with barrier := some c.barrier },
        congrArg Host.Outcome.next (State.startCmd_ok hd (bodyBarrierAt_arm hc hon hn hv hb)), ?_, rfl, rfl, rfl, ?_⟩
      · exact (State.modPav_self ..).trans (congrArg (Option.map _) hv)
      · change (if c.instants = 0 then 1 else c.instants) = max c.instants 1
        split <;> omega
    · refine ⟨_, congrArg Host.Outcome.next (State.startCmd_ok hd (if_pos hc)), fun w hw => ?_⟩
      have h := (State.barrierOf_of_pavsKept (State.pavsKept_finish _ c [] 0 0xFFFF) c.pavilion).trans
        (s.cancelBarrier_barrierOf c.pavilion 0x0303 (pavTarget c.pavilion) (some c))
      rwa [State.barrierOf, hw] at h
end

section
/-! PROOFS. The security mailbox, attestation, and the commands on the firmware (R443 to R452). -/

namespace Sys2Proof.Machine

/-! ### The mailbox (R443, R444) -/

/-- The mailbox of a port after a piece of an object has been served. -/
def Mbox.served (m : Mbox) (piece : List Byte) : Mbox :=
  { m with result := 0, done := true, busy := false, respLen := piece.length, inp := piece }

theorem State.mboxPiece_ok {s : State} {q need off : Nat} {object : List Byte} (hlen : need ≤ (s.mbox q).curLen)
    (hoff : field (s.mbox q).curOut 0 4 = off) (h : off < object.length) :
    s.mboxPiece q need object = s.modMbox q fun m => m.served ((object.drop off).take 4096) := by
  unfold State.mboxPiece
  rw [if_neg (not_lt.2 hlen), hoff, if_neg (not_le.2 h)]
  rfl

theorem State.mboxPiece_mbox {s : State} {q need off : Nat} {object : List Byte} (hlen : need ≤ (s.mbox q).curLen)
    (hoff : field (s.mbox q).curOut 0 4 = off) (h : off < object.length) :
    (s.mboxPiece q need object).mbox q = (s.mbox q).served ((object.drop off).take 4096) := by
  rw [State.mboxPiece_ok hlen hoff h, State.modMbox_mbox]

theorem State.mboxPiece_signCount {s : State} {q need off : Nat} {object : List Byte} (hlen : need ≤ (s.mbox q).curLen)
    (hoff : field (s.mbox q).curOut 0 4 = off) (h : off < object.length) :
    (s.mboxPiece q need object).boot.signCount = s.boot.signCount := by
  rw [State.mboxPiece_ok hlen hoff h]; rfl

section
variable {q : Fin 2} {s : State}

theorem mboxIdentity_eq (h : s.mboxReady q.val 1 = true) :
    exec (.mboxIdentity q) s = .next (s.mboxPiece q.val 4 identityObject) := if_pos h

/-- The state of the previous start, as START_LOG gives it. -/
def State.startLog (s : State) : List Byte :=
  pack [(4, s.flash.starts.count.toNat), (2, s.flash.starts.error), (1, s.flash.starts.stage)]

theorem mboxStartLog_eq (h : s.mboxReady q.val 3 = true) :
    exec (.mboxStartLog q) s = .next (s.mboxPiece q.val 4 s.startLog) := if_pos h

theorem State.startLog_length (s : State) : s.startLog.length = 7 := by simp [State.startLog, pack]

/-- The NONCE of a request, and the module with a new report for it. -/
def State.nonceOf (s : State) (q : Nat) : List Byte := slice (s.mbox q).curOut 4 32
def State.freshReport (s : State) (q : Nat) : List Byte := s.signedReport (s.reportBody (s.nonceOf q) none false)
def State.newReport (s : State) (q : Nat) : State :=
  (s.modMbox q fun m => { m with nonce := some (s.nonceOf q), report := s.freshReport q }).bumpSign

theorem State.newReport_mbox (s : State) (q : Nat) :
    (s.newReport q).mbox q = { s.mbox q with nonce := some (s.nonceOf q), report := s.freshReport q } :=
  State.modMbox_mbox s q fun m => { m with nonce := some (s.nonceOf q), report := s.freshReport q }

section
variable (h : s.mboxReady q.val 2 = true) (ha : s.boot.attestBlocked = false) (hs : s.boot.signingStopped = false)
  (hlen : 36 ≤ (s.mbox q.val).curLen)
include h ha hs hlen

theorem mboxAttest_new (hn : (s.mbox q.val).nonce ≠ some (s.nonceOf q.val)) : exec (.mboxAttest q) s
    = .next ((s.newReport q.val).mboxPiece q.val 36 (s.freshReport q.val)) := by
  refine (if_neg (by rw [h, ha]; decide)).trans ((if_neg ?_).trans ?_)
  · rintro (hlt | hstop)
    · exact absurd hlt (not_lt.2 hlen)
    · exact Bool.false_ne_true (hs.symm.trans hstop)
  · have hrep : ((s.newReport q.val).mbox q.val).report = s.freshReport q.val := by rw [State.newReport_mbox]
    dsimp only
    rw [← hrep]
    exact congrArg (fun t : State => Host.Outcome.next (t.mboxPiece q.val 36 (t.mbox q.val).report)) (if_neg hn)

theorem mboxAttest_again (hn : (s.mbox q.val).nonce = some (s.nonceOf q.val)) : exec (.mboxAttest q) s
    = .next (s.mboxPiece q.val 36 (s.mbox q.val).report) := by
  refine (if_neg (by rw [h, ha]; decide)).trans ((if_neg ?_).trans ?_)
  · rintro (hlt | hstop)
    · exact absurd hlt (not_lt.2 hlen)
    · exact Bool.false_ne_true (hs.symm.trans hstop)
  · exact congrArg (fun t : State => Host.Outcome.next (t.mboxPiece q.val 36 (t.mbox q.val).report)) (if_pos hn)

end
end

/-! ### ATTEST, IDENTITY_GET and FW_STATUS (R446, R447, R451) -/

section
variable {c : Cmd} {s : State}

/-- The report that ATTEST writes. -/
def State.attestReport (s : State) (c : Cmd) : List Byte :=
  s.signedReport (s.reportBody (pack [(8, c.word 0), (8, c.word 1), (8, c.word 2), (8, c.word 3)]) c.own
    (c.expert && bitAt (c.word 5) 0))

theorem bodyAttest_ok (ha : s.boot.attestBlocked = false) (hs : s.boot.signingStopped = false) (hw : c.word 4 % 64 = 0)
    (ht : s.takes c (c.word 4) (s.attestReport c).length) : bodyAttest s c
      = .ok ((s.writeMem (c.word 4) (s.attestReport c)).bumpSign.finish c
          (pack [(4, (s.attestReport c).length), (4, 0), (16, identityDigest)])) :=
  (need_bind (by rw [ha]; rfl)).trans ((need_bind (by rw [hs]; rfl)).trans
    (congrArg (· >>= fun s' => .ok (s'.bumpSign.finish c (pack [(4, (s.attestReport c).length), (4, 0), (16,
    identityDigest)])))
      (State.toBuffer_ok hw ht)))

theorem bodyIdentityGet_ok (ha : s.boot.attestBlocked = false) (hw : c.word 0 % 64 = 0)
    (ht : s.takes c (c.word 0) identityObject.length) : bodyIdentityGet s c
      = .ok ((s.writeMem (c.word 0) identityObject).finish c (pack [(16, identityDigest), (16, Config.serial.toNat)])) :=
  (need_bind (by rw [ha]; rfl)).trans
    (congrArg (· >>= fun s => .ok (s.finish c (pack [(16, identityDigest), (16,
    Config.serial.toNat)]))) (State.toBuffer_ok hw ht))

/-- The record that the expert form of FW_STATUS writes for a cluster: zeros where the function does not own it. -/
def State.fwRecord (s : State) (c : Cmd) (k : Nat) : List Byte :=
  if c.fn = 0 ∨ s.ownerOfCluster k = some (c.fn - 1) then s.clusterRecord k else leBytes 8 0

theorem State.fwRecord_length (s : State) (c : Cmd) (k : Nat) : (s.fwRecord c k).length = 8 := by
  unfold State.fwRecord
  split
  · simp [State.clusterRecord, pack]
  · exact leBytes_length 8 0

theorem bodyFwStatus_expert (hx : c.expert = true) (ht : s.takes c (c.word 0) 256) : bodyFwStatus s c
    = .ok ((s.writeMem (c.word 0) ((List.range 32).flatMap (s.fwRecord c))).finish c []) := by
  have hlen : ((List.range 32).flatMap (s.fwRecord c)).length = 256 := by
    rw [flatMap_length_of_const (s.fwRecord_length c)]; rfl
  exact (if_pos hx).trans (congrArg (· >>= fun s => .ok (s.finish c []))
    (State.toBuffer_ok (Nat.mod_one _) (hlen.symm ▸ ht)))

/-- The first five bytes are those of the first five fields, which have a byte each. -/
theorem pack_take_bytes (l m : List (Nat × Nat)) (h : ∀ x ∈ l, x.1 = 1) : (pack (l ++ m)).take l.length = pack l := by
  have hlen : (pack l).length = l.length := by
    induction l with
    | nil => rfl
    | cons x l ih =>
      have hx : x.1 = 1 := h x List.mem_cons_self
      have hl := ih fun y hy => h y (List.mem_cons_of_mem _ hy)
      unfold pack at hl ⊢
      rw [List.flatMap_cons, List.length_append, leBytes_length, hl, hx, List.length_cons, Nat.add_comm]
  rw [pack_append, ← hlen]
  exact List.take_left

theorem bodyFwStatus_basic (hx : c.expert = false) : ∃ l, bodyFwStatus s c = .ok (s.finish c l) ∧ l.take 5
    = pack [(1, s.boot.stage), (1, s.boot.leadHub), (1, s.roleHub 0), (1, s.roleHub 1), (1, s.roleHub 2)] :=
  ⟨_, if_neg (by rw [hx]; decide),
    pack_take_bytes [(1, s.boot.stage), (1, s.boot.leadHub), (1, s.roleHub 0), (1, s.roleHub 1), (1, s.roleHub 2)] _ (by simp)⟩

/-! ### CORE_RESTART (R417, R418, R452) -/

theorem State.boot_of_base {s t : State} (h : t.base = s.base) : t.boot = s.boot := (congrArg State.boot h :)

theorem State.ringsAdopted_base (s : State) : s.ringsAdopted.base = s.base :=
  forEach_base (fun s k => (State.modRing_base ..).trans (s.postRing_base k 0x0005 1 [])) _ s

theorem State.hubCoreFails_boot {s : State} {i : Nat} (hd : s.boot.coreDown.contains i = false) :
    (s.hubCoreFails i true).boot.coreDown.contains i = true ∧ (s.hubCoreFails i true).boot.resetCores.contains i = true := by
  unfold State.hubCoreFails
  rw [if_neg (by rw [hd]; exact Bool.false_ne_true)]
  extract_lets r lead alone s₁
  have h₁ : s₁.boot.coreDown.contains i = true ∧ s₁.boot.resetCores.contains i = true :=
    ⟨by simp [s₁], addNew_contains _ i⟩
  split
  · have hb : ∀ f t, ((s₁.modPower fun x => { x with pendingCaps := [] }).forCmds f fun s c => s.abort c 0x0306 t none).boot
        = s₁.boot := fun f t => State.boot_of_base ((State.forCmds_base _ f fun s c => s.abort_base ..).trans rfl)
    rw [hb]
    exact h₁
  · exact h₁

section
variable {i : Nat} (hi : c.target = 0xB000 + i)
include hi

theorem Cmd.firmwareCore (hlt : i < 48) : (c.target / 4096 == 0xB) = true ∧ c.target % 4096 = i := by
  refine ⟨beq_iff_eq.2 ?_, ?_⟩ <;> omega

theorem bodyCoreRestart_cluster (hlt : i < 48) (h16 : 16 ≤ i) (hh : (c.expert && bitAt (c.word 0) 0) = false) :
    bodyCoreRestart s c = .ok ((s.ccRestart (i - 16) 2).finish c (pack [(1, 0xFF)])) := by
  obtain ⟨hk, hm⟩ := Cmd.firmwareCore hi hlt
  unfold bodyCoreRestart
  dsimp only
  rw [need_bind hk, hm, if_pos h16, need_bind (by rw [hh]; rfl)]

/-- A lead core hands its role over and goes down. -/
def State.handOver (s : State) (i : Nat) : State :=
  (s.modBoot fun b => { b with
    coreDown := b.coreDown ++ [i], resetCores := addNew b.resetCores i
    attestBlocked := b.attestBlocked || i % 3 == 0 }).takeOver (i % 3)

omit hi in
theorem State.handOver_boot (s : State) (i : Nat) : (s.handOver i).boot.coreDown.contains i = true
    ∧ (s.handOver i).boot.roleHub = s.boot.roleHub.set (i % 3) (1 - s.roleHub (i % 3)) :=
  ⟨by simp [State.handOver, State.takeOver], rfl⟩

theorem bodyCoreRestart_handOver (h6 : i < 6) (hh : (c.expert && bitAt (c.word 0) 0) = true)
    (hr : s.roleHub (i % 3) = i / 3) (hu : s.standbyUp (i % 3) = true) (hd : s.boot.coreDown.contains i = false) :
    bodyCoreRestart s c
      = .ok ((if i % 3 = 2 then (s.handOver i).ringsAdopted else s.handOver i).started c) := by
  obtain ⟨hk, hm⟩ := Cmd.firmwareCore hi (h6.trans (by decide))
  unfold bodyCoreRestart
  dsimp only
  rw [need_bind hk, hm, if_neg (by omega), if_pos hh, need_bind (beq_iff_eq.2 hr), need_bind (by rw [hu, hd]; rfl)]
  rfl

theorem bodyCoreRestart_reset (h6 : i < 6) (hh : (c.expert && bitAt (c.word 0) 0) = false) :
    ∃ t, bodyCoreRestart s c = .ok t ∧ t.boot = (s.hubCoreFails i true).boot := by
  obtain ⟨hk, hm⟩ := Cmd.firmwareCore hi (h6.trans (by decide))
  unfold bodyCoreRestart
  dsimp only
  rw [need_bind hk, hm, if_neg (by omega), if_neg (by rw [hh]; exact Bool.false_ne_true)]
  split
  · exact ⟨_, rfl, State.finish_boot ..⟩
  · exact ⟨_, rfl, State.started_boot ..⟩

end
end

end Sys2Proof.Machine

open Sys2Proof Sys2Proof.Machine

/-- Settles O19: each request serves one piece of its object, and ATTEST makes a report only for a new NONCE. -/
theorem mailboxServesObjects : Obligations.MailboxServesObjects := by
  intro q s m off nonce fresh served
  have hserved : ∀ (t : State) (m' : Mbox) (l : List Byte), t.mbox q.val = m'.served ((l.drop off).take 4096) → served t l :=
    fun t m' l ht => by
      dsimp only [served]
      rw [ht]
      exact ⟨rfl, rfl, rfl, rfl, rfl⟩
  refine ⟨fun hr hlen hoff => ?_, fun hr ha hs hlen => ⟨fun hn hoff => ?_, fun hn hoff => ?_⟩, fun hr hlen hoff => ?_⟩
  · exact ⟨_, mboxIdentity_eq hr, hserved _ _ _ (State.mboxPiece_mbox hlen rfl hoff)⟩
  · have hm := s.newReport_mbox q.val
    have hlen' : 36 ≤ ((s.newReport q.val).mbox q.val).curLen := by rw [hm]; exact hlen
    have hoff' : field ((s.newReport q.val).mbox q.val).curOut 0 4 = off := by rw [hm]
    have hbox := State.mboxPiece_mbox hlen' hoff' (object := s.freshReport q.val) hoff
    refine ⟨_, mboxAttest_new hr ha hs hlen hn, hserved _ _ _ hbox, ?_, ?_⟩
    · rw [hbox, hm]; rfl
    · exact (State.mboxPiece_signCount hlen' hoff' (object := s.freshReport q.val) hoff).trans rfl
  · exact ⟨_, mboxAttest_again hr ha hs hlen hn, hserved _ _ _ (State.mboxPiece_mbox hlen rfl hoff),
      State.mboxPiece_signCount hlen rfl hoff⟩
  · exact ⟨_, mboxStartLog_eq hr, hserved _ _ _ (State.mboxPiece_mbox hlen rfl (by rw [s.startLog_length]; exact hoff))⟩

/-- Settles O20: the checks of each command pass, and what a completion changes is not of the firmware. -/
theorem securityCommandsAnswer : Obligations.SecurityCommandsAnswer := by
  intro id c s
  refine ⟨fun hd ha hs => ?_, fun hd ha hw ht => ?_, fun hd => ⟨fun hx => ?_, fun hx ht => ?_⟩, fun hd i hi hlt => ?_⟩
  · intro nonce l hw ht
    exact congrArg Host.Outcome.next (State.startCmd_ok hd (bodyAttest_ok ha hs hw ht))
  · exact congrArg Host.Outcome.next (State.startCmd_ok hd (bodyIdentityGet_ok ha hw ht))
  · obtain ⟨l, hbody, hl⟩ := bodyFwStatus_basic (s := s) hx
    exact ⟨l, congrArg Host.Outcome.next (State.startCmd_ok hd hbody), hl⟩
  · exact congrArg Host.Outcome.next (State.startCmd_ok hd (bodyFwStatus_expert hx ht))
  · intro handover
    refine ⟨fun h16 hh => ?_, fun h6 hh hr hu hdown => ?_, fun h6 hh hu hdown => ?_⟩
    · exact congrArg Host.Outcome.next (State.startCmd_ok hd (bodyCoreRestart_cluster hi hlt h16 hh))
    · refine ⟨_, congrArg Host.Outcome.next (State.startCmd_ok hd (bodyCoreRestart_handOver hi h6 hh hr hu hdown)), ?_⟩
      have hboot : ((if i % 3 = 2 then (s.handOver i).ringsAdopted else s.handOver i).started c).boot = (s.handOver i).boot := by
        rw [State.started_boot, apply_ite State.boot, State.boot_of_base (State.ringsAdopted_base _), ite_self]
      rw [hboot]
      exact s.handOver_boot i
    · obtain ⟨t, hbody, hboot⟩ := bodyCoreRestart_reset (s := s) hi h6 hh
      refine ⟨t, congrArg Host.Outcome.next (State.startCmd_ok hd hbody), ?_⟩
      rw [hboot]
      exact State.hubCoreFails_boot hdown
end

section
/-! PROOFS. The start: the bundle and the stages 6 to 9 (R421, R435 to R442). -/

namespace Sys2Proof.Machine

/-! ### The registers of a load -/

theorem setBootError_bootPort (s : State) (q e : Nat) :
    (setBootError s q e).bootPort q = { s.bootPort q with error := e, failed := true, busy := false } :=
  s.modBootPort_bootPort q fun b => { b with error := e, failed := true, busy := false }

section
variable {q : Fin 2} {s : State}

/-! ### The pull (R439 to R442) -/

/-- The registers and the boot state of a load that begins. -/
def State.beginLoad (s : State) (q : Nat) : State :=
  let s := s.modBootPort q fun b => { b with busy := true, failed := false, error := 0, bytesDone := 0 }
  s.modBoot fun x => { x with loadPort := some q, loadAt := s.clock, stagingDie := s.stagingDieOf }

theorem readChunk_of_aligned {a : Nat} (h : a % 4096 = 0) (n : Nat) : readChunk a n = min n 4096 := by
  rw [readChunk, h, Nat.sub_zero]

theorem load_eq (h3 : s.boot.stage = 3) (hid : s.boot.hasIdentity = true) (hl : s.boot.loaded = false)
    (hp : s.boot.loadPort = none) (ha : (s.bootPort q.val).bundleAddr.toNat % 4096 = 0)
    (hlo : 256 ≤ (s.bootPort q.val).bundleBytes.toNat) (hhi : (s.bootPort q.val).bundleBytes.toNat ≤ 33554432) :
    exec (.load q) s = .next ((s.beginLoad q.val).hostRequest q.val none (s.bootPort q.val).bundleAddr.toNat
      (min (s.bootPort q.val).bundleBytes.toNat 4096)) := by
  rw [← readChunk_of_aligned ha]
  refine (if_neg (by omega)).trans ((if_neg (by rw [hid]; decide)).trans ((if_neg ?_).trans (if_neg (by omega))))
  rw [h3, hl, hp]
  decide

theorem abandon_eq (hp : s.boot.loadPort = some q.val) (h4 : s.boot.stage ≤ 4) :
    exec (.abandon q) s = .next (s.endLoad 0x000E) := if_pos ⟨hp, h4⟩

/-- The module with the requests of a load dropped. -/
def State.dropPull (s : State) (q : Nat) : State :=
  s.modPort q fun p => { p with requests := p.requests.filter fun r => r.2.1.isSome }

theorem State.endLoad_eq {s : State} {q : Nat} (hp : s.boot.loadPort = some q) (e : Nat) : s.endLoad e
    = (((setBootError (s.dropPull q) q e).zeroMem (dieStoreAddr s.boot.stagingDie) 0x2000000).modBoot fun b =>
        { b with loadPort := none, loaded := false, bundle := none }).setStage 3 := by
  unfold State.endLoad
  rw [hp]
  rfl

theorem State.endLoad_boot {s : State} {q : Nat} (hp : s.boot.loadPort = some q) (e : Nat) : let t := s.endLoad e
    t.boot.stage = 3 ∧ t.boot.loadPort = none ∧ t.boot.bundle = none ∧ t.boot.fwRunning = s.boot.fwRunning := by
  dsimp only
  rw [State.endLoad_eq hp]
  exact ⟨rfl, rfl, rfl, rfl⟩

theorem State.endLoad_bootPort {s : State} {q : Nat} (hp : s.boot.loadPort = some q) (e : Nat) :
    (s.endLoad e).bootPort q = { s.bootPort q with error := e, failed := true, busy := false } := by
  rw [State.endLoad_eq hp]
  exact setBootError_bootPort (s.dropPull q) q e

theorem State.endLoad_zeroes {s : State} {q : Nat} (hp : s.boot.loadPort = some q) (e a : Nat)
    (hlo : dieStoreAddr s.boot.stagingDie ≤ a) (hhi : a < dieStoreAddr s.boot.stagingDie + 0x2000000) :
    cellGet (s.endLoad e).mem.cells a = 0 := by
  rw [State.endLoad_eq hp]
  exact (State.zeroMem_spec (setBootError (s.dropPull q) q e) (dieStoreAddr s.boot.stagingDie) 0x2000000 a).trans
    (if_pos ⟨hlo, hhi⟩)

theorem bundlePullDone_eq (hp : s.boot.loadPort = some q.val) (h3 : s.boot.stage = 3)
    (hdone : (s.bootPort q.val).bytesDone = (s.bootPort q.val).bundleBytes.toNat) :
    exec .bundlePullDone s = .next (s.setStage 4) := by
  change execBundlePullDone s = _
  unfold execBundlePullDone
  rw [hp]
  exact if_pos ⟨h3, hdone⟩

/-! ### The verification (R435) -/

/-- The bundle in the staging area. -/
def State.staged (s : State) (q : Nat) : List Byte :=
  s.readMem (dieStoreAddr s.boot.stagingDie) (s.bootPort q).bundleBytes.toNat

/-- A bundle that passes ends stage 5: its firmware runs. -/
def State.bootWith (s : State) (q : Nat) (b : Bundle) : State :=
  ((s.modBootPort q fun x => { x with busy := false }).modBoot fun x => { x with
    bundle := some b, loaded := true, fwRunning := true }).setStage 5

theorem bundleVerify_ok (hp : s.boot.loadPort = some q.val) (h4 : s.boot.stage = 4) {b : Bundle}
    (hv : verifyBundle (s.staged q.val) = .ok b) : exec .bundleVerify s = .next (s.bootWith q.val b) := by
  unfold State.staged at hv
  change execBundleVerify s = _
  unfold execBundleVerify
  rw [hp]
  dsimp only
  rw [if_neg (not_not.2 h4), hv]
  rfl

theorem bundleVerify_error (hp : s.boot.loadPort = some q.val) (h4 : s.boot.stage = 4) {e : Nat}
    (hv : verifyBundle (s.staged q.val) = .error e) : exec .bundleVerify s = .next (s.endLoad e) := by
  unfold State.staged at hv
  change execBundleVerify s = _
  unfold execBundleVerify
  rw [hp]
  dsimp only
  rw [if_neg (not_not.2 h4), hv]

/-! ### Power-management firmware and memory (R437, R421) -/

/-- Power-management firmware starts: every island has its nominal target. -/
def State.nominal (s : State) : State :=
  ({ s with isles := tmap (fun i (x : Isle) => { x with targetMhz := nominalMhz i }) s.isles }.modPower
    fun p => { p with lastHour := s.clock }).setStage 6

theorem State.nominal_isle (s : State) (i : Nat) : s.nominal.isle i = { s.isle i with targetMhz := nominalMhz i } := by
  change tget (tmap (fun i (x : Isle) => { x with targetMhz := nominalMhz i }) s.isles) i (isleReset i) = _
  rw [State.isle, tget, tget, tfind_tmap]
  cases tfind s.isles i <;> rfl

/-- Every stack of the staging die failed. -/
def State.noStack (s : State) (f : BitVec 32) : Bool :=
  (List.range 4).all fun i => (maskBits 32 f.toNat).contains (4 * s.boot.stagingDie + i)

/-- The images are kept in the firmware region, and the staging area is zero again. -/
def State.storeImages (s : State) : State :=
  (s.copyMem (dieStoreAddr s.boot.stagingDie) (imageStore s.boot.stagingDie) (match s.boot.bundle with
    | some b => b.bytes
    | none => 0)).zeroMem (dieStoreAddr s.boot.stagingDie) 0x2000000

theorem memoryTrained_eq {f : BitVec 32} (h6 : s.boot.stage = 6) (hall : s.noStack f = false) : exec (.memoryTrained f) s
    = .next ((s.storeImages.modRoute fun r => { r with lostStacks := maskBits 32 f.toNat }).setStage 7) :=
  (if_neg (not_not.2 h6)).trans (if_neg fun h => Bool.false_ne_true (hall.symm.trans h))

theorem memoryTrained_lost {f : BitVec 32} (h6 : s.boot.stage = 6) (hall : s.noStack f = true) :
    exec (.memoryTrained f) s = .next (s.backToStage3 0x000C) := (if_neg (not_not.2 h6)).trans (if_pos hall)

/-- A start that ends: stage 3, with nothing but the boot ROM running. -/
theorem State.backToStage3_spec (s : State) (e : Nat) : let t := s.backToStage3 e
    t.boot.stage = 3 ∧ t.boot.fwRunning = false ∧ t.pavs = [] ∧ (t.bootPort (s.boot.loadPort.getD 0)).error = e := by
  refine ⟨rfl, rfl, rfl, ?_⟩
  unfold State.backToStage3
  dsimp only
  rw [setBootError_bootPort]

/-! ### The configuration (R437, R438, R226) -/

theorem State.setDuties_flash (s : State) (b : Bundle) (c : Nat) (bad : List Nat) : (s.setDuties b c bad).flash = s.flash :=
  (forEach_keep (g := State.flash) (f := fun (s : State) (j : Nat) => s.modCore (6 * c + j) _) (fun _ _ => rfl) _ _).trans rfl

theorem State.setDuties_clusters (s : State) (b : Bundle) (c : Nat) (bad : List Nat) : ∃ k : Cluster,
    (s.setDuties b c bad).clusters = tset s.clusters c k ∧ k.inService = !b.clusterDisable.testBit c ∧ k.rateLog2 = b.rateLog2 := by
  refine ⟨_, (forEach_keep (g := State.clusters) (f := fun (s : State) (j : Nat) => s.modCore (6 * c + j) _)
    (fun _ _ => rfl) _ _).trans rfl, rfl, rfl⟩

theorem State.setDuties_cluster_self (s : State) (b : Bundle) (c : Nat) (bad : List Nat) :
    ((s.setDuties b c bad).cluster c).inService = (!b.clusterDisable.testBit c)
      ∧ ((s.setDuties b c bad).cluster c).rateLog2 = b.rateLog2 := by
  obtain ⟨k, hk, hin, hrate⟩ := s.setDuties_clusters b c bad
  rw [State.cluster, hk, tget_tset_self]
  exact ⟨hin, hrate⟩

theorem State.setDuties_cluster_ne (s : State) (b : Bundle) {c j : Nat} (bad : List Nat) (h : j ≠ c) :
    (s.setDuties b c bad).cluster j = s.cluster j := by
  obtain ⟨k, hk, -⟩ := s.setDuties_clusters b c bad
  rw [State.cluster, hk, tget_tset_ne _ _ _ h]
  rfl

/-- Every cluster has the service and the rate of the configuration once its duties are set. -/
theorem forEach_setDuties (b : Bundle) (bad : Nat → List Nat) (l : List Nat) (s : State) (c : Nat)
    (h : c ∈ l ∨ (s.cluster c).inService = (!b.clusterDisable.testBit c) ∧ (s.cluster c).rateLog2 = b.rateLog2) :
    let t := forEach l (fun s c => s.setDuties b c (bad c)) s
    (t.cluster c).inService = (!b.clusterDisable.testBit c) ∧ (t.cluster c).rateLog2 = b.rateLog2 := by
  induction l generalizing s with
  | nil => exact h.resolve_left List.not_mem_nil
  | cons d l ih =>
    refine ih _ ?_
    by_cases hd : c = d
    · subst hd
      exact .inr (s.setDuties_cluster_self b c (bad c))
    · rw [s.setDuties_cluster_ne b (bad d) hd]
      exact h.imp_left fun hm => (List.mem_cons.1 hm).resolve_left hd

/-- A page that retires on release is in the list of the start before and after its release. -/
theorem startRetired_released (l : List RetRec) :
    startRetired (l.map fun (r : RetRec) => if r.state = 2 then { r with state := 1 } else r) = startRetired l := by
  induction l with
  | nil => rfl
  | cons r l ih =>
    unfold startRetired at ih ⊢
    rw [List.map_cons, List.filter_cons, List.filter_cons]
    by_cases h2 : r.state = 2
    · simp [h2, ih]
    · rw [if_neg h2]
      split
      · rw [List.map_cons, List.map_cons, ih]
      · exact ih

/-- The cores of a cluster that failed the self-test, where one ran. -/
def Bundle.badCores (b : Bundle) (l : List (Fin 192)) (c : Nat) : List Nat :=
  let bad := if b.coreSelftest || !b.sectionApplied then l.map (·.val) else []
  (List.range 6).filter fun j => bad.contains (6 * c + j)

/-- The clusters of the configuration. -/
def State.configured (s : State) (b : Bundle) (l : List (Fin 192)) : State :=
  forEach (List.range 32) (fun s c => s.setDuties b c (b.badCores l c)) s

/-- The power limits, the retirement list and the firmware cores of the configuration. -/
def State.applied (s : State) (b : Bundle) : State :=
  let s := s.modPower fun p => { p with capW := b.capW, cfgCapW := b.capW, windowMs := 1000 }
  let s := s.modFlash fun (f : Flash) => { f with
    retire := f.retire.map fun (r : RetRec) => if r.state = 2 then { r with state := 1 } else r }
  let s := s.modMem fun m => { m with
    retired := startRetired s.flash.retire
    softRepairs := m.softRepairs + (s.flash.retire.filter fun r => r.state == 3).length }
  let both := (lookupHub s.boot.hubTested 0).getD false && (lookupHub s.boot.hubTested 1).getD false
  let idOk := (lookupHub s.boot.identity (1 - s.boot.leadHub)).getD false
  (s.modBoot fun x => { x with
    standbyReady := both && idOk
    ccRunning := (List.range 32).filter fun c => !b.clusterDisable.testBit c }).setStage 8

theorem configApply_eq {b : Bundle} {l : List (Fin 192)} (hb : s.boot.bundle = some b) (h7 : s.boot.stage = 7) :
    exec (.configApply l) s = .next ((s.configured b l).applied b) := by
  change execConfigApply l s = _
  unfold execConfigApply
  rw [hb]
  exact if_neg (not_not.2 h7)

theorem State.configured_flash (s : State) (b : Bundle) (l : List (Fin 192)) : (s.configured b l).flash = s.flash :=
  forEach_keep (g := State.flash) (fun s c => s.setDuties_flash b c _) _ _

theorem State.applied_spec (s : State) (b : Bundle) : (s.applied b).boot.stage = 8 ∧ (s.applied b).power.capW = b.capW
    ∧ (s.applied b).power.windowMs = 1000 ∧ (s.applied b).mem.retired = startRetired s.flash.retire
    ∧ (s.applied b).clusters = s.clusters :=
  ⟨rfl, rfl, rfl, startRetired_released s.flash.retire, rfl⟩

theorem moduleReady_eq (h8 : s.boot.stage = 8) (h : ∀ a, a < 3 → (s.axis a).loopAt.isSome = true) : exec .moduleReady s
    = .next ((s.modBoot fun b => { b with
        stage9At := s.now, stage9Local := s.clock, readyLocal := s.clock, loadPort := none }).setStage 9) :=
  if_pos ⟨h8, List.all_eq_true.2 fun a ha => h a (List.mem_range.1 ha)⟩

theorem startTimeout_eq (h5 : 5 ≤ s.boot.stage) (h9 : s.boot.stage < 9) (ht : s.boot.loadAt + 90000000000 ≤ s.clock) :
    exec .startTimeout s = .next (s.backToStage3 0x000D) := if_pos ⟨h5, h9, ht⟩

end

end Sys2Proof.Machine

open Sys2Proof Sys2Proof.Machine

/-- Settles O17: a load begins, ends, or hands over the bundle that it verified. -/
theorem bundleIsPulledAndVerified : Obligations.BundleIsPulledAndVerified := by
  intro q s
  refine ⟨fun h3 hid hl hp ha hlo hhi => ?_, fun hp h4 => ?_, fun hp h3 hdone => bundlePullDone_eq hp h3 hdone,
      fun hp h4 => ?_⟩
  · have hport : (s.beginLoad q.val).bootPort q.val = { s.bootPort q.val with
        busy := true, failed := false, error := 0, bytesDone := 0 } :=
      s.modBootPort_bootPort q.val fun b => { b with busy := true, failed := false, error := 0, bytesDone := 0 }
    exact ⟨_, load_eq h3 hid hl hp ha hlo hhi, rfl, congrArg BootPort.busy hport, congrArg BootPort.error hport, rfl⟩
  · obtain ⟨hstage, hport, -⟩ := State.endLoad_boot hp 0x000E
    have hreg := State.endLoad_bootPort hp 0x000E
    exact ⟨_, abandon_eq hp h4, hstage, hport, congrArg BootPort.error hreg, congrArg BootPort.failed hreg,
      State.endLoad_zeroes hp 0x000E⟩
  · intro l
    split
    next b hv =>
      refine ⟨_, bundleVerify_ok hp h4 hv, rfl, rfl, rfl, ?_, rfl⟩
      exact congrArg BootPort.busy (s.modBootPort_bootPort q.val fun x => { x with busy := false })
    next e hv =>
      obtain ⟨hstage, -, hbundle, hfw⟩ := State.endLoad_boot hp e
      exact ⟨_, bundleVerify_error hp h4 hv, hstage, congrArg BootPort.error (State.endLoad_bootPort hp e), hfw, hbundle⟩

/-- Settles O18: each stage sets its own state; the start that ends returns with its error. -/
theorem stagesSixToNine : Obligations.StagesSixToNine := by
  intro s
  refine ⟨fun h5 => ?_, fun f h6 => ⟨fun hall => ?_, fun hall => ?_⟩, fun b bad hb h7 => ?_, fun h8 h => ?_,
      fun h5 h9 ht => ?_⟩
  · exact ⟨s.nominal, if_pos h5, rfl, s.nominal_isle, rfl⟩
  · exact ⟨_, memoryTrained_eq h6 hall, rfl, rfl, fun a hlo hhi => (State.zeroMem_spec _ _ 0x2000000 a).trans (if_pos ⟨hlo,
      hhi⟩)⟩
  · obtain ⟨hstage, hfw, -, herr⟩ := s.backToStage3_spec 0x000C
    exact ⟨_, memoryTrained_lost h6 hall, hstage, hfw, herr⟩
  · obtain ⟨hstage, hcap, hwin, hret, hcl⟩ := (s.configured b bad).applied_spec b
    rw [s.configured_flash b bad] at hret
    refine ⟨_, configApply_eq hb h7, hstage, hcap, hwin, hret, fun c hc => ?_⟩
    rw [State.cluster, hcl]
    exact forEach_setDuties b (b.badCores bad) (List.range 32) s c (.inl (List.mem_range.2 hc))
  · exact ⟨_, moduleReady_eq h8 h, rfl, rfl, rfl⟩
  · exact ⟨_, startTimeout_eq h5 h9 ht, s.backToStage3_spec 0x000D⟩
end

section
/-! PROOFS. Self-tests and calibrations (R421 to R424). -/

namespace Sys2Proof.Machine

/-! ### What the end of a test leaves -/

section
variable (s : State)

theorem State.postOwner_still (o : Option Nat) (code sev place : Nat) (d : List Byte) :
    (s.postOwner o code sev place d).still = s.still := State.still_of_quiet (s.quiet_postOwner o code sev place d)

theorem State.testEnd_still (c : Cmd) (level tested : Nat) (bad : List Nat) : (s.testEnd c level tested bad).still = s.still := by
  unfold State.testEnd
  dsimp only
  split
  · rw [State.still_finish, State.postOwner_still]
  · rw [State.still_fail, State.postOwner_still]

theorem State.testEnd_cmd {s : State} {id op : Nat} {c : Cmd} (hd : s.due id op c) (t : State) (level tested : Nat) (bad : List Nat) :
    (t.testEnd c level tested bad).cmd id = none := by
  unfold State.testEnd
  dsimp only
  split
  · exact State.finish_cmd_of_due hd ..
  · rw [← State.cmd_serial hd.1]
    exact State.complete_cmd_self ..

/-! ### The cores that a test retires -/

/-- Whether a core is retired, and whether it has passed its self-test. -/
def State.grade (p : Nat) : Bool × Bool := ((s.core p).retired, (s.core p).passed)

theorem State.grade_of_base {s t : State} (h : t.base = s.base) (p : Nat) : t.grade p = s.grade p := by
  have hc : t.cores = s.cores := (congrArg State.cores h :)
  unfold State.grade State.core
  rw [hc]

theorem State.grade_modCore (p q : Nat) (f : Core → Core) :
    (s.modCore p f).grade q = if q = p then ((f (s.core p)).retired, (f (s.core p)).passed) else s.grade q := by
  split
  next h => subst h; rw [State.grade, State.modCore_self]
  next h => rw [State.grade, State.modCore_ne _ _ h]; rfl

/-- A window that is unmapped changes no verdict on a core. -/
theorem State.unmapWindow_grade (p q : Nat) : (s.unmapWindow p).grade q = s.grade q := by
  have hcore : (s.modCore p fun k => { k with unmapped := true }).grade q = s.grade q := by
    rw [State.grade_modCore]
    split
    next h => rw [h]; rfl
    next => rfl
  unfold State.unmapWindow
  dsimp only
  split <;> exact hcore

/-- A core that fails its self-test is retired, and no verdict on another core changes. -/
theorem State.coreOut_grade (p q : Nat) : (s.coreOut p 2 true).grade q = if q = p then (true, false) else s.grade q := by
  unfold State.coreOut
  extract_lets c j k s₁ s₂ s₃ s₄ s₅ s₆
  split
  · rw [State.grade_modCore]
    simp
  · have h₁ : s₁.grade q = if q = p then (true, false) else s.grade q := by
      unfold s₁
      rw [State.grade_modCore, State.grade_of_base (s.dropCoreWork_base p)]
    have h₂ : s₂.grade q = s₁.grade q := State.grade_of_base (s₁.postOwner_base ..) q
    have hlost : ∀ (t : State) (r : Nat), (t.replayLost r).grade q = t.grade q := fun t r =>
      State.grade_of_base (t.replayLost_base r) q
    have hcluster : ∀ f : Cluster → Cluster, (s₂.modCluster c f).grade q = s₂.grade q := fun f =>
      State.grade_of_base (s₂.modCluster_base c f) q
    have h₃ : s₃.grade q = s₂.grade q := by
      unfold s₃
      split
      · rw [hlost, State.unmapWindow_grade]
      split
      · split
        · rw [hlost, State.unmapWindow_grade, hcluster]
        · exact hcluster _
      split
      · rw [hlost, hcluster]
      · rw [hlost, State.unmapWindow_grade]
    have h₄ : s₄.grade q = s₃.grade q := by
      unfold s₄
      split
      · split
        · exact s₃.unmapWindow_grade ..
        · rfl
      · rfl
    have h₆ : s₆.grade q = s₄.grade q := (State.grade_of_base (s₅.moversGone_base ..) q).trans rfl
    have hall : s₆.grade q = if q = p then (true, false) else s.grade q := h₆.trans (h₄.trans (h₃.trans (h₂.trans h₁)))
    split
    · exact hall
    · exact (State.grade_of_base (s₆.clusterOut_base c) q).trans hall

theorem State.retireLane_base (l i : Nat) : (s.retireLane l i).base = s.base := by
  have hplan : ∀ (t : State) (a : BitVec 16), (t.planLanes l a).base = t.base := fun t a => by
    unfold State.planLanes
    dsimp only
    split
    · rfl
    · split
      · exact t.linkDown_base l 3
      · rfl
  unfold State.retireLane
  extract_lets now x times parks s₁ s₂ s₃
  have h₃ : s₃.base = s₂.base := by
    unfold s₃
    split
    · exact s₂.linkEvent_base ..
    · rfl
  rw [State.ownLanes, hplan, State.emit_base, h₃]
  rfl

theorem State.testFailed_grade (u q : Nat) (hq : q < 4096) :
    (s.testFailed u).grade q = if q = u then (true, false) else s.grade q := by
  unfold State.testFailed
  dsimp only
  split
  next h0 =>
    have hu : u % 4096 = u := Nat.mod_eq_of_lt (by omega)
    rw [hu, State.coreOut_grade]
  next h => rw [if_neg (by omega)]; exact State.grade_of_base (s.retireLane_base ..) q
  next h => rw [if_neg (by omega)]; exact State.grade_of_base (s.clusterOut_base _) q
  next h0 _ _ => rw [if_neg (fun he => h0 (by omega))]

/-- The failing units are treated one after another: their cores are retired, the other verdicts stand. -/
theorem forEach_testFailed (l : List Nat) (s : State) {q : Nat} (hq : q < 4096) :
    (forEach l State.testFailed s).grade q = if q ∈ l then (true, false) else s.grade q := by
  induction l generalizing s with
  | nil => rfl
  | cons u l ih =>
    rw [forEach_cons, ih, State.testFailed_grade _ _ _ hq]
    by_cases h : q = u <;> simp [h]

/-- The cores that pass, and the clusters that have been tested. -/
def State.passCores (l : List Nat) : State := forEach l (fun s p => s.modCore p fun k => { k with passed := true }) s
def State.passClusters (l : List Nat) : State :=
  forEach l (fun s u => s.modCluster (u % 4096) fun k => { k with selfTested := true }) s

theorem State.passCores_grade (l : List Nat) (s : State) (q : Nat) :
    (s.passCores l).grade q = if q ∈ l then ((s.core q).retired, true) else s.grade q := by
  unfold State.passCores
  induction l generalizing s with
  | nil => rfl
  | cons p l ih =>
    have hret : ((s.modCore p fun k => { k with passed := true }).core q).retired = (s.core q).retired := by
      by_cases h : q = p
      · rw [h, State.modCore_self]
      · rw [State.modCore_ne _ _ h]
    rw [forEach_cons, ih, hret, State.grade_modCore]
    by_cases h : q = p
    · subst h; simp
    · simp [h]

theorem State.passClusters_cores (l : List Nat) : (s.passClusters l).cores = s.cores :=
  forEach_keep (g := State.cores) (fun s _ => s.modCluster_cores ..) l s

theorem State.passClusters_tested {l : List Nat} {u : Nat} (hu : u ∈ l) :
    ((s.passClusters l).cluster (u % 4096)).selfTested = true := by
  unfold State.passClusters
  have hkeep : ∀ (l : List Nat) (s : State), (s.cluster (u % 4096)).selfTested = true →
      ((forEach l (fun s u => s.modCluster (u % 4096) fun k => { k with selfTested := true }) s).cluster (u % 4096)).selfTested
        = true := fun l s => forEach_inv (P := fun s : State => (s.cluster (u % 4096)).selfTested = true) (fun s v hs => by
      by_cases hv : u % 4096 = v % 4096
      · rw [hv, State.modCluster_self]
      · rw [State.modCluster_ne _ _ hv]; exact hs) l s
  induction l generalizing s with
  | nil => exact absurd hu List.not_mem_nil
  | cons v l ih =>
    rcases List.mem_cons.1 hu with rfl | hm
    · exact hkeep l _ (by rw [State.modCluster_self])
    · exact ih _ hm

end

/-! ### The levels of a self-test (R422, R424) -/

section
variable {c : Cmd} {s : State}

def Cmd.testWord (c : Cmd) : Nat := if c.expert = true then c.word 0 else 0

theorem selftestBody_basic (h : bits c.testWord 1 0 = 0) :
    selftestBody [] s c = .ok (s.testEnd c 0 (s.basicUnits (s.pav c.pavilion)).length []) := by
  unfold Cmd.testWord at h
  have hnone : ∀ l : List Nat, l.filter ([] : List Nat).contains = [] := fun l => List.filter_eq_nil_iff.2 (by simp)
  unfold selftestBody
  dsimp only
  rw [h, need_bind (show ((0 : Nat) != 3) = true from rfl), if_neg (by decide), if_pos rfl]
  dsimp only
  rw [hnone, forEach_nil, ite_self, if_pos rfl, if_pos rfl]

/-- The module once the failing units of the full level are treated and the others have passed. -/
def State.graded (s : State) (c : Cmd) (failures l : List Nat) : State :=
  let bad := l.filter failures.contains
  let t := if bitAt c.testWord 8 = true then s else forEach bad State.testFailed s
  (t.passCores (l.filter fun u => decide (u < 192) && !bad.contains u)).passClusters
    (l.filter fun u => u / 4096 == 2 && !bad.contains u)

theorem selftestBody_full {failures l : List Nat} (h : bits c.testWord 1 0 = 1) (hl : s.fullUnits c = some l) :
    selftestBody failures s c = .ok ((s.graded c failures l).testEnd c 1 l.length (l.filter failures.contains)) := by
  unfold Cmd.testWord at h
  unfold selftestBody
  dsimp only
  rw [h, need_bind (show ((1 : Nat) != 3) = true from rfl), if_neg (by decide), if_neg (by decide), hl]
  rfl

theorem State.graded_cores (failures l : List Nat) {u : Nat} (hu : u ∈ l) (h192 : u < 192)
    (hk : bitAt c.testWord 8 = false ∨ failures = []) : ((s.graded c failures l).core u).passed = !failures.contains u
      ∧ (u ∈ failures → ((s.graded c failures l).core u).retired = true) := by
  unfold State.graded
  extract_lets bad t
  have ht : t.grade u = if u ∈ bad then (true, false) else s.grade u := by
    unfold t
    rcases hk with hk | hk
    · rw [if_neg (by rw [hk]; exact Bool.false_ne_true), forEach_testFailed bad s (by omega)]
    · have hbad : bad = [] := List.filter_eq_nil_iff.2 (by rw [hk]; simp)
      rw [hbad, forEach_nil, ite_self, if_neg List.not_mem_nil]
  have hgrade := State.passCores_grade (l.filter fun u => decide (u < 192) && !bad.contains u) t u
  have hcore : ∀ m, ((t.passCores (l.filter fun u => decide (u < 192) && !bad.contains u)).passClusters m).core u
      = (t.passCores (l.filter fun u => decide (u < 192) && !bad.contains u)).core u := fun m => by
    rw [State.core, State.passClusters_cores]; rfl
  rw [hcore]
  by_cases hf : u ∈ failures
  · have hbad : u ∈ bad := List.mem_filter.2 ⟨hu, List.contains_iff_mem.2 hf⟩
    rw [if_neg (by simp [hbad]), ht, if_pos hbad] at hgrade
    refine ⟨?_, fun _ => congrArg Prod.fst hgrade⟩
    rw [List.contains_iff_mem.2 hf]
    exact congrArg Prod.snd hgrade
  · have hbad : u ∉ bad := fun hm => hf (List.contains_iff_mem.1 (List.mem_filter.1 hm).2)
    rw [if_pos (by simp [hbad, hu, h192])] at hgrade
    refine ⟨?_, fun hm => absurd hm hf⟩
    rw [Bool.eq_false_iff.2 fun hc => hf (List.contains_iff_mem.1 hc)]
    exact congrArg Prod.snd hgrade

theorem State.graded_clusters (l : List Nat) {u : Nat} (hu : u ∈ l) (h2 : u / 4096 = 2) :
    ((s.graded c [] l).cluster (u % 4096)).selfTested = true :=
  State.passClusters_tested _ (List.mem_filter.2 ⟨hu, by simp [h2]⟩)

/-- A loopback: the axis has passed now, or it has not. -/
def State.looped (s : State) (a : Nat) (failures : List Nat) : State :=
  s.modAxis a fun x => { x with loopAt := if (failures.filter (· == 0x5000 + a)).isEmpty = true then some s.clock else none }

theorem selftestBody_loop {failures : List Nat} (h : bits c.testWord 1 0 = 2) (h5 : c.target / 4096 = 5)
    (ho : (s.axis (c.target % 4096 % 3)).isOpen = false) : selftestBody failures s c
      = .ok ((s.looped (c.target % 4096 % 3) failures).testEnd c 2 1 (failures.filter (· == 0x5000 + c.target % 4096 % 3))) := by
  unfold Cmd.testWord at h
  unfold selftestBody
  dsimp only
  rw [h, need_bind (show ((2 : Nat) != 3) = true from rfl), if_pos rfl, need_bind (beq_iff_eq.2 h5),
      need_bind (by rw [ho]; rfl)]
  rfl

theorem State.looped_axis (s : State) (a : Nat) (failures : List Nat) : ((s.looped a failures).axis a).loopAt
    = if failures.contains (0x5000 + a) = true then none else some s.clock := by
  rw [State.looped, State.modAxis_self]
  dsimp only
  by_cases h : 0x5000 + a ∈ failures
  · rw [if_pos (List.contains_iff_mem.2 h), if_neg]
    rw [List.isEmpty_iff, List.filter_eq_nil_iff]
    exact fun hn => hn _ h (beq_self_eq_true _)
  · rw [if_neg fun hc => h (List.contains_iff_mem.1 hc), if_pos]
    rw [List.isEmpty_iff, List.filter_eq_nil_iff]
    exact fun x hx he => h (beq_iff_eq.1 he ▸ hx)

/-! ### Calibrations (R423, R424) -/

theorem calibrateBody_idle {f : Nat} (h : c.target / 4096 = 6 ∧ s.dieIdle (c.target % 4096 / 4) = true
      ∨ c.target / 4096 = 7 ∧ s.hubWindowIdle (c.target % 4096 / 12) = true) :
    calibrateBody f s c = .ok (s.finish c (pack [(4, 0), (4, 0), (4, 0)])) := by
  unfold calibrateBody
  dsimp only
  rcases h with ⟨h, hi⟩ | ⟨h, hi⟩ <;> rw [h] <;> exact need_bind hi

/-- The lanes that a calibration names. -/
def Cmd.calLanes (c : Cmd) : List (Nat × Nat) :=
  let m := if c.expert = true then bits (c.word 0) 31 0 else 0
  (if c.target = 0 then List.range 6 else [c.target % 4096]).flatMap fun l =>
    ((List.range (linkWidth l)).filter fun j => m == 0 || m.testBit j).map fun j => (l, j)

theorem calibrateBody_optical {f done back left : Nat} {t : State} (h : c.target = 0 ∨ c.target / 4096 = 5)
    (hf : c.calLanes.foldl (fun a x => State.calibrateLane a x.1 x.2 (f.testBit (32 * x.1 + x.2))) (s, 0, 0, 0)
      = (t, done, back, left)) : calibrateBody f s c = .ok (t.finish c (pack [(4, done), (4, back), (4, left)])) := by
  have hopt : (c.target == 0 || c.target / 4096 == 5) = true := by
    rcases h with h | h <;> simp [h]
  unfold Cmd.calLanes at hf
  unfold calibrateBody
  dsimp only
  split
  next h6 => omega
  next h7 => omega
  next => rw [need_bind hopt, hf]

end

end Sys2Proof.Machine

open Sys2Proof Sys2Proof.Machine

/-- Settles O54: the verdicts on cores follow the list of failures, and the end of the test leaves them. -/
theorem selfTestsAndCalibrationsReport : Obligations.SelfTestsAndCalibrationsReport := by
  intro id c s w
  have hcores : ∀ (t : State) n m bad p, ((t.testEnd c n m bad).core p) = t.core p := fun t n m bad p => by
    rw [State.core, State.cores_of_still (t.testEnd_still c n m bad)]; rfl
  refine ⟨fun hd => ⟨fun h => ?_, fun l h hl => ?_, fun l failures h hl hk => ?_, fun failures h h5 ho => ?_⟩,
    fun hd => ⟨fun h f => ?_, fun f t done back left h => ?_⟩⟩
  · exact congrArg Host.Outcome.next (State.startCmd_ok hd (selftestBody_basic h))
  · refine ⟨_, congrArg Host.Outcome.next (State.startCmd_ok hd (selftestBody_full h hl)), State.testEnd_cmd hd ..,
      fun u hu h192 => ?_, fun u hu h2 => ?_⟩
    · rw [hcores]
      exact (State.graded_cores [] l hu h192 (.inr rfl)).1
    · rw [State.cluster, State.clusters_of_still (State.testEnd_still ..)]
      exact State.graded_clusters l hu h2
  · refine ⟨_, congrArg Host.Outcome.next (State.startCmd_ok hd (selftestBody_full h hl)), State.testEnd_cmd hd ..,
      fun u hu h192 => ?_⟩
    rw [hcores]
    exact State.graded_cores failures l hu h192 (.inl hk)
  · refine ⟨_, congrArg Host.Outcome.next (State.startCmd_ok hd (selftestBody_loop h h5 ho)), State.testEnd_cmd hd .., ?_⟩
    rw [State.axis, State.axes_of_still (State.testEnd_still ..)]
    exact s.looped_axis ..
  · exact congrArg Host.Outcome.next (State.startCmd_ok hd (calibrateBody_idle h))
  · intro m links lanes hf
    exact congrArg Host.Outcome.next (State.startCmd_ok hd (calibrateBody_optical h hf))
end

section
/-! PROOFS. The folds of the counters and the reading of counters and logs (R491 to R499). -/

namespace Sys2Proof.Machine

/-! ### Folds (R491 to R493) -/

theorem State.foldClass_ctr {s : State} {b : Bool} {n id : Nat} {x : Ctr} (hx : tfind s.ctrs id = some x) (hc : classB id = b)
    (hup : s.folderUp (ctrFolder id) = true) (hlt : ctrFolder id < 33)
    (hdue : (tget s.folds (2 * ctrFolder id + b2n b) (0, 0)).2 + n ≤ s.clock) :
    tfind (s.foldClass b n).ctrs id = some (x.fold s.now s.clock) := by
  have hmem : ((List.range 33).filter fun f => s.folderUp f && decide ((tget s.folds (2 * f + b2n b) (0,
      0)).2 + n ≤ s.clock)).contains
      (ctrFolder id) = true :=
    List.contains_iff_mem.2 (List.mem_filter.2 ⟨List.mem_range.2 hlt, by rw [hup, decide_eq_true hdue]; rfl⟩)
  unfold State.foldClass
  dsimp only
  rw [tfind_tmap, hx]
  exact congrArg some (if_pos (Bool.and_eq_true_iff.2 ⟨beq_iff_eq.2 hc, hmem⟩))

theorem evCounterLost_eq {s : State} {id : Nat} (he : ctrExists id = true) (hl : (tget s.ctrs id {}).lost = false)
    (ht : (s.lastFold id).2 + (if classB id = true then 200000000000 else 86400000000000) < s.clock) :
    exec (.evCounterLost id) s = .next ({ s with
      ctrs := tset s.ctrs id { tget s.ctrs id {} with lost := true } }.postModule 0x0D02 1 0xFFFF (pack [(4, id)])) := by
  refine if_neg ?_
  rw [he, hl, decide_eq_false (not_le.2 ht)]
  decide

/-! ### COUNTERS_READ (R498) -/

section
variable {c : Cmd} {s : State}

/-- The counters that a COUNTERS_READ names, and those it has room for. -/
def State.ctrsNamed (s : State) (c : Cmd) : List Nat := s.ctrScope c (if c.expert = true then bits (c.word 1) 15 0 else 0)
def State.ctrsRead (s : State) (c : Cmd) : List Nat :=
  let limit := if c.expert = true then bits (c.word 2) 31 0 else 0
  if limit = 0 then s.ctrsNamed c else (s.ctrsNamed c).take limit

/-- The module once the counters named have been folded, where the command asks for it. -/
def State.refolded (s : State) (c : Cmd) : State :=
  if (!c.expert || bitAt (c.word 1) 16) = true then
    { s with ctrs := (s.ctrsRead c).foldl (fun t id => tset t id ((tget t id {}).fold s.now s.clock)) s.ctrs }
  else s

theorem State.refolded_takes {a n : Nat} (h : s.takes c a n) : (s.refolded c).takes c a n := by
  unfold State.refolded
  split
  · exact h
  · exact h

theorem State.refolded_now (s : State) (c : Cmd) : (s.refolded c).now = s.now := by
  unfold State.refolded
  split <;> rfl

theorem bodyCountersRead_ok (ha : c.word 0 % 32 = 0)
    (hr : s.badRange c.port c.fn (c.word 0) (max 1 (32 * (s.ctrsRead c).length)) = none)
    (ht : s.takes c (c.word 0) (32 * (s.ctrsRead c).length)) : bodyCountersRead s c
      = .ok (((s.refolded c).writeMem (c.word 0) ((s.ctrsRead c).flatMap (s.refolded c).ctrRecord)).finish c
          (pack [(4, (s.ctrsRead c).length), (4, (s.ctrsNamed c).length), (8, s.now)])) := by
  have hlen : ((s.ctrsRead c).flatMap (s.refolded c).ctrRecord).length = 32 * (s.ctrsRead c).length := by
    rw [flatMap_length_of_const (f := (s.refolded c).ctrRecord) (n := 32) fun _ => leBytes_length 32 _, Nat.mul_comm]
  have hbuf := State.toBuffer_ok (i := 0) (l := (s.ctrsRead c).flatMap (s.refolded c).ctrRecord) ha
    (hlen.symm ▸ State.refolded_takes ht)
  have hok : s.checkAddr c 0 (c.word 0) (max 1 (32 * (s.ctrsRead c).length)) 32 = .ok () := State.checkAddr_ok ha hr
  rw [← s.refolded_now c]
  refine (congrArg (· >>= fun _ => ?_) hok).trans ?_
  exact congrArg (· >>= fun t => .ok (t.finish c
    (pack [(4, (s.ctrsRead c).length), (4, (s.ctrsNamed c).length), (8, (s.refolded c).now)]))) hbuf

/-! ### LOG_READ (R499) -/

/-- The ring entries and all entries that a LOG_READ gives of a log. -/
def Cmd.logSticky (c : Cmd) (l : LogView) : List (List Byte) := if c.expert = true then [] else l.sticky.toList
def Cmd.logRing (c : Cmd) (l : LogView) : List (Nat × List Byte) :=
  if c.expert = true then (l.ring.filter fun e => decide (c.word 2 ≤ e.1)).take (bits (c.word 1) 63 32)
  else l.ring.drop (l.ring.length - (bits (c.word 1) 63 32 - (c.logSticky l).length))
def Cmd.logOut (c : Cmd) (l : LogView) : List (List Byte) := c.logSticky l ++ (c.logRing l).map (·.2)

theorem bodyLogRead_ok {l : LogView} (hl : s.logView c (bits (c.word 1) 1 0) = some l) (hn : 1 ≤ bits (c.word 1) 63 32)
    (ha : c.word 0 % 64 = 0) (hr : s.badRange c.port c.fn (c.word 0) (max 1 (64 * (c.logOut l).length)) = none)
    (ht : s.takes c (c.word 0) (c.logOut l).flatten.length) : bodyLogRead s c
      = .ok ((s.writeMem (c.word 0) (c.logOut l).flatten).finish c (pack [(4, (c.logOut l).length), (4, 0),
          (8, ((c.logRing l).head?.map (·.1)).getD l.next), (8, l.next), (8, l.lost)])) := by
  have hok : s.checkAddr c 0 (c.word 0) (max 1 (64 * (c.logOut l).length)) 64 = .ok () := State.checkAddr_ok ha hr
  have hbuf := State.toBuffer_ok (i := 0) (l := (c.logOut l).flatten) ha ht
  unfold bodyLogRead
  dsimp only
  rw [need_bind (decide_eq_true hn), hl]
  refine (congrArg (· >>= fun _ => ?_) hok).trans ?_
  exact congrArg (· >>= fun t => .ok (t.finish c (pack [(4, (c.logOut l).length), (4, 0),
    (8, ((c.logRing l).head?.map (·.1)).getD l.next), (8, l.next), (8, l.lost)]))) hbuf

end

end Sys2Proof.Machine

open Sys2Proof Sys2Proof.Machine

/-- Settles O55: a fold maps over the counters of its class; the reads pass their checks and write what they name. -/
theorem countersFoldAndLogsAreRead : Obligations.CountersFoldAndLogsAreRead := by
  intro s
  refine ⟨fun b => ?_, fun id he hl ht => evCounterLost_eq he hl ht, fun id c hd => ?_, fun id c l hd hl => ?_⟩
  · cases b with
    | true => exact ⟨_, rfl, fun id x hx hc hup hlt hdue => State.foldClass_ctr hx hc hup hlt hdue⟩
    | false => exact ⟨_, rfl, fun id x hx hc hup hlt hdue => State.foldClass_ctr hx hc hup hlt hdue⟩
  · intro mask limit all ids u ha hr ht
    exact congrArg Host.Outcome.next (State.startCmd_ok hd (bodyCountersRead_ok ha hr ht))
  · intro n sticky ring out hn ha hr ht
    exact congrArg Host.Outcome.next (State.startCmd_ok hd (bodyLogRead_ok hl hn ha hr ht))
end

section

/-! PROOFS. Completions from the hosts (O36): a piece that arrives is written where the pull or the descriptor wants it, and
what a request that fails ends. -/

namespace Sys2Proof.Machine

/-- What a piece leaves in memory, where no page under it is retired. -/
theorem State.writeMem_fit {s : State} {a len : Nat} (l : List Byte) (hwf : s.memWf = true)
    (hr : ∀ p ∈ s.mem.retired, overlaps p 4096 a len = false) :
    cellsGet (s.writeMem a (fit len l)).mem.cells a len = fit len l
      ∧ ∀ x, x < a ∨ a + len ≤ x → cellGet (s.writeMem a (fit len l)).mem.cells x = cellGet s.mem.cells x := by
  have hlen : (fit len l).length = len := slice_length l 0 len
  have h := State.writeMem_spec a (fit len l) hwf (by simpa [hlen] using hr)
  rw [hlen] at h
  exact h

@[simp] theorem State.hostRequest_mem (s : State) (q : Nat) (cmd : Option Nat) (a n : Nat) :
    (s.hostRequest q cmd a n).mem = s.mem := rfl
@[simp] theorem State.hostRequest_bootPort (s : State) (q : Nat) (cmd : Option Nat) (a n p : Nat) :
    (s.hostRequest q cmd a n).bootPort p = s.bootPort p := rfl
@[simp] theorem State.requestPiece_mem (s : State) (c : Cmd) (i : Nat) (d : Desc) (k : Nat) :
    (s.requestPiece c i d k).mem = s.mem := rfl

theorem State.writeMem_bootPort (s : State) (a : Nat) (l : List Byte) (q : Nat) :
    (s.writeMem a l).bootPort q = s.bootPort q := by
  unfold State.writeMem
  split <;> rfl

@[simp] theorem State.movedBytes_mem (s : State) (id i r w : Nat) : (s.movedBytes id i r w).mem = s.mem := by
  unfold State.movedBytes
  split
  · rfl
  · simp [State.modJob]

/-- A piece of the bundle is written behind those that came, and counted. -/
theorem State.placePull_mem (s : State) (q : Nat) (l : List Byte) : (s.placePull q l).mem
    = (s.writeMem (dieStoreAddr s.boot.stagingDie + (s.bootPort q).bytesDone) l).mem := by
  unfold State.placePull
  dsimp only
  split <;> rfl

theorem State.placePull_bytesDone (s : State) (q : Nat) (l : List Byte) :
    ((s.placePull q l).bootPort q).bytesDone = (s.bootPort q).bytesDone + l.length := by
  have h : ∀ t : State, t.bootPort q = s.bootPort q → (((t.modBootPort q fun b => { b with
      bytesDone := b.bytesDone + l.length }).bootPort q).bytesDone = (s.bootPort q).bytesDone + l.length) := by
    intro t ht
    rw [State.modBootPort_bootPort, ht]
  unfold State.placePull
  dsimp only
  split
  · exact h _ (State.writeMem_bootPort ..)
  · exact h _ (State.writeMem_bootPort ..)

/-- A piece of a descriptor that is not its last is written at its place in the destination. -/
theorem State.placeHostPiece_mem {s : State} {c : Cmd} {j : MoveJob} {i k : Nat} {l : List Byte} {d : Desc}
    (hd : j.descs[i]? = some d) (hdst : d.hostDst = false)
    (hok : s.partialBad (d.dstRowAddr (k / d.rowBytes) + k % d.rowBytes) l.length = none) (hmore : k + l.length < d.total) :
    (s.placeHostPiece c j i k l).mem = (s.writeMem (d.dstRowAddr (k / d.rowBytes) + k % d.rowBytes) l).mem := by
  unfold State.placeHostPiece
  simp [hd, hdst, hok, hmore, State.putDst]
  rfl

/-- A job that is dropped is gone. -/
theorem State.dropJob_job (s : State) (c : Cmd) : (s.dropJob c).job c.serial = none := by
  unfold State.dropJob
  split
  · assumption
  · simp [State.job]

/-- A command whose job fails leaves neither. -/
theorem State.failJob_cmd (s : State) (c : Cmd) (st place low : Nat) (l : List Byte) :
    (s.failJob c st place low l).cmd c.serial = none :=
  State.complete_cmd_self ..

theorem State.failJob_job (s : State) (c : Cmd) (st place low : Nat) (l : List Byte) :
    (s.failJob c st place low l).job c.serial = none :=
  (congrArg (List.find? fun j : MoveJob => j.cmd == c.serial) (State.fail_moves (s := s.dropJob c) c st place low l)).trans
    (s.dropJob_job c)

/-- A failed request of the pull ends it with the error 0x0002. -/
theorem State.requestFailed_pull {s : State} {q : Nat} (hp : s.boot.loadPort = some q) (addr st : Nat) :
    (s.requestFailed q none addr st).boot.stage = 3 ∧ ((s.requestFailed q none addr st).bootPort q).error = 0x0002 := by
  have h : s.requestFailed q none addr st = s.endLoad 0x0002 := if_pos hp
  rw [h]
  exact ⟨(State.endLoad_boot hp 0x0002).1, congrArg BootPort.error (State.endLoad_bootPort hp 0x0002)⟩

/-- A failed request of a descriptor ends its command. -/
theorem State.requestFailed_cmd {s : State} {id : Nat} {c : Cmd} {j : MoveJob} (hc : s.cmd id = some c)
    (hj : s.job id = some j) (q addr st : Nat) :
    (s.requestFailed q (some id) addr st).cmd id = none ∧ (s.requestFailed q (some id) addr st).job id = none := by
  have h : s.requestFailed q (some id) addr st
      = s.failJob c st (placePort q) 0xFFFF (if st = 0x0202 then pack [(8, addr)] else []) := by
    unfold State.requestFailed
    simp only [hc, hj]
  obtain rfl : c.serial = id := State.cmd_serial hc
  rw [h]
  exact ⟨s.failJob_cmd .., s.failJob_job ..⟩

section
variable {s : State} {q : Fin 2} {tag a len sent : Nat}

theorem hostCompletion_unknown (h : (s.port q.val).requests.find? (fun r => r.1 == tag) = none) (x : HostCpl) :
    exec (.hostCompletion q tag x) s = .next (s.emit (.unexpectedCompletion q.val)) := by
  change execHostCompletion q tag x s = _
  unfold execHostCompletion
  dsimp only
  rw [h]

theorem hostCompletion_pull (h : (s.port q.val).requests.find? (fun r => r.1 == tag) = some (tag, none, a, len, sent))
    (hp : s.boot.loadPort = some q.val) (l : List Byte) :
    exec (.hostCompletion q tag (.ok l)) s = .next ((s.dropRequest q.val tag).placePull q.val (fit len l)) := by
  change execHostCompletion q tag (.ok l) s = _
  unfold execHostCompletion
  dsimp only
  rw [h]
  exact congrArg Host.Outcome.next (if_pos hp)

theorem hostCompletion_poisoned {cmd : Option Nat}
    (h : (s.port q.val).requests.find? (fun r => r.1 == tag) = some (tag, cmd, a, len, sent)) :
    exec (.hostCompletion q tag .poisoned) s = .next (((s.dropRequest q.val tag).emit
      (.poisonedReceived q.val ((s.dropRequest q.val tag).requester cmd))).requestFailed q.val cmd a 0x0202) := by
  change execHostCompletion q tag .poisoned s = _
  unfold execHostCompletion
  dsimp only
  rw [h]

theorem hostCompletion_piece {id i k : Nat} {c : Cmd} {j : MoveJob}
    (h : (s.port q.val).requests.find? (fun r => r.1 == tag) = some (tag, some id, a, len, sent))
    (hc : s.cmd id = some c) (hj : s.job id = some j)
    (hw : j.waiting.find? (fun x => x.2.2 == tag) = some (i, k, tag)) (l : List Byte) :
    exec (.hostCompletion q tag (.ok l)) s = .next ((s.dropRequest q.val tag).placeHostPiece c j i k (fit len l)) := by
  have hc' : (s.dropRequest q.val tag).cmd id = some c := hc
  have hj' : (s.dropRequest q.val tag).job id = some j := hj
  change execHostCompletion q tag (.ok l) s = _
  unfold execHostCompletion
  dsimp only
  rw [h]
  simp only [hc', hj', hw]

theorem completionTimeout_due {cmd : Option Nat}
    (h : (s.port q.val).requests.find? (fun r => r.1 == tag) = some (tag, cmd, a, len, sent))
    (hdue : sent + 50000000 ≤ s.clock) :
    exec (.completionTimeout q tag) s = .next (((s.dropRequest q.val tag).emit
      (.completionTimedOut q.val (s.requester cmd))).requestFailed q.val cmd a 0x0201) := by
  change execCompletionTimeout q tag s = _
  unfold execCompletionTimeout
  dsimp only
  rw [h]
  exact if_neg (Nat.not_lt.mpr hdue)

end

end Sys2Proof.Machine

open Sys2Proof Sys2Proof.Machine

/-- Settles O36: the rules above for a piece, a poisoned completion, 50 ms of silence and an unknown tag. -/
theorem hostCompletionsArePlaced : Obligations.HostCompletionsArePlaced := by
  intro q tag s
  refine ⟨hostCompletion_unknown, fun a len sent h hp => ⟨fun l hwf hr => ?_, ?_, fun hdue => ?_⟩,
    fun id c j a len sent h hc hj => ⟨fun i k d l hw hd hdst hok hmore hwf hr => ?_, fun hdue => ?_⟩⟩
  · have hlen : (fit len l).length = len := slice_length l 0 len
    refine ⟨_, hostCompletion_pull h hp l, ?_, ?_⟩
    · rw [State.placePull_bytesDone, hlen]
      rfl
    · rw [State.placePull_mem]
      exact State.writeMem_fit (s := s.dropRequest q.val tag) l hwf hr
  · exact ⟨_, hostCompletion_poisoned h, State.requestFailed_pull (s := (s.dropRequest q.val tag).emit _) hp a 0x0202⟩
  · exact ⟨_, completionTimeout_due h hdue, State.requestFailed_pull (s := (s.dropRequest q.val tag).emit _) hp a 0x0201⟩
  · have hlen : (fit len l).length = len := slice_length l 0 len
    refine ⟨_, hostCompletion_piece h hc hj hw l, ?_⟩
    rw [State.placeHostPiece_mem hd hdst (by rw [hlen]; exact hok) (by rw [hlen]; exact hmore)]
    exact State.writeMem_fit (s := s.dropRequest q.val tag) l hwf hr
  · exact ⟨_, completionTimeout_due h hdue, 
      State.requestFailed_cmd (s := (s.dropRequest q.val tag).emit _) hc hj q.val a 0x0201⟩

end

section

/-! PROOFS. The twin commands (O50): pairing, the end of a pair, the restore, the comparison and the procedure. -/

namespace Sys2Proof.Machine

theorem need_bind_error {α : Type} {ok : Bool} {r : Rej} {f : Unit → Chk α} (h : ok ≠ true) :
    (need ok r >>= f) = .error r := by
  rw [need, if_neg h]
  rfl

/-! ### What a message to the twin and the end of a command leave -/

theorem State.offLinks_twinMsg (s : State) (p : Nat) (m : TwinMsg) : (s.twinMsg p m).offLinks = s.offLinks :=
  s.offLinks_trySend ..

theorem State.twinMsg_pav (s : State) (p : Nat) (m : TwinMsg) (k : Nat) : (s.twinMsg p m).pav k = s.pav k :=
  State.pav_of_offLinks (s.offLinks_twinMsg p m) k

theorem State.twinMsg_cmds (s : State) (p : Nat) (m : TwinMsg) : (s.twinMsg p m).cmds = s.cmds :=
  (congrArg State.cmds (s.offLinks_twinMsg p m) :)

theorem State.twinMsg_clock (s : State) (p : Nat) (m : TwinMsg) : (s.twinMsg p m).clock = s.clock :=
  (congrArg State.clock (s.offLinks_twinMsg p m) :)

theorem State.started_pav (s : State) (c : Cmd) (p : Nat) : (s.started c).pav p = s.pav p := rfl

/-- A pavilion of which nothing but the allocated memory may have changed. -/
theorem State.pav_of_pavsKept {s t : State} {p : Nat} {v : Pav} (h : t.pavsKept = s.pavsKept) (hv : s.pav p = some v) :
    ∃ l, t.pav p = some { v with allocs := l } := by
  have hp : (t.pav p).map (fun v => { v with allocs := [] }) = some { v with allocs := [] } :=
    (congrFun h p).trans (congrArg _ hv)
  obtain ⟨u, hu, he⟩ := Option.map_eq_some_iff.mp hp
  have hu' : u = { v with allocs := u.allocs } := by
    cases u
    cases v
    simp_all
  exact ⟨u.allocs, hu.trans (congrArg some hu')⟩

theorem State.finish_pav {s : State} {p : Nat} {v : Pav} (hv : s.pav p = some v) (c : Cmd) (l : List Byte) (d low : Nat) :
    ∃ a, (s.finish c l d low).pav p = some { v with allocs := a } :=
  State.pav_of_pavsKept (s.pavsKept_finish c l d low) hv

/-- Where work ends, a pavilion stays. -/
theorem State.Ends.pav {s t : State} (h : s.Ends t) {p : Nat} {v : Pav} (hv : s.pav p = some v) : ∃ u, t.pav p = some u := by
  have hl : (t.pav p).map Pav.lease = some v.lease := (congrFun h.leases p).trans (congrArg _ hv)
  obtain ⟨u, hu, -⟩ := Option.map_eq_some_iff.mp hl
  exact ⟨u, hu⟩

theorem State.modTwin_pav {s : State} {p : Nat} {v : Pav} (hv : s.pav p = some v) (f : TwinSt → TwinSt) :
    (s.modTwin p f).pav p = some { v with twin := f v.twin } := by
  rw [State.modTwin, State.modPav_self, hv, Option.map_some]

theorem State.modTwin_ends (s : State) (p : Nat) (f : TwinSt → TwinSt) : s.Ends (s.modTwin p f) := s.modPav_ends p fun _ => rfl

theorem State.postPav_pav (s : State) (p code sev place : Nat) (l : List Byte) (k : Nat) :
    (s.postPav p code sev place l).pav k = s.pav k := by
  rw [State.pav, State.postPav_pavs]
  rfl

/-! ### TWIN_PAIR -/

section
variable {s : State} {c : Cmd} {v : Pav}

/-- The twin that TWIN_PAIR names. -/
def State.pairTwin (s : State) (c : Cmd) : Nat :=
  if bits (c.word 0) 15 0 = 0xFFFF then s.defaultTwin else bits (c.word 0) 15 0

/-- What TWIN_PAIR asks for, as the pavilion notes it. -/
def Cmd.pairAsk (c : Cmd) (d clock : Nat) (t : TwinSt) : TwinSt :=
  let every := if c.expert then bits (c.word 1) 63 48 else 0
  { t with
    state := 1, id := d, pav := bits (c.word 0) 19 16, fullEvery := if every = 0 then 64 else every
    manual := c.expert && bitAt (c.word 1) 0, wantDigest := if c.expert then c.word 2 + c.word 3 * 2 ^ 64 else 0
    cmd := some c.serial, askedAt := clock }

/-- The state in which TWIN_PAIR has asked. -/
def State.pairAsked (s : State) (c : Cmd) (v : Pav) (d : Nat) : State :=
  ((s.started c).modTwin c.pavilion (c.pairAsk d s.clock)).twinMsg c.pavilion
    (.pair s.ownId c.pavilion v.partition (v.reshape.active.map (·.job)) identityDigest (bits (c.word 0) 19 16))

theorem State.pairAsked_pav (hv : s.pav c.pavilion = some v) (d : Nat) :
    (s.pairAsked c v d).pav c.pavilion = some { v with twin := c.pairAsk d s.clock v.twin } :=
  (State.twinMsg_pav ..).trans (State.modTwin_pav (s := s.started c) hv _)

theorem State.pairAsked_cmds (d : Nat) : (s.pairAsked c v d).cmds = (s.started c).cmds := State.twinMsg_cmds ..

theorem State.pairAsked_clock (d : Nat) : (s.pairAsked c v d).clock = s.clock := State.twinMsg_clock ..

/-- The twin is another module that this one may pair with. -/
def State.mayTwin (s : State) (d : Nat) : Prop := d ≠ s.ownId ∧ d < 12800 ∧ s.reaches d = true

theorem State.mayTwin_checks {d : Nat} (h : s.mayTwin d) :
    (d != s.ownId && decide (d < 12800) && s.routed d) = true ∧ (!s.levelTwo d) = true := by
  obtain ⟨hne, hlt, hr⟩ := h
  rw [State.reaches, Bool.and_eq_true] at hr
  simp [hne, hlt, hr.1, hr.2]

theorem bodyTwinPair_ok (hv : s.pav c.pavilion = some v) (h0 : v.twin.state = 0) (hres : v.twin.restore = none)
    (hroom : 0 < s.room v 1) (htp : bits (c.word 0) 19 16 < 8) (hd : s.mayTwin (s.pairTwin c)) :
    bodyTwinPair s c = match v.twin.offer with
      | some o => .ok (if o.id = s.pairTwin c ∧ o.pav = bits (c.word 0) 19 16 ∧ s.clock ≤ o.time + 60000000000
          then (s.pairAsked c v (s.pairTwin c)).matchPair c.pavilion o else s.pairAsked c v (s.pairTwin c))
      | none => .ok (s.pairAsked c v (s.pairTwin c)) := by
  obtain ⟨hid, hlevel⟩ := State.mayTwin_checks hd
  unfold bodyTwinPair
  dsimp only
  rw [hv]
  refine (need_bind (by simp [h0, hres])).trans ((need_bind hid).trans ((need_bind (by simpa using hroom)).trans
    ((need_bind (by simpa using htp)).trans ((need_bind hlevel).trans ?_))))
  cases v.twin.offer with
  | none => rfl
  | some o =>
    refine Eq.trans (b := Except.ok (if o.id = s.pairTwin c ∧ o.pav = bits (c.word 0) 19 16
      ∧ (s.pairAsked c v (s.pairTwin c)).clock ≤ o.time + 60000000000
      then (s.pairAsked c v (s.pairTwin c)).matchPair c.pavilion o else s.pairAsked c v (s.pairTwin c))) rfl ?_
    rw [State.pairAsked_clock]

/-- What the pavilion notes when its pair is made. -/
def PairOffer.made (o : PairOffer) (clock : Nat) (t : TwinSt) : TwinSt :=
  { t with
    state := 2, digest := o.digest, cmd := none, offer := none, seeded := false, outstanding := [], seeding := []
    lastAck := clock }

/-- The offer carries no other job than the pavilion's layout. -/
def PairOffer.otherJob (o : PairOffer) (v : Pav) : Bool :=
  match o.job, v.reshape.active with
  | some j, some l => j != l.job
  | _, _ => false

theorem PairOffer.otherJob_eq_false {o : PairOffer} (h : ∀ j l, o.job = some j → v.reshape.active = some l → j = l.job) :
    o.otherJob v = false := by
  unfold PairOffer.otherJob
  split
  · next j l hj hl => simp [h j l hj hl]
  · rfl

/-- The end of a seeding leaves the commands, and of the pavilion everything but a mark of the twin. -/
theorem State.seedCheck_cmds (s : State) (p : Nat) : (s.seedCheck p).cmds = s.cmds := by
  unfold State.seedCheck
  dsimp only
  split
  · exact State.postPav_cmds ..
  · rfl

theorem State.seedCheck_pav {p : Nat} (hv : s.pav p = some v) :
    ∃ b, (s.seedCheck p).pav p = some { v with twin := { v.twin with seeded := b } } := by
  unfold State.seedCheck
  dsimp only
  split
  · exact ⟨true, (State.postPav_pav ..).trans (State.modTwin_pav hv _)⟩
  · exact ⟨v.twin.seeded, hv⟩

theorem State.matchPair_eq {p : Nat} {x : Cmd} {o : PairOffer} (hv : s.pav p = some v)
    (hc : v.twin.cmd = some x.serial) (hx : s.cmd x.serial = some x)
    (hdig : v.twin.wantDigest = 0 ∨ v.twin.wantDigest = o.digest) (hpart : o.partition = v.partition)
    (hjob : o.otherJob v = false) : s.matchPair p o = ((s.modTwin p (o.made s.clock)).finish x (pack [(2, o.id), (1, o.pav),
      (5, 0), (16, o.digest), (4, ((s.modTwin p (o.made s.clock)).unseeded p).length)])).seedCheck p := by
  have hcmd : v.twin.cmd.bind s.cmd = some x := by rw [hc]; exact hx
  have hd : ¬ (v.twin.wantDigest ≠ 0 ∧ v.twin.wantDigest ≠ o.digest) := fun h => hdig.elim h.1 h.2
  unfold State.matchPair
  dsimp only
  rw [hv]
  dsimp only
  rw [hcmd]
  exact (if_neg hd).trans ((if_neg (not_not_intro hpart)).trans (if_neg fun h => Bool.false_ne_true (hjob.symm.trans h)))

/-- A matching offer ends the command and makes the pair. -/
theorem State.matchPair_ok {p : Nat} {x : Cmd} {o : PairOffer} (hv : s.pav p = some v)
    (hc : v.twin.cmd = some x.serial) (hx : s.cmd x.serial = some x)
    (hdig : v.twin.wantDigest = 0 ∨ v.twin.wantDigest = o.digest) (hpart : o.partition = v.partition)
    (hjob : o.otherJob v = false) : (s.matchPair p o).cmd x.serial = none
      ∧ ∃ u, (s.matchPair p o).pav p = some u ∧ u.twin.state = 2 ∧ u.twin.id = v.twin.id ∧ u.twin.digest = o.digest := by
  rw [State.matchPair_eq hv hc hx hdig hpart hjob]
  obtain ⟨a, ha⟩ := State.finish_pav (State.modTwin_pav hv (o.made s.clock)) x _ 0 0xFFFF
  obtain ⟨b, hb⟩ := State.seedCheck_pav ha
  exact ⟨State.cmd_none_of_cmds (State.seedCheck_cmds ..) (State.finish_cmd_self ..), _, hb, rfl, rfl, rfl⟩

/-! ### TWIN_UNPAIR -/

theorem State.markCopy_ends (p n : Nat) (mirror damaged : Bool) (dig : Option Nat) :
    s.Ends (s.markCopy p n mirror damaged dig) := by
  unfold State.markCopy
  dsimp only
  split
  · exact s.modPav_ends p fun _ => rfl
  · exact s.modLedger_ends ..

theorem State.resolveDone_ends (d : Disagree) (o r b : Nat) : s.Ends (s.resolveDone d o r b) := by
  unfold State.resolveDone
  split
  · exact .refl s
  · exact s.finish_ends ..

theorem State.compareCheck_ends (p : Nat) : s.Ends (s.compareCheck p) := by
  unfold State.compareCheck
  dsimp only
  split
  · exact .refl s
  · split
    · exact .refl s
    · split
      · exact s.modTwin_ends ..
      · exact (s.modTwin_ends ..).trans (State.finish_ends ..)

theorem State.unresolved_ends (p : Nat) (d : Disagree) (reason : Nat) : s.Ends (s.unresolved p d reason) := by
  unfold State.unresolved
  extract_lets s₁ s₂ s₃ s₄ s₅ s₆
  have h₁ : s.Ends s₁ := (s.markCopy_ends ..).trans (.of_leases rfl rfl rfl fun _ h => h)
  have h₂ : s₁.Ends s₂ := s₁.postPav_ends ..
  have h₃ : s₂.Ends s₃ := by
    unfold s₃
    split
    · exact .refl s₂
    · exact s₂.postPav_ends ..
  have h₄ : s₃.Ends s₄ := s₃.modPav_ends p fun _ => rfl
  have h₅ : s₄.Ends s₅ := s₄.resolveDone_ends ..
  have h₆ : s₅.Ends s₆ := by
    unfold s₆
    split
    · exact .refl s₅
    · exact s₅.endRun_ends ..
  exact h₁.trans (h₂.trans (h₃.trans (h₄.trans (h₅.trans (h₆.trans (s₆.compareCheck_ends p))))))

theorem State.twinUnreachable_ends (p : Nat) : s.Ends (s.twinUnreachable p) :=
  .forEach (fun s d => s.unresolved_ends p d 5) _ s

/-- The end of a comparison leaves everything of the pavilion but the comparison and its allocated memory. -/
theorem State.compareCheck_pav {p : Nat} (hv : s.pav p = some v) :
    ∃ k a, (s.compareCheck p).pav p = some { v with twin := { v.twin with compare := k }, allocs := a } := by
  unfold State.compareCheck
  dsimp only
  split
  · exact ⟨v.twin.compare, v.allocs, hv⟩
  · split
    · exact ⟨v.twin.compare, v.allocs, hv⟩
    · have hm := State.modTwin_pav hv fun t => { t with compare := none }
      split
      · exact ⟨none, v.allocs, hm⟩
      · obtain ⟨a, ha⟩ := State.finish_pav hm _ _ 0 0xFFFF
        exact ⟨none, a, ha⟩

/-- Work between twins that has come loose: nothing of it is outstanding. -/
theorem State.loosen_pav {p : Nat} (hv : s.pav p = some v) : ∃ u, (s.loosen p).pav p = some u ∧ u.twin.outstanding = [] := by
  obtain ⟨u, hu⟩ := (s.twinUnreachable_ends p).pav hv
  unfold State.loosen
  extract_lets s₁ s₂ s₃
  have h₂ : s₂.pav p = some u := by
    rw [← hu]
    exact forEach_keep (g := fun s : State => s.pav p) (f := fun (s : State) n =>
      s.modShard n fun r => { r with paired := false, mirrorPending := false }) (fun _ _ => rfl) _ s₁
  obtain ⟨k, a, hp⟩ := State.compareCheck_pav (State.modTwin_pav h₂ fun t => { t with
    outstanding := [], seeding := [], seeded := false, due := none, openCmp := none, blocked := []
    compare := t.compare.map fun (k : Compare) => { k with finished := true } })
  exact ⟨_, hp, rfl⟩

theorem State.freeMirrors_pav {p : Nat} (hv : s.pav p = some v) : (s.freeMirrors p).pav p = some { v with
    allocs := v.allocs.filter fun a => a.2.2 != 5
    twin := { v.twin with mirrors := [], waiting := [] } } := by
  rw [State.freeMirrors, State.modPav_self, hv, Option.map_some]

/-- A pair that has ended. -/
def TwinSt.ended (t : TwinSt) (keep : Bool) : Prop :=
  t.state = 0 ∧ t.disagree = [] ∧ t.outstanding = [] ∧ (keep = false → t.mirrors = [])

theorem State.unpair_pav {p : Nat} (hv : s.pav p = some v) (keep : Bool) :
    ∃ u, (s.unpair p keep).pav p = some u ∧ u.twin.ended keep := by
  obtain ⟨u, hu, hout⟩ := State.loosen_pav hv
  unfold State.unpair
  extract_lets s₁ s₂ s₃
  have h₂ : s₂.pav p = _ := State.modTwin_pav hu _
  have h₃ : s₃.pav p = s₂.pav p := State.postPav_pav ..
  split
  · next hk => exact ⟨_, h₃.trans h₂, rfl, rfl, hout, fun h => by simp [hk] at h⟩
  · exact ⟨_, State.freeMirrors_pav (h₃.trans h₂), rfl, rfl, hout, fun _ => rfl⟩

theorem bodyTwinUnpair_paired (hv : s.pav c.pavilion = some v) (h : v.twin.state = 2 ∨ v.twin.state = 3) :
    bodyTwinUnpair s c
      = .ok (((s.twinMsg c.pavilion .unpair).unpair c.pavilion (c.expert && bitAt (c.word 0) 0)).finish c []) := by
  unfold bodyTwinUnpair
  dsimp only
  rw [hv]
  exact if_pos h

theorem bodyTwinUnpair_kept (hv : s.pav c.pavilion = some v) (h : v.twin.state = 0) (hm : v.twin.mirrors ≠ []) :
    bodyTwinUnpair s c
      = .ok ((if (c.expert && bitAt (c.word 0) 0) = true then s else s.freeMirrors c.pavilion).finish c []) := by
  unfold bodyTwinUnpair
  dsimp only
  rw [hv]
  exact (if_neg (by simp [h])).trans (need_bind (by simpa [h] using hm))

/-! ### TWIN_RESTORE -/

/-- The bytes that the owned shards of a layout take in one tier. -/
def State.restoreBytes (s : State) (l : Layout) (tier : Nat) : Nat :=
  sumNat ((s.ownedShards l).map fun k => match l.pieceOf k with
    | none => 0
    | some (e, _) => (if b2n e.slotTier = tier then 8192 * (newRecord l k e e.pieceRows).slotPages else 0)
        + if b2n e.gradTier = tier then 8192 * pages (4 * (newRecord l k e e.pieceRows).length) else 0)

/-- The pavilion that waits for its mirror entries under a layout. -/
def Pav.restoring (v : Pav) (c : Cmd) (l : Layout) : Pav :=
  let d := bits (c.word 0) 15 0
  let tp := bits (c.word 0) 19 16
  { v with
    reshape := { v.reshape with active := some l }
    twin := { v.twin with id := d, pav := tp, restore := some { cmd := c.serial, id := d, pav := tp } } }

theorem bodyTwinRestore_ok (hv : s.pav c.pavilion = some v) (h0 : v.twin.state = 0) (hres : v.twin.restore = none)
    (hd : s.mayTwin (bits (c.word 0) 15 0)) (hact : v.reshape.active = none) (htp : bits (c.word 0) 19 16 < 8)
    (ha : c.word 1 % 64 = 0) (hr : s.badRange c.port c.fn (c.word 1) (max (bits (c.word 2) 31 0) 64) = none)
    (hb : s.badRead (c.word 1) (max (bits (c.word 2) 31 0) 64) = none) {l : Layout}
    (hl : parseLayout (s.readMem (c.word 1) (bits (c.word 2) 31 0)) (bits (c.word 2) 31 0) s.ownId c.pavilion = .ok l)
    (hrel : s.layoutRelation c.pavilion v l false = .ok ())
    (hs0 : s.restoreBytes l 0 ≤ s.room v 0) (hs1 : s.restoreBytes l 1 ≤ s.room v 1) : bodyTwinRestore s c
      = .ok (((s.started c).modPav c.pavilion (Pav.restoring · c l)).twinMsg c.pavilion (.restoreAsk s.ownId c.pavilion)) := by
  obtain ⟨hid, hlevel⟩ := State.mayTwin_checks hd
  have hroom : decide (s.restoreBytes l 0 ≤ s.room v 0 ∧ s.restoreBytes l 1 ≤ s.room v 1) = true := by simp [hs0, hs1]
  unfold bodyTwinRestore
  dsimp only
  rw [hv]
  refine (need_bind (by simp [h0, hres])).trans ((need_bind hid).trans ((need_bind (by simp [hact])).trans
    ((need_bind (by simpa using htp)).trans ?_)))
  rw [State.checkAddr_ok ha hr, hb, hl]
  change (s.layoutRelation c.pavilion v l false >>= _) = _
  rw [hrel]
  exact (need_bind hroom).trans (need_bind hlevel)

/-! ### DIGEST_COMPARE and DISAGREE_RESOLVE -/

/-- The comparison that DIGEST_COMPARE opens. -/
def Cmd.comparison (c : Cmd) (t : TwinSt) : TwinSt :=
  { t with compare := some { cmd := c.serial, full := !c.expert || !bitAt (c.word 0) 16
                             first := if c.expert = true then bits (c.word 0) 7 0 else 0
                             last := if c.expert = true then bits (c.word 0) 15 8 else 255, resolvedAt := t.resolved } }

theorem bodyDigestCompare_ok (hv : s.pav c.pavilion = some v) (h2 : v.twin.state = 2) (hl : s.levelTwo v.twin.id = false)
    (hc : v.twin.compare = none)
    (hle : (if c.expert = true then bits (c.word 0) 7 0 else 0) ≤ if c.expert = true then bits (c.word 0) 15 8 else 255) :
    bodyDigestCompare s c = .ok ((s.started c).modTwin c.pavilion c.comparison) := by
  unfold bodyDigestCompare
  rw [hv]
  refine (need_bind (by simp [h2])).trans ((need_bind (by simp [hc])).trans ?_)
  unfold Cmd.comparison
  cases hx : c.expert
  · exact (need_bind rfl).trans (need_bind (by simp [hl]))
  · exact (need_bind (by simpa [hx] using hle)).trans (need_bind (by simp [hl]))

/-- A command that is turned away, and does not wait, leaves the pavilions. -/
theorem State.startCmd_rejects {id op : Nat} {body : State → Cmd → Chk State} {r : Rej} (h : s.due id op c)
    (hb : body s c = .error r) (hdef : r.defer = false) (hcond : r.onCondition = false) (hbad : r.bad = none) :
    s.startCmd id op body = s.reject c r := by
  rw [State.startCmd_error h hb, hbad, hcond, State.defers, hdef]
  rfl

theorem State.twin_of_pavsKept {t : State} (h : t.pavsKept = s.pavsKept) (p : Nat) : t.twin p = s.twin p := by
  have hmap : ∀ u : State, u.twin p = ((u.pavsKept p).map (·.twin)).getD {} := fun u => by
    rw [State.twin, State.pavsKept]
    cases u.pav p <;> rfl
  rw [hmap, hmap, h]

/-- With a twin of level 2 the comparison is turned away. -/
theorem bodyDigestCompare_levelTwo (hv : s.pav c.pavilion = some v) (h2 : v.twin.state = 2)
    (hl : s.levelTwo v.twin.id = true) :
    ∃ r, bodyDigestCompare s c = .error r ∧ r.defer = false ∧ r.onCondition = false ∧ r.bad = none := by
  have hstate : (v.twin.state == 2) = true := by simp [h2]
  have hlevel : (!s.levelTwo v.twin.id) ≠ true := by simp [hl]
  unfold bodyDigestCompare
  rw [hv]
  by_cases hc : v.twin.compare.isNone = true
  · by_cases hle : (if c.expert = true then bits (c.word 0) 7 0 else 0) ≤ if c.expert = true then bits (c.word 0) 15 8 else 255
    · refine ⟨twinLevel v.twin.id, (need_bind hstate).trans ((need_bind hc).trans ?_), rfl, rfl, rfl⟩
      cases hx : c.expert
      · exact (need_bind rfl).trans (need_bind_error hlevel)
      · exact (need_bind (by simpa [hx] using hle)).trans (need_bind_error hlevel)
    · refine ⟨c.badParam 0, (need_bind hstate).trans ((need_bind hc).trans ?_), rfl, rfl, rfl⟩
      cases hx : c.expert
      · simp [hx] at hle
      · exact need_bind_error (by simpa [hx] using hle)
  · exact ⟨stReject 0x0104 0xFF, (need_bind hstate).trans (need_bind_error hc), rfl, rfl, rfl⟩

/-- What DISAGREE_RESOLVE notes in the procedure that it opens. -/
theorem bodyDisagreeResolve_ok (hv : s.pav c.pavilion = some v) (h2 : v.twin.state = 2 ∨ v.twin.state = 3)
    (hl : s.levelTwo v.twin.id = false) (hlo : 1 ≤ if c.expert = true then bits (c.word 0) 63 56 else 1)
    (hhi : (if c.expert = true then bits (c.word 0) 63 56 else 1) ≤ 4)
    (hun : s.ledger.unreadable.contains (bits (c.word 0) 19 0) = false)
    (hvalid : (s.shard (bits (c.word 0) 19 0)).valid = true) (hpaired : (s.shard (bits (c.word 0) 19 0)).paired = true)
    (hmine : (s.shard (bits (c.word 0) 19 0)).pavilion = c.pavilion)
    (hact : (if c.expert = true then bits (c.word 0) 63 56 else 1) = 1
      ∨ ∃ d ∈ v.twin.disagree, d.shard = bits (c.word 0) 19 0 ∧ d.mirror = false)
    (hfree : ∀ d ∈ v.twin.disagree, d.shard = bits (c.word 0) 19 0 → d.mirror = false → d.cmd = none) :
    bodyDisagreeResolve s c = .ok (((s.started c).openDisagree c.pavilion (bits (c.word 0) 19 0) false false).modDisagree
      c.pavilion (bits (c.word 0) 19 0) false fun d => { d with
        hold := false, asked := false, peer := none, action := if c.expert = true then bits (c.word 0) 63 56 else 1
        cmd := some c.serial }) := by
  have hstate : (v.twin.state == 2 || v.twin.state == 3) = true := by simpa using h2
  have hopen : ((if c.expert = true then bits (c.word 0) 63 56 else 1) == 1
      || (v.twin.disagree.find? fun d => d.shard == bits (c.word 0) 19 0 && !d.mirror).isSome) = true := by
    simpa [List.find?_isSome, List.any_eq_true] using hact
  have hidle : (!(v.twin.disagree.find? fun d => d.shard == bits (c.word 0) 19 0 && !d.mirror).any
      fun d => d.cmd.isSome) = true := by
    cases hf : v.twin.disagree.find? fun d => d.shard == bits (c.word 0) 19 0 && !d.mirror with
    | none => rfl
    | some d =>
      obtain ⟨hs, hm⟩ : d.shard = bits (c.word 0) 19 0 ∧ d.mirror = false := by simpa using List.find?_some hf
      simp [hfree d (List.mem_of_find?_eq_some hf) hs hm]
  unfold bodyDisagreeResolve
  dsimp only
  rw [hv]
  exact (need_bind (by simp [hlo, hhi])).trans ((need_bind hstate).trans ((need_bind (congrArg not hun)).trans
    ((need_bind (by simp [hvalid, hpaired, hmine])).trans ((need_bind hopen).trans ((need_bind hidle).trans
      (need_bind (by simp [hl])))))))

end
end Sys2Proof.Machine

open Sys2Proof Sys2Proof.Machine

/-- Settles O50: the five bodies above, each under the checks that its command passes. -/
theorem twinCommandsStart : Obligations.TwinCommandsStart := by
  intro id c s v p w reach tp hv
  refine ⟨?_, ?_, ?_, ?_, ?_, ?_⟩
  · intro hd h0 hres hroom htp d every want hreach
    have hbody := bodyTwinPair_ok hv h0 hres hroom htp hreach
    refine ⟨fun ho => ?_, fun o ho hoid hop htime hdig hpart hjob => ?_⟩
    · rw [ho] at hbody
      exact ⟨_, _, congrArg Host.Outcome.next (State.startCmd_ok hd hbody), State.pairAsked_pav hv _, rfl, rfl, rfl, rfl, rfl,
        congrArg some (State.cmd_serial hd.1), rfl, State.started_any hd.1 (State.pairAsked_cmds _)⟩
    · rw [ho] at hbody
      have hx : (s.pairAsked c v (s.pairTwin c)).cmd c.serial = some (c.asStarted s.now) := by
        rw [State.cmd_serial hd.1, ← State.started_cmd hd.1, State.cmd, State.pairAsked_cmds]
        rfl
      obtain ⟨hgone, u, hu, hstate, hid, hdigest⟩ := State.matchPair_ok (State.pairAsked_pav hv (s.pairTwin c))
        (x := c.asStarted s.now) rfl hx hdig hpart (PairOffer.otherJob_eq_false hjob)
      refine ⟨_, u, congrArg Host.Outcome.next (State.startCmd_ok hd (hbody.trans (congrArg Except.ok
        (if_pos ⟨hoid, hop, htime⟩)))), ?_, hu, hstate, hid, hdigest⟩
      rw [← State.cmd_serial hd.1]
      exact hgone
  · intro hd keep
    refine ⟨fun h => ?_, fun h hm => ?_⟩
    · obtain ⟨u, hu, hend⟩ := State.unpair_pav ((s.twinMsg_pav p .unpair p).trans hv) keep
      obtain ⟨a, ha⟩ := State.finish_pav hu c [] 0 0xFFFF
      exact ⟨_, _, congrArg Host.Outcome.next (State.startCmd_ok hd (bodyTwinUnpair_paired hv h)),
        State.finish_cmd_of_due hd .., ha, hend⟩
    · exact congrArg Host.Outcome.next (State.startCmd_ok hd (bodyTwinUnpair_kept hv h hm))
  · intro hd h0 hres hreach hact htp n ha hr hb l hl hrel size hs0 hs1
    have hbody := bodyTwinRestore_ok hv h0 hres hreach hact htp ha hr hb hl hrel hs0 hs1
    refine ⟨_, v.restoring c l, congrArg Host.Outcome.next (State.startCmd_ok hd hbody), ?_, rfl, ?_,
      State.started_any hd.1 (State.twinMsg_cmds ..)⟩
    · rw [State.twinMsg_pav, State.modPav_self, State.started_pav, hv, Option.map_some]
    · rw [← State.cmd_serial hd.1]
      rfl
  · intro hd h2 hl hc first last full hle
    refine congrArg Host.Outcome.next ((State.startCmd_ok hd (bodyDigestCompare_ok hv h2 hl hc hle)).trans ?_)
    rw [← State.cmd_serial hd.1]
    rfl
  · intro hd h2 hl
    obtain ⟨r, hbody, hdef, hcond, hbad⟩ := bodyDigestCompare_levelTwo hv h2 hl
    refine ⟨_, congrArg Host.Outcome.next (State.startCmd_rejects hd hbody hdef hcond hbad), ?_,
      State.twin_of_pavsKept (s.pavsKept_complete ..) p⟩
    rw [← State.cmd_serial hd.1]
    exact State.complete_cmd_self ..
  · intro hd h2 hl n act hlo hhi hun hvalid hpaired hmine ha hfree
    refine congrArg Host.Outcome.next ((State.startCmd_ok hd
      (bodyDisagreeResolve_ok hv h2 hl hlo hhi hun hvalid hpaired hmine ha hfree)).trans ?_)
    rw [State.cmd_serial hd.1]

end

section

/-! PROOFS. The reset of a pavilion (R413): what the parts of it leave of a pavilion. -/

namespace Sys2Proof.Machine

/-! ### A pavilion but for what ends with its work -/

/-- A pavilion without its allocated memory, the step in progress and the parking. -/
def Pav.shell (v : Pav) : Pav :=
  { v with
    allocs := [], stepSeq := 0, sealing := none, barrier := none, parking := false, parked := false, parkedAt := 0 }

def State.shells (s : State) (p : Nat) : Option Pav := (s.pav p).map Pav.shell

section
variable {s t : State}

theorem State.shells_of_pavs (h : t.pavs = s.pavs) : t.shells = s.shells := by
  funext p
  rw [State.shells, State.shells, State.pav, State.pav, h]

theorem State.shells_of_pavsKept (h : t.pavsKept = s.pavsKept) : t.shells = s.shells := by
  have hmap : ∀ u : State, ∀ p, u.shells p = (u.pavsKept p).map Pav.shell := fun u p => by
    rw [State.shells, State.pavsKept, Option.map_map]; rfl
  funext p
  rw [hmap, hmap, h]

/-- What a pavilion still has, where the shells stand. -/
theorem State.pav_of_shells {p : Nat} {v : Pav} (h : t.shells = s.shells) (hv : s.pav p = some v) :
    ∃ u, t.pav p = some u ∧ u.shell = v.shell :=
  Option.map_eq_some_iff.mp ((congrFun h p).trans (congrArg (Option.map Pav.shell) hv))

variable (s)

theorem State.shells_modPav (p : Nat) {f : Pav → Pav} (h : ∀ v, (f v).shell = v.shell) :
    (s.modPav p f).shells = s.shells := by
  funext j
  by_cases hj : j = p
  · subst hj
    simp only [State.shells, State.modPav_self, Option.map_map]
    cases s.pav j with
    | none => rfl
    | some v => exact congrArg some (h v)
  · simp only [State.shells, State.modPav_ne _ _ hj]

theorem State.shells_freeMem (p a : Nat) : (s.freeMem p a).shells = s.shells := s.shells_modPav p fun _ => rfl

theorem State.shells_unseal (p : Nat) : (s.unseal p).shells = s.shells := by
  unfold State.unseal
  extract_lets kept s₁ fresh s₂ s₃
  have h₁ : s₁.shells = s.shells := by
    refine forEach_keep (g := State.shells) (fun s n => ?_) _ s
    dsimp only
    split <;> rfl
  have h₂ : s₂.shells = s₁.shells := forEach_keep (g := State.shells) (fun s e => s.shells_freeMem ..) _ s₁
  split
  · exact h₂.trans h₁
  · refine Eq.trans (s₃.shells_modPav p ?_) (h₂.trans h₁)
    exact fun _ => rfl

theorem State.shells_parkIfDue (p : Nat) : (s.parkIfDue p).shells = s.shells := by
  unfold State.parkIfDue
  split
  · rfl
  next v _ =>
  split
  · rfl
  extract_lets q s₁ s₂ s₃
  have h₁ : s₁.shells = s.shells := State.shells_of_pavsKept (s.pavsKept_dropUnstarted p)
  have h₂ : s₂.shells = s₁.shells := by
    unfold s₂
    split
    · exact State.shells_of_pavsKept (s₁.pavsKept_abort ..)
    · rfl
  have h₃ : s₃.shells = s₂.shells := s₂.shells_modPav p fun _ => rfl
  exact (State.shells_of_pavs (State.pavs_of_quiet (s₃.quiet_postTo ..))).trans (h₃.trans (h₂.trans h₁))

theorem State.shells_resetFunction (q n : Nat) : (s.resetFunction q n).shells = s.shells := by
  unfold State.resetFunction
  extract_lets s₁
  have h : s₁.shells = s.shells := State.shells_of_pavsKept (s.pavsKept_freeRing (ringKey q n))
  split <;> exact h

end

/-! ### Handles that are freed -/

theorem tfind_ne_none_of_mem {α : Type} {l : Tbl α} {e : Nat × α} (h : e ∈ l) : tfind l e.1 ≠ none := by
  induction l with
  | nil => cases h
  | cons a l ih =>
    rw [tfind]
    split
    · exact Option.some_ne_none _
    · next hne =>
      rcases List.mem_cons.mp h with rfl | h
      · exact absurd rfl hne
      · exact ih h

/-- A handle is freed with its contents; of the rest of the pavilion only allocated memory goes. -/
theorem State.freeHandle_pav {s : State} {p : Nat} {v : Pav} (hv : s.pav p = some v) (hd : Nat) :
    ∃ h d o a, (s.freeHandle p hd).pav p = some { v with handles := h, data := d, offTiles := o, allocs := a }
      ∧ ∀ e ∈ h, e ∈ v.handles ∧ e.1 ≠ hd := by
  unfold State.freeHandle
  rw [hv]
  dsimp only
  split
  · next hn => exact ⟨v.handles, v.data, v.offTiles, v.allocs, hv, fun e he => ⟨he, fun h => tfind_ne_none_of_mem he (h ▸ hn)⟩⟩
  · next x _ =>
    obtain ⟨a, ha⟩ := State.pav_of_pavsKept (forEach_keep (g := State.pavsKept) (f := fun (s : State) a => s.freeMem p a)
      (fun s a => s.pavsKept_freeMem p a) (x.addr :: x.constants.map (·.2.1)) s) hv
    have hp := (State.modPav_self _ p fun v => { v with
      handles := tdel v.handles hd, data := v.data.filter fun d => d.handle != hd }.dropOff fun x => x.handle == hd).trans
        (congrArg (Option.map _) ha)
    exact ⟨tdel v.handles hd, _, _, _, hp, fun e he => by simpa [tdel] using he⟩

theorem State.freeHandles_pav {p : Nat} (l : List Nat) {s : State} {v : Pav} (hv : s.pav p = some v) :
    ∃ h d o a, (forEach l (fun s h => s.freeHandle p h) s).pav p
        = some { v with handles := h, data := d, offTiles := o, allocs := a }
      ∧ ∀ e ∈ h, e ∈ v.handles ∧ e.1 ∉ l := by
  induction l generalizing s v with
  | nil => exact ⟨_, _, _, _, hv, fun e he => ⟨he, List.not_mem_nil⟩⟩
  | cons x l ih =>
    obtain ⟨h, d, o, a, hp, hh⟩ := State.freeHandle_pav hv x
    obtain ⟨h', d', o', a', hp', hh'⟩ := ih hp
    refine ⟨h', d', o', a', hp', fun e he => ?_⟩
    obtain ⟨hmem, hl⟩ := hh' e he
    obtain ⟨hv', hx⟩ := hh e hmem
    exact ⟨hv', List.not_mem_cons_of_ne_of_not_mem hx hl⟩

/-- With the last handle freed none is left. -/
theorem State.freeHandles_all {s : State} {p : Nat} {v : Pav} (hv : s.pav p = some v) :
    ∃ d o a, (forEach (v.handles.map (·.1)) (fun s h => s.freeHandle p h) s).pav p
      = some { v with handles := [], data := d, offTiles := o, allocs := a } := by
  obtain ⟨h, d, o, a, hp, hh⟩ := State.freeHandles_pav (v.handles.map (·.1)) hv
  have hnil : h = [] := List.eq_nil_iff_forall_not_mem.mpr fun e he =>
    (hh e he).2 (List.mem_map_of_mem (hh e he).1)
  exact ⟨d, o, a, hnil ▸ hp⟩

/-! ### A sealed step that rolls forward -/

/-- The stop, the handles and the tensor contents of a pavilion. -/
def Pav.shelf (v : Pav) : Bool × Tbl Handle × List TensorData := (v.stopped, v.handles, v.data)

def State.shelves (s : State) (p : Nat) : Option (Bool × Tbl Handle × List TensorData) := (s.pav p).map Pav.shelf

section
variable {s t : State}

theorem State.shelves_of_shells (h : t.shells = s.shells) : t.shelves = s.shelves := by
  have hmap : ∀ u : State, ∀ p, u.shelves p = (u.shells p).map Pav.shelf := fun u p => by
    rw [State.shelves, State.shells, Option.map_map]; rfl
  funext p
  rw [hmap, hmap, h]

theorem State.shelves_of_pavs (h : t.pavs = s.pavs) : t.shelves = s.shelves := State.shelves_of_shells (State.shells_of_pavs h)

variable (s)

theorem State.shelves_modPav (p : Nat) {f : Pav → Pav} (h : ∀ v, (f v).shelf = v.shelf) :
    (s.modPav p f).shelves = s.shelves := by
  funext j
  by_cases hj : j = p
  · subst hj
    simp only [State.shelves, State.modPav_self, Option.map_map]
    cases s.pav j with
    | none => rfl
    | some v => exact congrArg some (h v)
  · simp only [State.shelves, State.modPav_ne _ _ hj]

theorem State.shelves_modLedger (f : Ledger → Ledger) : (s.modLedger f).shelves = s.shelves := rfl

theorem State.shelves_postPav (p code sev place : Nat) (l : List Byte) : (s.postPav p code sev place l).shelves = s.shelves :=
  State.shelves_of_pavs (State.postPav_pavs ..)

theorem State.shelves_memError (w kind : Nat) : (s.memError w kind).shelves = s.shelves :=
  State.shelves_of_pavs (s.pavs_memError w kind)

theorem State.shelves_writeSlot (r : Rec) (a : Nat) (l : List (List Byte)) : (s.writeSlot r a l).shelves = s.shelves :=
  forEach_keep (g := State.shelves) (fun (s : State) _ =>
    State.shelves_of_pavs (State.pavs_of_quiet (s.quiet_writeMem ..))) _ s

theorem State.shelves_commitShard (p n : Nat) : (s.commitShard p n).shelves = s.shelves := by
  unfold State.commitShard
  extract_lets r v' d fresh s₁ s₂ s₃
  have h₃ : s₃.shelves = s.shelves := by
    unfold s₃
    split
    · exact State.shelves_of_shells (s₂.shells_freeMem ..)
    · rfl
  refine Eq.trans (s₃.shelves_modPav p ?_) h₃
  exact fun _ => rfl

theorem State.shelves_slotLost (n w : Nat) : (s.slotLost n w).shelves = s.shelves :=
  (State.shelves_postPav ..).trans (s.shelves_memError w 1)

variable {s}

theorem State.shelves_placeFresh {n : Nat} (h : s.placeFresh n = some t) : t.shelves = s.shelves := by
  unfold State.placeFresh State.allocMem at h
  obtain ⟨x, hx, rfl⟩ := Option.map_eq_some_iff.mp h
  obtain ⟨a, -, rfl⟩ := Option.map_eq_some_iff.mp hx
  have hp : (s.modPav (s.shard n).pavilion fun v => { v with
      allocs := v.allocs ++ [(a, 8192 * (s.shard n).slotPages, 2)] }).shelves = s.shelves := s.shelves_modPav _ fun _ => rfl
  exact (State.shelves_modLedger ..).trans ((State.shelves_writeSlot ..).trans hp)

theorem State.shelves_commitOne (s : State) (p n : Nat) : (s.commitOne p n).1.shelves = s.shelves := by
  unfold State.commitOne
  dsimp only
  split
  · exact s.shelves_postPav ..
  split
  · exact s.shelves_commitShard p n
  next w _ =>
  have hw := s.shelves_memError w 1
  split
  · exact (State.shelves_slotLost ..).trans hw
  · exact (State.shelves_postPav ..).trans ((State.shelves_memError ..).trans hw)
  · split
    · exact hw
    · next u hu => exact (State.shelves_commitShard ..).trans ((State.shelves_writeSlot ..).trans
        ((State.shelves_placeFresh hu).trans hw))

theorem State.shelves_layerNorms (s : State) (p seq : Nat) : (s.layerNorms p seq).shelves = s.shelves := by
  refine forEach_keep (g := State.shelves) (fun s x => ?_) _ s
  exact s.shelves_modPav p fun _ => rfl

/-- A pavilion without a handle has no run of a program. -/
theorem State.runOf_of_shelves {p : Nat} {b : Bool} {d : List TensorData} (h : s.shelves p = some (b, [], d)) :
    s.runOf p = none := by
  obtain ⟨v, hv, he⟩ := Option.map_eq_some_iff.mp h
  have hh : v.handles = [] := congrArg (fun x => x.2.1) he
  unfold State.runOf
  rw [hv]
  dsimp only
  split
  · rfl
  · rw [hh]
    rfl

/-- A seal that is done leaves the shelf of a pavilion without handles. -/
theorem State.shelves_sealDone {p : Nat} {b : Bool} {d : List TensorData} (h : s.shelves p = some (b, [], d)) :
    (s.sealDone p).shelves = s.shelves := by
  unfold State.sealDone
  split
  · rfl
  split
  · rfl
  next x _ =>
  extract_lets i groups s₁ s₂ s₃
  have h₁ : s₁.shelves = s.shelves := by
    refine s.shelves_modPav p ?_
    exact fun _ => rfl
  have h₃ : s₃.shelves = s₂.shelves := by
    unfold s₃
    split
    · exact State.shelves_of_shells (State.shells_of_pavsKept (s₂.pavsKept_finish ..))
    · rfl
  have hall : s₃.shelves = s.shelves := h₃.trans ((s₁.shelves_layerNorms p x.seq).trans h₁)
  have hrun : s₃.runOf p = none := State.runOf_of_shelves ((congrFun hall p).trans h)
  rw [hrun]
  exact hall

theorem foldl_keep {σ β γ : Type} {g : σ → γ} {f : σ → β → σ} (h : ∀ s a, g (f s a) = g s) (l : List β) (s : σ) :
    g (l.foldl f s) = g s := by
  induction l generalizing s with
  | nil => rfl
  | cons a l ih => exact (ih (f s a)).trans (h s a)

/-- The note of a step that has rolled forward. -/
def State.rollNoted (s : State) (p : Nat) (cmd : Option Nat) : State :=
  (match cmd with
    | some id => s.modCmd id fun c => { c with notes := addNew c.notes 0x0140 }
    | none => s).modRun p fun r => { r with notes := addNew r.notes 0x0140 }

theorem State.shelves_rollNoted (s : State) (p : Nat) (cmd : Option Nat) : (s.rollNoted p cmd).shelves = s.shelves := by
  unfold State.rollNoted
  refine Eq.trans (State.shelves_modPav _ p fun _ => rfl) ?_
  split <;> rfl

theorem State.shelves_rollForward {p : Nat} {b : Bool} {d : List TensorData} (h : s.shelves p = some (b, [], d)) :
    (s.rollForward p).1.shelves = s.shelves := by
  unfold State.rollForward
  split
  · rfl
  next v _ =>
  split
  · rfl
  next x _ =>
  dsimp only
  have hfold : (x.todo.foldl (fun (a : State × List Nat) n =>
      ((a.1.rollShard p n).1, if (a.1.rollShard p n).2 then a.2 else a.2 ++ [n])) (s, [])).1.shelves = s.shelves :=
    foldl_keep (g := fun a : State × List Nat => a.1.shelves) (fun a n => State.shelves_commitOne _ p n) x.todo (s, [])
  generalize x.todo.foldl (fun (a : State × List Nat) n =>
    ((a.1.rollShard p n).1, if (a.1.rollShard p n).2 then a.2 else a.2 ++ [n])) (s, []) = a at hfold ⊢
  split
  · have hnote := (a.1.shelves_rollNoted p x.cmd).trans hfold
    have hpost := (State.shelves_postPav (a.1.rollNoted p x.cmd) p 0x0420 0 (placeDie v.gateDie 2 0)
      (pack [(8, x.seq), (4, x.todo.length - a.2.length)])).trans hnote
    exact (State.shelves_sealDone ((congrFun hpost p).trans h)).trans hpost
  · refine (State.shelves_postPav ..).trans (Eq.trans (a.1.shelves_modPav p ?_) hfold)
    exact fun _ => rfl

end

/-! ### The reset of a pavilion -/

/-- The reset of a pavilion up to its handles: its work ends. -/
def State.resetCut (s : State) (v : Pav) (p target : Nat) (cause : Option Cmd) : State :=
  let mine := fun (c : Cmd) => c.pavilion == p && c.opcode / 256 != 0 && cause.all fun x => x.serial != c.serial
  let ends := if v.sealing.isNone then [0x0410, 0x0430, 0x0431, 0x0802] else [0x0430, 0x0431, 0x0802]
  let s := (s.cutCount (fun c => mine c && c.phase != .started) target cause).1
  let s := (s.cutRun p target cause).1
  let s := (s.cutCount (fun c => mine c && ends.contains c.opcode) target cause).1
  let s := if v.sealing.isNone then s.unseal p else s
  if v.abortReason.isNone then (s.reshapeAbort p 0x0301 cause).1 else s

/-- The tensor contents and the traps of a pavilion are gone. -/
def State.wiped (s : State) (p : Nat) : State := (s.modPav p fun v => { v with data := [], stopped := false }).clearTraps p

section
variable {s : State} {v : Pav} {p : Nat}

theorem State.resetPav_state (hv : s.pav p = some v) (target : Nat) (cause : Option Cmd) :
    (s.resetPav p target cause).1 = (let t := (forEach (v.handles.map (·.1)) (fun s h => s.freeHandle p h)
        (s.resetCut v p target cause)).wiped p
      (if v.sealing.isSome then (t.rollForward p).1 else t).parkIfDue p) := by
  unfold State.resetPav
  rw [hv]
  rfl

theorem State.cutCount_leases (s : State) (f : Cmd → Bool) (target : Nat) (cause : Option Cmd) :
    (s.cutCount f target cause).1.leases = s.leases :=
  (s.forCmds_ends f fun (s : State) c => s.cutOff_ends c 0x0301 target cause).leases

theorem State.cutRun_leases (s : State) (p target : Nat) (cause : Option Cmd) :
    (s.cutRun p target cause).1.leases = s.leases := by
  unfold State.cutRun
  split
  · exact (s.abortRun_ends ..).leases
  · rfl

theorem State.reshapeAbort_leases (hv : s.pav p = some v) (st : Nat) (cause : Option Cmd) :
    (s.reshapeAbort p st cause).1.leases = s.leases := by
  rw [State.reshapeAbort_state hv]
  have h₁ := State.leases_of_pavsKept (s.pavsKept_withdraw p st cause v.reshape)
  have h₂ := (s.withdraw p st cause v.reshape).leases_modPav p
    (f := fun u => { u with reshape := v.reshape.aborted }) fun _ => rfl
  refine Eq.trans (State.leases_of_pavs (State.postPav_pavs ..)) (Eq.trans (State.leases_modPav _ p ?_) (h₂.trans h₁))
  exact fun _ => rfl

theorem State.pav_of_leases {t : State} (h : t.leases = s.leases) (hv : s.pav p = some v) :
    ∃ u, t.pav p = some u ∧ u.lease = v.lease :=
  Option.map_eq_some_iff.mp ((congrFun h p).trans (congrArg (Option.map Pav.lease) hv))

/-- Work that is cut off leaves the handles. -/
theorem State.resetCut_pav (hv : s.pav p = some v) (target : Nat) (cause : Option Cmd) :
    ∃ u, (s.resetCut v p target cause).pav p = some u ∧ u.lease = v.lease := by
  refine State.pav_of_leases ?_ hv
  unfold State.resetCut
  extract_lets mine ends s₁ s₂ s₃ s₄
  have h₃ : s₃.leases = s.leases :=
    (State.cutCount_leases ..).trans ((State.cutRun_leases ..).trans (State.cutCount_leases ..))
  have h₄ : s₄.leases = s.leases := by
    unfold s₄
    split
    · exact (s₃.unseal_ends p).leases.trans h₃
    · exact h₃
  split
  · obtain ⟨u, hu, -⟩ := State.pav_of_leases h₄ hv
    exact (State.reshapeAbort_leases hu ..).trans h₄
  · exact h₄

theorem State.wiped_pav (hv : s.pav p = some v) : (s.wiped p).pav p
    = some { v with data := [], stopped := false, traps := { seq := v.traps.seq } } := by
  refine (State.modPav_self _ p fun v => { v with traps := { seq := v.traps.seq } }).trans ?_
  rw [State.modPav_self, hv]
  rfl

/-- After its reset a pavilion is not stopped and holds no tensor. -/
theorem State.resetPav_shelf (hv : s.pav p = some v) (target : Nat) (cause : Option Cmd) :
    (s.resetPav p target cause).1.shelves p = some (false, [], []) := by
  obtain ⟨u, hu, hl⟩ := State.resetCut_pav hv target cause
  have hh : u.handles = v.handles := (congrArg Pav.handles hl : u.lease.handles = v.lease.handles)
  obtain ⟨d, o, a, hfree⟩ := State.freeHandles_all hu
  rw [hh] at hfree
  rw [State.resetPav_state hv]
  extract_lets t
  have ht : t.shelves p = some (false, [], []) := congrArg (Option.map Pav.shelf) (State.wiped_pav hfree)
  rw [State.shelves_of_shells (State.shells_parkIfDue ..)]
  split
  · exact (congrFun (State.shelves_rollForward ht) p).trans ht
  · exact ht

theorem State.resetPav_none (hv : s.pav p = none) (target : Nat) (cause : Option Cmd) :
    (s.resetPav p target cause).1 = s := by
  unfold State.resetPav
  rw [hv]

/-- The reset of a virtual function's pavilion and function. -/
theorem State.pav_of_vfReset {q : Nat} {n : Nat} {u : Pav}
    (hu : ((s.resetPav p (pavTarget p) none).1.resetFunction q n).pav p = some u) : u.stopped = false ∧ u.data = [] := by
  have hshelf : some u.shelf = (s.resetPav p (pavTarget p) none).1.shelves p :=
    (congrArg (Option.map Pav.shelf) hu).symm.trans (congrFun (State.shelves_of_shells (State.shells_resetFunction ..)) p)
  cases hv : s.pav p with
  | none =>
    rw [State.resetPav_none hv, State.shelves, hv] at hshelf
    cases hshelf
  | some v =>
    have h : u.shelf = (false, [], []) := Option.some.inj (hshelf.trans (State.resetPav_shelf hv _ _))
    exact ⟨congrArg (·.1) h, congrArg (·.2.2) h⟩

end

/-! ### The resets of a port and of its functions (R467) -/

section
variable (s : State)

theorem State.resetFunction_ring_self (q n : Nat) : ((s.resetFunction q n).ring (ringKey q n)).ready = false := by
  have h : ((s.resetRing (ringKey q n)).ring (ringKey q n)).ready = false := by
    rw [State.resetRing, State.modRing_self]
  unfold State.resetFunction
  dsimp only
  split <;> exact h

theorem State.resetFunction_ring_ne {k q n : Nat} (h : k ≠ ringKey q n) : (s.resetFunction q n).ring k = s.ring k := by
  have hr : (s.resetRing (ringKey q n)).ring k = s.ring k := by
    rw [State.resetRing, State.modRing_ne _ _ h, State.freeRing_ring_ne _ _ h]
  unfold State.resetFunction
  dsimp only
  split <;> exact hr

/-- A ring set that is not ready stays so. -/
theorem State.resetFunction_ready {k : Nat} (q n : Nat) (h : (s.ring k).ready = false) :
    ((s.resetFunction q n).ring k).ready = false := by
  by_cases hk : k = ringKey q n
  · rw [hk]
    exact s.resetFunction_ring_self q n
  · rw [s.resetFunction_ring_ne hk]
    exact h

theorem State.resetFunctions_ready (q : Nat) (l : List Nat) {n : Nat} (hn : n ∈ l) :
    ((forEach l (fun s n => s.resetFunction q n) s).ring (ringKey q n)).ready = false := by
  induction l generalizing s with
  | nil => cases hn
  | cons a l ih =>
    rcases List.mem_cons.mp hn with rfl | hn
    · exact forEach_inv (P := fun t : State => (t.ring (ringKey q n)).ready = false)
        (fun t a ht => t.resetFunction_ready q a ht) l _ (s.resetFunction_ring_self q n)
    · exact ih _ hn

theorem State.portReset_ring (q : Nat) {n : Nat} (hn : n < 9) : ((s.portReset q).ring (ringKey q n)).ready = false := by
  unfold State.portReset
  extract_lets s₁ reqs s₂ s₃ s₄
  rw [State.modPort_ring]
  exact s₃.resetFunctions_ready q (List.range 9) (List.mem_range.mpr hn)

theorem State.portReset_port (q : Nat) : ((s.portReset q).port q).vfEnable = false ∧ ((s.portReset q).port q).numVfs = 0 := by
  unfold State.portReset
  dsimp only
  rw [State.modPort_self]
  exact ⟨rfl, rfl⟩

theorem State.freeRing_port (k q : Nat) : (s.freeRing k).port q = s.port q := by
  unfold State.freeRing
  dsimp only
  split <;> split <;> rfl

theorem State.resetFunction_port (q n : Nat) : ((s.resetFunction q n).port q).vfEnable = (s.port q).vfEnable
    ∧ ((s.resetFunction q n).port q).numVfs = (s.port q).numVfs := by
  have h : (s.resetRing (ringKey q n)).port q = s.port q := s.freeRing_port (ringKey q n) q
  unfold State.resetFunction
  extract_lets s₁
  have h₁ : (s₁.port q).vfEnable = (s.port q).vfEnable ∧ (s₁.port q).numVfs = (s.port q).numVfs := by
    unfold s₁
    rw [State.modPort_self, h]
    exact ⟨rfl, rfl⟩
  split <;> exact h₁

theorem State.removeVfs_port (q : Nat) :
    ((s.removeVfs q 0).port q).vfEnable = false ∧ ((s.removeVfs q 0).port q).numVfs = 0 := by
  unfold State.removeVfs
  extract_lets s₁
  rw [State.modPort_self]
  simp

end

end Sys2Proof.Machine

open Sys2Proof Sys2Proof.Machine

/-- Settles O14: a function that is reset has no ring set, and what a later reset does leaves it so. -/
theorem portResetsFreeRingSets : Obligations.PortResetsFreeRingSets := by
  intro q s
  have hport : (∀ n, n < 9 → ((s.portReset q.val).ring (ringKey q.val n)).ready = false)
      ∧ ((s.portReset q.val).port q.val).vfEnable = false ∧ ((s.portReset q.val).port q.val).numVfs = 0 :=
    ⟨fun n hn => s.portReset_ring q.val hn, s.portReset_port q.val⟩
  refine ⟨⟨_, rfl, hport⟩, ⟨_, rfl, hport⟩, ⟨_, rfl, State.resetFunction_ring_self _ q.val 0, ?_⟩, fun n hp =>
    ⟨_, if_neg (by simp [hp]), State.resetFunction_ring_self _ q.val (n.val + 1), fun u hu => State.pav_of_vfReset hu⟩⟩
  · obtain ⟨hvf, hnum⟩ := State.resetFunction_port (State.removeVfs
      (if s.boot.loadPort = some q.val ∧ s.boot.stage ≤ 4 then s.endLoad 0x000E else s) q.val 0) q.val 0
    obtain ⟨hvf', hnum'⟩ := State.removeVfs_port
      (if s.boot.loadPort = some q.val ∧ s.boot.stage ≤ 4 then s.endLoad 0x000E else s) q.val
    exact ⟨hvf.trans hvf', hnum.trans hnum'⟩

end

section

/-! PROOFS. Pavilions come, report, are reset and go (O38). -/

namespace Sys2Proof.Machine

section
variable {s : State} {c : Cmd} {v : Pav} {id : Nat}

/-! ### PAVILION_CREATE and PAVILION_STATUS (R406 to R408, R410) -/

theorem bodyPavilionCreate_rearm (hv : s.pav c.pavilion = some v) (hp : c.params.isEmpty = true) (hs : v.stopped = true) :
    bodyPavilionCreate s c = .ok (s.rearm c v) := by
  unfold bodyPavilionCreate
  dsimp only
  rw [hv]
  exact if_pos (by rw [hp, hs]; rfl)

/-- A pavilion that is armed again is as it was, with an empty trap log. -/
theorem State.rearm_pav (hv : s.pav c.pavilion = some v) : ∃ a, (s.rearm c v).pav c.pavilion
    = some { v with stopped := false, traps := { seq := v.traps.seq }, allocs := a } := by
  refine State.finish_pav (v := { v with stopped := false, traps := { seq := v.traps.seq } }) ?_ c v.grant 0 0xFFFF
  refine (State.modPav_self _ _ fun v => { v with traps := { seq := v.traps.seq } }).trans ?_
  rw [State.modPav_self, hv]
  rfl

/-- The home port that PAVILION_CREATE gives. -/
def Cmd.newHome (c : Cmd) : Nat := if c.expert = true then b2n (bitAt (c.word 3) 8) else c.port

/-- The pavilion that PAVILION_CREATE makes of the granules that it takes. -/
def State.newPav (s : State) (c : Cmd) (hbm lpd dst : List (Nat × Nat)) : Pav :=
  { role := bits (c.word 0) 19 18, homePort := c.newHome, partition := bits (c.word 0) 31 20
    clusters := maskBits 32 (bits (c.word 0) 63 32), hbm := hbm, lpddr := lpd, dstore := dst
    parking := (s.port c.newHome).lost }

/-- The state in which a pavilion has been made. -/
def State.withPav (s : State) (p : Nat) (v : Pav) : State :=
  let s := (s.zeroGranules v.hbm v.lpddr v.dstore).zeroClusters v.clusters
  let s := { s with pavs := tset s.pavs p v, pavLogs := tdel s.pavLogs p }
  s.resetCounters fun id => id == ctrId p 8 0 || id == ctrId p 8 1

theorem State.withPav_pav (s : State) (p : Nat) (v : Pav) : (s.withPav p v).pav p = some v :=
  tfind_tset_self ..

/-- The granules of HBM3E that PAVILION_CREATE wants of each die. -/
def Cmd.wantHbm (c : Cmd) (dies : List Nat) : List (Nat × Nat) :=
  if c.expert = true then ((List.range 8).map fun d => (d, bits (c.word 2) (8 * d + 7) (8 * d))).filter fun x => x.2 != 0
  else spreadEvenly (bits (c.word 0) 15 0) dies

/-- The granules of LPDDR5X that PAVILION_CREATE wants of the west hub. -/
def Cmd.wantWest (c : Cmd) : Nat :=
  if c.expert = true then bits (c.word 3) 63 32 else cdiv (bits (c.word 1) 63 32) 2

/-- The dies on which clusters lie are none only without a cluster. -/
theorem diesOf_isEmpty {cs : List Nat} (h : cs ≠ []) : (cs.map (· / 4)).eraseDups.isEmpty = false := by
  cases cs with
  | nil => exact absurd rfl h
  | cons k l => rw [List.map_cons, List.eraseDups_cons]; rfl

theorem bodyPavilionCreate_new {cs dies : List Nat} {hbm lpd dst : List (Nat × Nat)} (hp : c.params.isEmpty = false)
    (hlt : c.pavilion < 8) (hnone : s.pav c.pavilion = none) (hcs : cs = maskBits 32 (bits (c.word 0) 63 32))
    (hdies : dies = (cs.map (· / 4)).eraseDups) (hrole : bits (c.word 0) 19 18 ≠ 3) (hne : cs ≠ [])
    (hfree : ∀ k ∈ cs, (s.cluster k).inService = true ∧ s.ownerOfCluster k = none) (hlo : 1 ≤ bits (c.word 0) 31 20)
    (hhi : bits (c.word 0) 31 20 ≤ 4094) (hpart : ∀ e ∈ s.pavs, e.2.partition ≠ bits (c.word 0) 31 20)
    (hwant : ∀ x ∈ c.wantHbm dies, x.1 ∈ dies) (hwest : c.wantWest ≤ bits (c.word 1) 63 32)
    (hhbm : takeGranules (c.wantHbm dies) s.freeHbm = some hbm)
    (hlpd : takeGranules [(0, c.wantWest), (1, bits (c.word 1) 63 32 - c.wantWest)] s.freeLpddr = some lpd)
    (hdst : takeGranules (spreadEvenly (bits (c.word 1) 31 16) dies) s.freeDstore = some dst) :
    bodyPavilionCreate s c = .ok (((s.withPav c.pavilion (s.newPav c hbm lpd dst)).parkIfDue c.pavilion).finish c
      (s.newPav c hbm lpd dst).grant) := by
  have hd : dies.isEmpty = false := hdies ▸ diesOf_isEmpty hne
  subst hdies hcs
  unfold bodyPavilionCreate
  dsimp only
  rw [hnone]
  refine (need_bind (by simp [hp, hlt])).trans ((need_bind (by simpa using hrole)).trans
    ((need_bind (by simpa using hfree)).trans ((need_bind (by simp [hne])).trans ((need_bind ?_).trans ?_))))
  · rw [Bool.and_eq_true]
    refine ⟨?_, by simp [hd]⟩
    simpa [Cmd.wantHbm] using hwant
  have hh : takeGranules (if c.expert = true then ((List.range 8).map fun d =>
      (d, bits (c.word 2) (8 * d + 7) (8 * d))).filter fun x => x.2 != 0 else spreadEvenly (bits (c.word 0) 15 0)
      ((maskBits 32 (bits (c.word 0) 63 32)).map (· / 4)).eraseDups) s.freeHbm = some hbm := hhbm
  have hl : takeGranules [(0, if c.expert = true then bits (c.word 3) 63 32 else cdiv (bits (c.word 1) 63 32) 2),
      (1, bits (c.word 1) 63 32 - if c.expert = true then bits (c.word 3) 63 32 else cdiv (bits (c.word 1) 63 32) 2)]
      s.freeLpddr = some lpd := hlpd
  rw [hh, hl, hdst]
  exact (need_bind (by simpa [Cmd.wantWest] using hwest)).trans ((need_bind (by simp [hd])).trans
    (need_bind (by simpa [hlo, hhi] using hpart)))

/-- A pavilion whose home host is there is not parked as it is made. -/
theorem State.parkIfDue_of_stay {p : Nat} (hv : s.pav p = some v) (hs : v.parking = false) : s.parkIfDue p = s := by
  unfold State.parkIfDue
  rw [hv]
  exact if_pos (by simp [hs])

theorem bodyPavilionStatus_ok (hv : s.pav c.pavilion = some v) : bodyPavilionStatus s c
    = .ok (s.finish c (pack [(1, pavState (some v)), (1, v.role), (1, v.homePort), (1, bitsMask (v.handles.map (·.1))),
      (4, bitsMask v.clusters), (2, v.partition), (2, 0), (4, v.hbm.length), (4, v.lpddr.length), (4, s.freeGib 0),
      (4, s.freeGib 1), (4, v.dstore.length)])) := by
  unfold bodyPavilionStatus
  rw [hv]

/-! ### PAVILION_DESTROY (R409) -/

theorem State.started_destroyWaits (s : State) (c : Cmd) : (s.started c).destroyWaits c = s.destroyWaits c := by
  unfold State.destroyWaits
  rw [State.started_cmds, List.any_map]
  refine congrArg (s.cmds.any ·) (funext fun x => ?_)
  by_cases hx : x.serial = c.serial
  · simp [hx, Cmd.asStarted]
  · simp [hx]

theorem State.pav_none_of_pavsKept {t : State} {p : Nat} (h : t.pavsKept = s.pavsKept) (hv : s.pav p = none) :
    t.pav p = none :=
  Option.map_eq_none_iff.mp ((congrFun h p).trans (congrArg _ hv))

theorem State.destroyNow_pav (hv : s.pav c.pavilion = some v) : (s.destroyNow c).pav c.pavilion = none := by
  unfold State.destroyNow
  dsimp only
  rw [hv]
  exact State.pav_none_of_pavsKept (State.pavsKept_finish ..) (tfind_tdel_self ..)

theorem State.destroyNow_cmd (hv : s.pav c.pavilion = some v) : (s.destroyNow c).cmd c.serial = none := by
  unfold State.destroyNow
  dsimp only
  rw [hv]
  exact State.finish_cmd_self ..

theorem bodyPavilionDestroy_now (hv : s.pav c.pavilion = some v) (hf : (c.expert && bitAt (c.word 0) 0) = false)
    (hr : v.run = none) (hw : s.destroyWaits c = false) : bodyPavilionDestroy s c = .ok ((s.started c).destroyNow c) := by
  unfold bodyPavilionDestroy
  dsimp only
  rw [hv]
  refine (need_bind (by simp [hr])).trans ?_
  rw [hf]
  exact congrArg Except.ok (if_neg (by simp [State.started_destroyWaits, hw]))

theorem execPavilionDestroy_due (hd : s.due id 0x0102 c) :
    exec (.pavilionDestroy id) s = .next (s.startCmd id 0x0102 bodyPavilionDestroy) := by
  obtain ⟨hc, hop, hmay, -, -⟩ := hd
  have hphase : c.phase ≠ .started := fun h => by simp [State.mayStart, h] at hmay
  change execPavilionDestroy id s = _
  unfold execPavilionDestroy
  rw [hc]
  exact if_neg fun h => hphase h.2

/-! ### FUNCTION_RESET (R413, R414) -/

/-- With no option a reset neither scrubs, retires nor returns. -/
theorem bitAt_of_low_bits {x i : Nat} (h : bits x 2 0 = 0) (hi : i < 3) : bitAt x i = false := by
  have hb : (x % 2 ^ 3).testBit i = x.testBit i := by rw [Nat.testBit_mod_two_pow]; simp [hi]
  rw [bitAt, ← hb, show x % 2 ^ 3 = 0 from h, Nat.zero_testBit]

/-- The end of FUNCTION_RESET. -/
def State.resetDone (s : State) (c : Cmd) (n m : Nat) : State :=
  match s.cmd c.serial with
  | some x => s.bumpFree.finish x (s.resetResult (c.target / 4096) m n)
  | none => s

theorem bodyFunctionReset_plain (hfn : c.fn = 0) (hw : c.expert = true → bits (c.word 0) 2 0 = 0)
    (ht : c.target ≠ 0 ∨ c.pavilion ≠ 0xF) (hpav : ∀ p, resetPavOf c.target c.pavilion = some p → (s.pav p).isSome = true)
    (hcore : c.target / 4096 ≠ 0xB) : bodyFunctionReset s c
      = .ok ((s.performReset c.target c.pavilion false false false (some c)).1.resetDone c
        (s.performReset c.target c.pavilion false false false (some c)).2.1
        (s.performReset c.target c.pavilion false false false (some c)).2.2) := by
  have hbit : ∀ i, i < 3 → bitAt (if c.expert = true then c.word 0 else 0) i = false := fun i hi => by
    split
    · next h => exact bitAt_of_low_bits (hw h) hi
    · exact Nat.zero_testBit i
  unfold bodyFunctionReset
  dsimp only
  rw [hbit 0 (by decide), hbit 1 (by decide), hbit 2 (by decide)]
  refine (need_bind (by simp [hfn])).trans ((need_bind ?_).trans ((need_bind ?_).trans ((need_bind rfl).trans
    ((need_bind rfl).trans ((if_neg ?_).trans ?_)))))
  · simpa using ht
  · simpa [Option.all_eq_true] using hpav
  · simp [State.awaitsCore, hcore]
  · generalize s.performReset c.target c.pavilion false false false (some c) = r
    obtain ⟨t, n, m⟩ := r
    unfold State.resetDone
    dsimp only
    cases t.cmd c.serial <;> rfl

/-- A command that a reset cuts off is none where no command fits. -/
theorem State.cutCount_none (s : State) {f : Cmd → Bool} (h : ∀ x ∈ s.cmds, f x = false) (target : Nat) (cause : Option Cmd) :
    (s.cutCount f target cause).1 = s := by
  have hl : s.cmds.filter f = [] := List.filter_eq_nil_iff.mpr fun x hx => by simp [h x hx]
  unfold State.cutCount State.forCmds
  rw [hl]
  rfl

theorem State.resetDone_cmd (s : State) (c : Cmd) (n m : Nat) : (s.resetDone c n m).cmd c.serial = none := by
  unfold State.resetDone
  split
  · next x hx =>
    rw [← State.cmd_serial hx]
    exact State.finish_cmd_self ..
  · assumption

theorem State.resetDone_pavsKept (s : State) (c : Cmd) (n m : Nat) : (s.resetDone c n m).pavsKept = s.pavsKept := by
  unfold State.resetDone
  split
  · exact State.pavsKept_finish ..
  · rfl

/-- What the reset leaves of a pavilion in which nothing runs and whose reshape stands. -/
theorem State.resetPav_quiet {p : Nat} (hv : s.pav p = some v) (hr : v.run = none) (hs : v.sealing = none)
    (ha : v.abortReason ≠ none) (x : Cmd)
    (hc : ∀ y ∈ s.cmds, y.pavilion = p → y.serial ≠ x.serial → y.opcode / 256 = 0) (target : Nat) :
    ∃ u o, (s.resetPav p target (some x)).1.pav p = some u ∧ u.shell = { v with
      stopped := false, handles := [], data := [], offTiles := o, traps := { seq := v.traps.seq } }.shell := by
  have hmine : ∀ f : Cmd → Bool, ∀ y ∈ s.cmds, ((y.pavilion == p && y.opcode / 256 != 0
      && (some x).all fun z => z.serial != y.serial) && f y) = false := fun f y hy => by
    by_cases hp : y.pavilion = p
    · by_cases hx : y.serial = x.serial
      · simp [hx]
      · simp [hc y hy hp hx]
    · simp [hp]
  have hcut : s.resetCut v p target (some x) = s.unseal p := by
    have hrun : (s.cutRun p target (some x)).1 = s := by
      rw [State.cutRun, State.runOf_of_no_run hv hr]
      rfl
    unfold State.resetCut
    dsimp only
    rw [s.cutCount_none (hmine fun c => c.phase != .started), hrun, s.cutCount_none (hmine _), hs]
    exact if_neg (by simpa using ha)
  obtain ⟨u, hu, hshell⟩ := State.pav_of_shells (s.shells_unseal p) hv
  have hh : u.handles = v.handles := (congrArg Pav.handles hshell : u.shell.handles = v.shell.handles)
  obtain ⟨d, o, a, hfree⟩ := State.freeHandles_all hu
  rw [hh] at hfree
  obtain ⟨w, hw, hwshell⟩ := State.pav_of_shells (State.shells_parkIfDue _ p) (State.wiped_pav hfree)
  refine ⟨w, o, ?_, hwshell.trans ?_⟩
  · rw [State.resetPav_state hv, hcut, hs]
    exact hw
  · exact congrArg (fun y : Pav => { y with
      stopped := false, handles := [], data := [], offTiles := o, traps := { seq := y.traps.seq } }) hshell

theorem resetPavOf_own {p : Nat} (hp : p < 8) {t : Nat} (ht : t = pavTarget p ∨ t = 0) :
    resetPavOf t p = some p ∧ t / 4096 ≠ 0xB := by
  unfold resetPavOf pavTarget at *
  rcases ht with rfl | rfl
  · rw [if_neg (by omega), if_pos (by omega)]
    exact ⟨congrArg some (by omega), by omega⟩
  · rw [if_pos rfl, if_neg (by omega)]
    exact ⟨rfl, by omega⟩

theorem State.performReset_pav {p t pav : Nat} (h : resetPavOf t pav = some p) (a b d : Bool) (x : Option Cmd) :
    s.performReset t pav a b d x
      = ((s.resetPav p (pavTarget p) x).1, (s.resetPav p (pavTarget p) x).2, 50000) := by
  unfold State.performReset
  rw [h]

/-- The reset of a link on a target that no command waits for. -/
theorem State.performReset_link {l : Nat} (hl : l < 6) (x : Cmd)
    (hc : ∀ y ∈ s.cmds, y.serial ≠ x.serial → y.target = 0x5000 + l → y.phase = .started) (pav : Nat) :
    (s.performReset (0x5000 + l) pav false false false (some x)).1 = s.resetLink l := by
  have hcut : (s.cutCount (fun c => c.target == 0x5000 + l && c.phase != .started && c.opcode / 256 != 0
      && (some x).all fun z => z.serial != c.serial) (0x5000 + l) (some x)).1 = s := by
    refine s.cutCount_none (fun y hy => ?_) _ _
    by_cases ht : y.target = 0x5000 + l
    · by_cases hx : y.serial = x.serial
      · simp [hx]
      · simp [hc y hy hx ht]
    · simp [ht]
  have hk : (0x5000 + l) / 4096 = 5 := by omega
  have hi : (0x5000 + l) % 4096 = l := by omega
  have hpav : resetPavOf (0x5000 + l) pav = none := by simp [resetPavOf, hk]
  unfold State.performReset
  rw [hpav]
  dsimp only
  rw [hk, hcut]
  simp [State.resetUnit, hk, hi]

theorem State.resetLink_axes (s : State) (l : Nat) : (s.resetLink l).axes = s.axes := by
  unfold State.resetLink
  dsimp only
  split <;> rfl

theorem State.resetLink_link (s : State) (l : Nat) : ((s.resetLink l).link l).queue = []
    ∧ ((s.axis (l % 3)).isOpen = true → ((s.resetLink l).link l).state = 0) := by
  unfold State.resetLink
  dsimp only
  split
  · rw [State.modLink_self]
    exact ⟨rfl, fun _ => rfl⟩
  · next h =>
    rw [State.modLink_self]
    exact ⟨rfl, fun ho => absurd ho h⟩

theorem State.resetDone_links (s : State) (c : Cmd) (n m : Nat) : (s.resetDone c n m).links = s.links := by
  unfold State.resetDone
  split
  · exact State.finish_links ..
  · rfl

theorem State.resetDone_axes (s : State) (c : Cmd) (n m : Nat) : (s.resetDone c n m).axes = s.axes := by
  unfold State.resetDone
  split
  · exact State.finish_axes ..
  · rfl

end
end Sys2Proof.Machine

open Sys2Proof Sys2Proof.Machine

/-- Settles O38: what each command makes of its pavilion, by the rules above. -/
theorem pavilionsComeAndGo : Obligations.PavilionsComeAndGo := by
  intro id c s p
  refine ⟨?_, ?_, ?_, ?_, fun hd hfn hw => ⟨?_, ?_⟩⟩
  · intro hd hparams v hv hs
    obtain ⟨a, ha⟩ := State.rearm_pav hv
    exact ⟨_, _, congrArg Host.Outcome.next (State.startCmd_ok hd (bodyPavilionCreate_rearm hv hparams hs)),
      State.finish_cmd_of_due hd .., ha, rfl, rfl, rfl, rfl⟩
  · intro hd hparams hlt hnone cs dies part lp west home want hrole hne hfree hlo hhi hpart hhome hwant hwest hbm lpd dst hhbm
      hlpd hdst
    have hbody := bodyPavilionCreate_new hparams hlt hnone rfl rfl hrole hne hfree hlo hhi hpart hwant hwest hhbm hlpd hdst
    have hv := s.withPav_pav p (s.newPav c hbm lpd dst)
    rw [State.parkIfDue_of_stay hv hhome] at hbody
    obtain ⟨a, ha⟩ := State.finish_pav hv c (s.newPav c hbm lpd dst).grant 0 0xFFFF
    exact ⟨_, _, congrArg Host.Outcome.next (State.startCmd_ok hd hbody), State.finish_cmd_of_due hd .., ha, rfl, rfl, rfl,
        rfl,
      rfl, rfl, rfl, rfl, rfl, rfl⟩
  · intro hd hf v hv hr hwaits
    have hv' : (s.started c).pav p = some v := hv
    refine ⟨_, (execPavilionDestroy_due hd).trans (congrArg Host.Outcome.next
      (State.startCmd_ok hd (bodyPavilionDestroy_now hv hf hr hwaits))), ?_, State.destroyNow_pav hv'⟩
    rw [← State.cmd_serial hd.1]
    exact State.destroyNow_cmd hv'
  · intro hd v hv
    exact congrArg Host.Outcome.next (State.startCmd_ok hd (bodyPavilionStatus_ok hv))
  · intro v hlt htarget hv hr hs ha hcmds
    obtain ⟨hp, hcore⟩ := resetPavOf_own hlt htarget
    have hbody := bodyFunctionReset_plain hfn hw (.inr (by omega)) (s := s)
      (fun k hk => by rw [show k = p from Option.some.inj (hk.symm.trans hp), hv]; rfl) hcore
    rw [State.performReset_pav hp] at hbody
    obtain ⟨u, o, hu, hshell⟩ := State.resetPav_quiet hv hr hs ha c
      (fun y hy hyp hys => hcmds y hy hyp (State.cmd_serial hd.1 ▸ hys)) (pavTarget p)
    obtain ⟨a, ha'⟩ := State.pav_of_pavsKept (State.resetDone_pavsKept _ c _ 50000) hu
    refine ⟨_, _, congrArg Host.Outcome.next (State.startCmd_ok hd hbody), ?_, ha', (congrArg Pav.stopped hshell :),
      (congrArg Pav.handles hshell :), (congrArg Pav.data hshell :), (congrArg Pav.traps hshell :),
      (congrArg Pav.clusters hshell :), (congrArg Pav.hbm hshell :), (congrArg Pav.lpddr hshell :),
      (congrArg Pav.reshape hshell :), (congrArg Pav.twin hshell :)⟩
    rw [← State.cmd_serial hd.1]
    exact State.resetDone_cmd ..
  · intro l hl htarget hcmds
    have hk : c.target / 4096 = 5 := by omega
    have hp : resetPavOf c.target c.pavilion = none := by
      unfold resetPavOf
      rw [if_neg (by omega), if_neg (by omega)]
    have hbody := bodyFunctionReset_plain hfn hw (.inl (by omega)) (s := s)
      (fun k h => by rw [hp] at h; cases h) (by omega)
    have hreset : (s.performReset c.target c.pavilion false false false (some c)).1 = s.resetLink l := by
      rw [htarget]
      exact State.performReset_link hl c
        (fun y hy hys hyt => hcmds y hy (State.cmd_serial hd.1 ▸ hys) (hyt.trans htarget.symm)) _
    rw [hreset] at hbody
    obtain ⟨hqueue, hstate⟩ := s.resetLink_link l
    have hlink := State.link_of_links (State.resetDone_links (s.resetLink l) c
      (s.performReset c.target c.pavilion false false false (some c)).2.1
      (s.performReset c.target c.pavilion false false false (some c)).2.2) l
    refine ⟨_, congrArg Host.Outcome.next (State.startCmd_ok hd hbody), ?_, (congrArg Link.queue hlink).trans hqueue,
      fun ho => (congrArg Link.state hlink).trans (hstate ho), (State.resetDone_axes ..).trans (s.resetLink_axes l)⟩
    rw [← State.cmd_serial hd.1]
    exact State.resetDone_cmd ..

end

section

/-! PROOFS. Lending (O39): the statement ranges over every number in PAVILION, and 0xF is the pool's number too. -/

namespace Sys2Proof.Machine

/-- A pavilion with two clusters of one die. -/
def lentPav : Pav :=
  { role := 1, homePort := 0, partition := 1, clusters := [0, 1], hbm := [(0, 2)], lpddr := [], dstore := [] }

/-- PAVILION_LEND of cluster 0 from pavilion 0xF to the pool. -/
def lendToPool : Cmd :=
  { serial := 0, port := 0, fn := 0, slot := 0, opcode := 0x0120, tag := 0, pavilion := 0xF, target := 0, deadline := 0
    paramRef := 0, expert := false, fence := false, deferOk := false, notify := false, params := [1, 0xF], hot := true }

/-- The state in which a pavilion stands under the number of the pool, and the command waits. -/
def lendState : State := { State.reset with pavs := [(0xF, lentPav)], cmds := [lendToPool] }

/-- What the command moves. -/
def lentGranules : Lend := { clusters := [0], hbm := [], lpddr := [], dstore := [], hbmTo := [], dstoreTo := [] }

theorem lendState_due : lendState.due 0 0x0120 lendToPool := by decide

theorem lendState_granules : lendGranules lendToPool lentPav [0] [0, 1] true = .ok lentGranules := by decide

/-- The cluster that goes to the pool comes back: destination and source are one pavilion. -/
theorem lendState_clusters :
    ((lendState.startCmd 0 0x0120 bodyPavilionLend).pav 0xF).map (·.clusters) = some [0, 1] := by
  decide

end Sys2Proof.Machine

open Sys2Proof Sys2Proof.Machine

/-- Refutes O39: the statement leaves PAVILION open. Where a pavilion stands under the number 0xF, which in DESTINATION
names the pool, the clusters that it lends to the pool are added to it again, and its clusters are not those it kept. -/
theorem not_pavilionsAreLentAndAdopted : ¬ Obligations.PavilionsAreLentAndAdopted := by
  intro h
  obtain ⟨t, u, ht, -, hu, hkept, -⟩ := (h 0 lendToPool lendState lentPav rfl).1 lendState_due (by decide) (by decide)
    (by decide) rfl rfl (by decide) (by decide) (.inl rfl) lentGranules lendState_granules (by decide) (by decide)
  have ht' : lendState.startCmd 0 0x0120 bodyPavilionLend = t := Host.Outcome.next.inj ht
  have hclusters : u.clusters = [0, 1] := by
    have hc := lendState_clusters
    rw [ht', show t.pav 0xF = some u from hu] at hc
    exact Option.some.inj hc
  rw [hkept] at hclusters
  exact absurd hclusters (by decide)

end
